-- ==== Sys2Proof/Word.lean ====
section
/-! DEFINITION. The word types of the Quidraum and the ranges of its unit numbers (R2, R7, R53, R115, R190). -/

namespace Sys2Proof

/-- A general register of a task (R53). -/
abbrev Word := BitVec 64

/-- One byte; every multi-byte value is little-endian (R9). -/
abbrev Byte := BitVec 8

/-- A string of bytes, lowest address first. -/
abbrev Bytes := List Byte

/-- A physical tile id, 0 to 4,607 (R7). -/
abbrev Phys := Fin 4608

/-- A register field of an instruction word (R59). -/
abbrev Reg := BitVec 5

/-- A 16-bit immediate or offset (R59). -/
abbrev Imm16 := BitVec 16

/-- A 21-bit immediate or offset (R59). -/
abbrev Imm21 := BitVec 21

/-- The func field of format A (R59). -/
abbrev Func := BitVec 11

/-- A task number (R53). -/
abbrev Task16 := Fin 16

/-- A meadow id (R311). -/
abbrev Meadow := Fin 256

/-- A port number; 0 to 15 on port die W, 16 to 31 on port die E (R2). -/
abbrev Port := Fin 32

/-- A sub-port number p × 8 + s (R203). -/
abbrev SubPort := Fin 256

/-- A peer index (R209). -/
abbrev Peer := Fin 4096

/-- A port die: 0 W, 1 E (R2). -/
abbrev Die := Fin 2

/-- A Trashandi sequence space: 0 request, 1 reply, 2 collective, 3 control (R211). -/
abbrev Space := Fin 4

/-- A slot of a dictionary-protocol session; the module holds at most 4 (R267). -/
abbrev Session := Fin 4

/-- The number by which the model names a packet in flight. -/
abbrev PacketId := Nat

/-- A link direction: 0 N, 1 E, 2 S, 3 W (R137). -/
abbrev Dir := Fin 4

end Sys2Proof
end

