-- ==== Sys2Proof/Syntax.lean ====
section
/-! DEFINITION. The commands of the block: one constructor of Instr for each row of spec/opcode_table.json, with the
operands the row's rule names, and the operand types. The table gives the rows no bits and no operands, so the operands
are the model's reading of each row's rule (log entry 1). -/

namespace Sys2Proof

/-- The strap levels at the rising edge of AUX_RESET_N (R391). -/
structure Straps where
  strict : Bool
  recoveryLow : Bool
  slotId : BitVec 6
  deriving DecidableEq, Repr

/-- The reference clocks (R393). -/
inductive RefClk where
  | refclk100 | refclk156w | refclk156e | xtal25
  deriving DecidableEq, Repr

/-- One junction sensor's reading (R374): the die 0 to 5 as 0x1000.04 numbers them, the sensor on it, and its value in
1/16 °C; none when it has stopped updating. -/
structure SensorReading where
  die : Fin 6
  sensor : Fin 16
  value : Option Int
  deriving DecidableEq, Repr

/-- Who writes a dictionary object: the PCIe function by BAR0 or the mailbox, the I3C target, or an SPDM session of the
dictionary protocol (R257, R264). -/
inductive Source where
  | bar0 | mailbox | i3c | session (n : Session)
  deriving DecidableEq, Repr

/-- Who stores to a t_ object (R77): the steward, the whole 8 B word over the maintenance ring, or the tile's running
task by an SD with these fields (R62). -/
inductive StoreFrom where
  | steward (v : Word)
  | sd (b a : Reg) (imm : Imm16)
  deriving DecidableEq, Repr

/-- A failure that a test finds, in the terms of a defect record (R300). -/
structure Failure where
  kind : Nat
  unit : Nat
  sub : Nat
  index : Nat
  deriving DecidableEq, Repr

/-- A dictionary message (R263): the header's fields and the data. -/
structure DictReq where
  op : Nat
  index : Nat
  sub : Nat
  first : Nat
  count : Nat
  length : Nat
  tag : Nat
  reserved : Nat
  data : Bytes
  deriving DecidableEq, Repr

/-- A write of the dictionary: a BAR0 slot write (R259) or a message (R263). -/
inductive DictAccess where
  | bar0 (off size val : Nat)
  | msg (src : Source) (r : DictReq)
  deriving DecidableEq, Repr

/-- What an SPDM message does to a session (R267): completes KEY_EXCHANGE with a certificate chain whose root hashes to
`root`, ends the session, or carries another exchange of SPDM. -/
inductive SpdmMsg where
  | keyExchange (root : Nat) (bothWays : Bool)
  | endSession
  | other
  deriving DecidableEq, Repr, Inhabited

/-- A Trashandi frame as a port die takes it: the die and sub-port it arrives on, its ECN mark, the header of R211 with the payload, the
16 B address block of its other end and its UDP source port. -/
structure Frame where
  die : Die
  subPort : SubPort
  ce : Bool
  version : Nat
  kind : Nat
  space : Space
  ceEcho : Bool
  retx : Bool
  op : Nat
  status : Nat
  dstRole : Nat
  dstEpoch : Nat
  srcRole : Nat
  srcEpoch : Nat
  seq : Nat
  payloadLen : Nat
  winIndex : Nat
  winGen : Nat
  offset : Nat
  id : Nat
  answered : Nat
  count : Nat
  type : Nat
  groupBytes : Nat
  sendTime : Nat
  cumulative : Nat
  sack : Nat
  payload : Bytes
  addr : Nat := 0
  port : Nat := 0xC000
  deriving DecidableEq, Repr

/-- Which unit of a tile takes wells' operations (R80). -/
inductive UnitSel where
  | tensor | vector
  deriving DecidableEq, Repr

/-- An input of a tile's stream switch, as a route entry names it (R138): class 0 N, 1 E, 2 S, 3 W, 4 bypass, 5 local. -/
structure StreamInput where
  cls : Fin 6
  idx : Fin 32
  deriving DecidableEq, Repr

/-- An ARP or neighbour discovery frame (R206): the address asked for, and the asker's MAC and IP address. -/
structure ArpNd where
  target : Nat
  senderMac : Nat
  senderIp : Nat
  isRequest : Bool
  deriving DecidableEq, Repr

/-- An ICMP or ICMPv6 echo request (R206); its data are what follows the checksum. -/
structure Echo where
  dst : Nat
  src : Nat
  v6 : Bool
  data : Bytes
  deriving DecidableEq, Repr

/-- A PTP message (R237), of the delay request-response mechanism. -/
inductive Ptp where
  | sync (domain origin : Nat)
  | delayReq (domain : Nat)
  | delayResp (domain : Nat) (t3 t4 : Nat)
  | announceLost (domain : Nat)
  deriving DecidableEq, Repr

/-- Why a frame is dropped at a port (R206, R211). -/
inductive DropCause where
  | unknownType | udpChecksum | badVersion | badKind | tooLong
  deriving DecidableEq, Repr

/-- One tile's part of a graph image (R79, R137, R344): the logical tile, the entry point, its instruction words, the
bytes of its configuration slots as (offset in 0x71_0000, byte), and its static data. -/
structure ImageTile where
  tile : Nat
  entry : Nat
  code : List (BitVec 32)
  slots : List (Nat × Byte)
  data : List (Nat × Bytes)
  deriving DecidableEq, Repr

/-- A region that an image declares (R344); kind 1 static, 2 append, 3 intake, 4 state. -/
structure RegionDecl where
  kind : Nat
  buddied : Bool
  tile : Nat
  buddyTile : Nat
  base : Nat
  buddyBase : Nat
  length : Nat
  deriving DecidableEq, Repr

/-- A graph image as its parts (R135, R137, R344), with the format codes that it names (R28); the manual states no byte layout for the image (log entry 9). -/
structure GraphImage where
  a40 : Bool
  tensorWork : Bool
  declaredD : Nat
  imageId : Nat
  formats : List Nat
  tiles : List ImageTile
  regions : List RegionDecl
  deriving DecidableEq, Repr

/-- What the governor measures over 1 ms (R372): module input, and the part of it that is not tile power, in W. -/
structure PowerSample where
  input : Nat
  other : Nat
  deriving DecidableEq, Repr

/-- A command: one constructor per row of the table of operations and events, in the table's order. -/
inductive Instr where
  /-- AUX_POWER_GOOD (R388). 3V3_AUX has been in range for 10 ms; the power-on reset releases, the straps are sampled and stage 0 begins. -/
  | auxPowerGood (st : Straps) (resetHigh : Bool)
  /-- BOOT_TIMEOUT (R384). The steward has not reported stage 0 done within 1.5 s, so the boot counts as failed. -/
  | bootTimeout
  /-- MAIN_POWER_APPLIED (R388). 12V_MAIN comes into range and MOD_RESET_N is deasserted. -/
  | mainPowerApplied
  /-- REGULATOR_START (R388). Once stage 0 is done and 12 V holds, the on-module regulators start (stage 1) and MAIN_PG asserts. -/
  | regulatorStart
  /-- PERST_DEASSERT (R288). PERST_N deasserts and PCIe trains (stage 2), after which BAR0 and BAR4 are served. -/
  | perstDeassert
  /-- PERST_ASSERT (R336). PERST_N resets the PCIe port only; host-form accesses and result posts fail while the link is down. -/
  | perstAssert
  /-- MOD_RESET_N_ASSERT (R392). MOD_RESET_N held low for at least 10 µs applies a D6 reset and ends any stage, transaction or update in progress. -/
  | modResetNAssert
  /-- AUX_RESET_N_ASSERT (R291). AUX_RESET_N low resets the steward; stage 0 begins again and this reset overrides the other resets. -/
  | auxResetNAssert
  /-- MAIN_SUPPLY_FAULT (R389). 12V_MAIN leaves its range; every 12 V load switches off within 1 ms and stage 1 is reported failed with reason 1. -/
  | mainSupplyFault
  /-- AUX_UNDERVOLTAGE (R389). 3V3_AUX falls below 3.0 V while 12 V is on; every 12 V load switches off within 1 ms without the steward. -/
  | auxUndervoltage
  /-- REFCLK_LOSS (R393). The loss of a reference clock stops the units it clocks until the next D6. -/
  | refclkLoss (clk : RefClk)
  /-- THERMAL_SAMPLE (R374). Every 100 µs the junction sensors are sampled, and hardware throttle and shutdown act on the readings. -/
  | thermalSample (rs : List SensorReading)
  /-- SHUTDOWN_LOCKOUT_EXPIRY (R374). 60 s after a thermal shutdown, request 0 and D6 are accepted again. -/
  | shutdownLockoutExpiry
  /-- TAP_RESET (R394). TRST_N low holds the test access port in Test-Logic-Reset. -/
  | tapReset
  /-- BYPASS (R394). The TAP BYPASS instruction; unlisted opcodes act as BYPASS. -/
  | bypass
  /-- IDCODE (R394). The TAP IDCODE instruction returns 0x1940_9B47. -/
  | idcode
  /-- SAMPLE_PRELOAD (R394). The TAP SAMPLE/PRELOAD instruction samples the signal lands. -/
  | samplePreload (lands : Nat) (scan : Nat)
  /-- EXTEST (R394). The TAP EXTEST instruction drives the lands only while MOD_RESET_N is low and the supplies are in range; otherwise it acts as SAMPLE/PRELOAD. -/
  | extest (lands : Nat) (scan : Nat)
  /-- EXTEST_PULSE (R394). The TAP IEEE 1149.6 EXTEST_PULSE instruction on the AC-coupled lanes, under the same condition as EXTEST. -/
  | extestPulse (lands : Nat) (scan : Nat)
  /-- EXTEST_TRAIN (R394). The TAP IEEE 1149.6 EXTEST_TRAIN instruction on the AC-coupled lanes, under the same condition as EXTEST. -/
  | extestTrain (lands : Nat) (scan : Nat)
  /-- UPDATE_BEGIN (R379). Update command 1 clears the staged updates partition and enters receiving. -/
  | updateBegin (src : Source)
  /-- UPDATE_FETCH (R379). Update command 2 starts reading upd_length package bytes from host memory over PCIe. -/
  | updateFetch (src : Source)
  /-- FETCH_COMPLETE (R379). A fetch of package bytes from host memory finishes. -/
  | fetchComplete (bytes : Bytes)
  /-- UPDATE_VERIFY (R379). Update command 3 checks the format, signature, security version, from-hashes and sizes; the state becomes verified or failed. -/
  | updateVerify (src : Source)
  /-- UPDATE_APPLY (R380). Update command 4 builds each component block by block in its inactive slot, journalling every block. -/
  | updateApply (src : Source)
  /-- APPLY_COMPLETE (R380). All blocks are written; the to-hashes are checked, and the state becomes applied or failed with reason 6. -/
  | applyComplete
  /-- UPDATE_ACTIVATE (R379). Update command 5 rewrites the boot record with the new slot active and trial set, then restarts the steward. -/
  | updateActivate (src : Source)
  /-- UPDATE_CONFIRM (R383). Update command 6 burns the security counter, clears trial and rewrites the NOR defect copy, all in journalled steps. -/
  | updateConfirm (src : Source)
  /-- UPDATE_REVERT (R379). Update command 7 reactivates the old slot and restarts the steward. -/
  | updateRevert (src : Source)
  /-- UPDATE_CANCEL (R379). Update command 8 discards the staged package and returns to idle. -/
  | updateCancel (src : Source)
  /-- RECOVERY_INSTALL (R386). rec_command install verifies the recovery image, writes it to a slot, makes that slot active and confirmed, and raises the counter. -/
  | recoveryInstall (src : Source)
  /-- RECOVERY_LEAVE (R386). rec_command leave boots the installed image. -/
  | recoveryLeave (src : Source)
  /-- BRINGUP_COMMAND_3 (R288). Stage 3 locks the PLLs, applies the fused repairs, trains the bridges and releases the routers with nominal tables. -/
  | bringupCommand3 (src : Source)
  /-- BRINGUP_COMMAND_4 (R293). Stage 4 runs the start-up test on the full or the fast path and repairs what it finds. -/
  | bringupCommand4 (src : Source) (fs : List Failure)
  /-- BRINGUP_COMMAND_5 (R306). Stage 5 merges the defect lists and builds the map proposal. -/
  | bringupCommand5 (src : Source)
  /-- BRINGUP_COMMAND_6 (R312). Stage 6 commits the stored meadow settings in a steward transaction; member tiles leave T3. -/
  | bringupCommand6 (src : Source)
  /-- BRINGUP_COMMAND_7 (R288). Stage 7 applies the stored port settings; enabled ports train and LLDP and hello begin (port 0 only while uncommissioned). -/
  | bringupCommand7 (src : Source)
  /-- STAGE_DONE (R288). A bring-up stage's work finishes and its status is recorded as done or failed. -/
  | stageDone (reason : Nat)
  /-- STAGE_LIMIT_EXCEEDED (R290). A stage overruns its limit and fails with reason 10, while its work continues. -/
  | stageLimitExceeded
  /-- MAP_ADOPT (R307). Writing map_adopt stages the whole map proposal into the writer's open transaction. -/
  | mapAdopt (src : Source) (v : Nat)
  /-- FUSE_BURN (R299). Writing fuse_burn burns the unfused soft repairs within each die's budget. -/
  | fuseBurn (src : Source) (v : Nat)
  /-- COMMISSION (R314). Writing the sampled SLOT_ID to commission stores the slot and the serial and commissions the module. -/
  | commission (src : Source) (v : Nat)
  /-- DECOMMISSION (R314). Writing 0xFF to commission decommissions the module and returns ports 1–31 to electrical idle. -/
  | decommission (src : Source)
  /-- DEFECT_NOR_WRITE (R301). Within 1 s of the journal write, the steward writes the defect change to the NOR copy. -/
  | defectNorWrite
  /-- BAR0_READ (R259). A BAR0 slot read returns the value or the object header word, or all ones while the steward restarts. -/
  | bar0Read (off : Nat) (size : Nat)
  /-- DICT_WRITE (R254). A write of a dictionary object that has no behaviour of its own, over BAR0, the mailbox, I3C or DICT, is checked and takes effect or is refused. -/
  | dictWrite (a : DictAccess)
  /-- RWT_STAGE (R272). A write of an RWT object stages the element into the source's open transaction, or into a table's inactive copy. -/
  | rwtStage (a : DictAccess)
  /-- DICT_READ (R263). The dictionary message READ returns committed values of an object or of array elements. -/
  | dictRead (src : Source) (r : DictReq)
  /-- READ_STAGED (R263). The dictionary message READ_STAGED returns the value staged in the requester's transaction, or else the committed value. -/
  | readStaged (src : Source) (r : DictReq)
  /-- DESCRIBE (R263). The dictionary message DESCRIBE returns the object header word and the default. -/
  | describe (src : Source) (r : DictReq)
  /-- SPDM (R267). A dictionary message carrying one SPDM message, used for session set-up and END_SESSION. -/
  | spdm (n : Session) (m : SpdmMsg)
  /-- MAILBOX_GO (R265). Writing go submits the mailbox buffer's request, or completes at once with 0x09 while the steward restarts. -/
  | mailboxGo (reg : BitVec 64) (buf : Bytes)
  /-- TRASHANDI_DICT (R267). An inbound DICT operation is checked for permission and session and its secured dictionary message is queued to the steward. -/
  | trashandiDict (f : Frame)
  /-- SESSION_IDLE_TIMEOUT (R267). A session without a message for fm_session_idle ends, and its transaction is aborted. -/
  | sessionIdleTimeout (n : Session)
  /-- SETTINGS_JOURNAL_WRITE (R255). Within 100 ms the steward journals the changed stored values, and settings_pending clears. -/
  | settingsJournalWrite
  /-- SETTINGS_ERASE (R269). Writing 0x0000_E5E5 to settings_erase arranges for the stored settings to be erased at the next cold start. -/
  | settingsErase (src : Source) (v : Nat)
  /-- ALERT_CAUSE_CLEAR (R270). A W1C write to alert_cause clears cause bits, and ALERT_N follows the enabled causes. -/
  | alertCauseClear (src : Source) (mask : BitVec 32)
  /-- FM_ROOT_HASH_WRITE (R270). Writing fm_root_hash ends every open session and aborts their transactions. -/
  | fmRootHashWrite (src : Source) (hash : Bytes)
  /-- STEWARD_LOCKSTEP_MISMATCH (R23). The steward cores disagree; both stop, ALERT_N asserts and the steward restarts from ROM. -/
  | stewardLockstepMismatch
  /-- STEWARD_RESTART_COMPLETE (R23). The steward finishes its restart within 250 ms, logs the mismatch and journals any applied commit. -/
  | stewardRestartComplete
  /-- ENERGY_GRANT_REPEAT (R23). During a steward restart, the port die W repeater reissues each meadow's last energy grant every 1 ms. -/
  | energyGrantRepeat
  /-- TXN_OPEN (R271). txn_command 1 opens a transaction for the writing source. -/
  | txnOpen (src : Source)
  /-- TXN_COMMIT (R274). txn_command 2 queues a commit; when taken up it is checked, its routing tables are derived and its buffers are prepared. -/
  | txnCommit (src : Source)
  /-- TXN_ABORT (R271). txn_command 3 aborts the source's open transaction. -/
  | txnAbort (src : Source)
  /-- COMMIT_PREPARED (R274). Every unit has acknowledged the prepare; the steward waits for retirement if needed and sends EPOCH with instant T. -/
  | commitPrepared
  /-- COMMIT_PREPARE_TIMEOUT (R275). A unit does not acknowledge the prepare within 10 ms, and the commit is refused with reason 6. -/
  | commitPrepareTimeout
  /-- COMMIT_RETIRE_TIMEOUT (R275). The previous epoch is not retired within epoch_retire_limit, and the commit is refused with reason 12. -/
  | commitRetireTimeout
  /-- EPOCH (R276). A unit receives the C5 EPOCH notice carrying instant T, flip and the transaction number. -/
  | epoch (n : PacketId)
  /-- EPOCH_INSTANT (R276). Fabric time reaches T; each unit applies the commit and flips its epoch bit if flip is set. -/
  | epochInstant
  /-- TXN_IDLE_TIMEOUT (R277). txn_idle passes without a staging write, and the open transaction is aborted. -/
  | txnIdleTimeout (src : Source)
  /-- EPOCH_COUNT_COLLECT (R187). Every 10 µs the steward collects the old-epoch in-flight counts as an INT64 reduction. -/
  | epochCountCollect
  /-- EPOCH_RETIRE_OVERDUE (R188). The old epoch is not retired within epoch_retire_limit; a report is sent and collection continues. -/
  | epochRetireOverdue
  /-- STEP_COMMIT (R279). Barrier 15's conditions all hold; the step is committed by checkpointing append lengths, flipping state pairs, writing S and opening the gates. -/
  | stepCommit (g : Meadow)
  /-- MIGRATE_PRECOPY (R284). MIGRATE code 1 streams instruction memory, slots and cistern to the spare and tracks dirty granules. -/
  | migratePrecopy (m : Fin 8)
  /-- PRECOPY_COMPLETE (R284). One precopy pass to the spare finishes. -/
  | precopyComplete (m : Fin 8)
  /-- MIGRATE_FREEZE (R285). MIGRATE code 2 stops issue, withholds stream credit, and lets units and pumps reach a stopping point. -/
  | migrateFreeze (m : Fin 8)
  /-- FREEZE_COMPLETE (R285). The executing unit operations and outstanding pump replies finish, and the tile is frozen. -/
  | freezeComplete (m : Fin 8)
  /-- MIGRATE_HANDOVER_COPY (R284). MIGRATE code 3 copies dirty granules and all task, scoreboard, well, counter and stream state to the spare. -/
  | migrateHandoverCopy (m : Fin 8)
  /-- MIGRATE_THAW (R285). MIGRATE code 4 thaws the tile and abandons the migration. -/
  | migrateThaw (m : Fin 8)
  /-- MIGRATE_RELEASE (R284). MIGRATE code 5 stops forwarding and the old tile enters fallow. -/
  | migrateRelease (m : Fin 8)
  /-- MIGRATE_FREEZE_TIMEOUT (R285). The freeze does not complete within migrate_freeze_limit; the migration is abandoned and the spare returns to the heath. -/
  | migrateFreezeTimeout (m : Fin 8)
  /-- MIGRATE_SELF_THAW (R285). 2 ms after freeze with no handover or thaw, the old tile thaws on its own. -/
  | migrateSelfThaw (m : Fin 8)
  /-- SPARE_RESUME (R284). At T + 1 µs the spare resumes every task and pump in the copied states. -/
  | spareResume (m : Fin 8)
  /-- OLD_EPOCH_FORWARD (R286). The old tile forwards an old-epoch request over the standpipe to the successor and relays the reply. -/
  | oldEpochForward (n : PacketId)
  /-- ADD (R60). g_d = g_a + g_b modulo 2^64. -/
  | add (p : Phys) (d : Reg) (a : Reg) (b : Reg)
  /-- SUB (R60). g_d = g_a − g_b modulo 2^64. -/
  | sub (p : Phys) (d : Reg) (a : Reg) (b : Reg)
  /-- AND (R60). Bitwise AND of g_a and g_b. -/
  | and (p : Phys) (d : Reg) (a : Reg) (b : Reg)
  /-- OR (R60). Bitwise OR of g_a and g_b. -/
  | or (p : Phys) (d : Reg) (a : Reg) (b : Reg)
  /-- XOR (R60). Bitwise XOR of g_a and g_b. -/
  | xor (p : Phys) (d : Reg) (a : Reg) (b : Reg)
  /-- SLL (R60). Shift g_a left by g_b[5:0]. -/
  | sll (p : Phys) (d : Reg) (a : Reg) (b : Reg)
  /-- SRL (R60). Shift g_a logically right by g_b[5:0]. -/
  | srl (p : Phys) (d : Reg) (a : Reg) (b : Reg)
  /-- SRA (R60). Shift g_a arithmetically right by g_b[5:0]. -/
  | sra (p : Phys) (d : Reg) (a : Reg) (b : Reg)
  /-- SLT (R60). g_d = 1 if g_a < g_b signed, else 0. -/
  | slt (p : Phys) (d : Reg) (a : Reg) (b : Reg)
  /-- SLTU (R60). g_d = 1 if g_a < g_b unsigned, else 0. -/
  | sltu (p : Phys) (d : Reg) (a : Reg) (b : Reg)
  /-- MUL (R60). Low 64 bits of g_a × g_b. -/
  | mul (p : Phys) (d : Reg) (a : Reg) (b : Reg)
  /-- MULH (R60). High 64 bits of the signed product. -/
  | mulh (p : Phys) (d : Reg) (a : Reg) (b : Reg)
  /-- MULHU (R60). High 64 bits of the unsigned product. -/
  | mulhu (p : Phys) (d : Reg) (a : Reg) (b : Reg)
  /-- DIV (R61). Signed quotient; division by zero gives all ones without a fault. -/
  | div (p : Phys) (d : Reg) (a : Reg) (b : Reg)
  /-- DIVU (R61). Unsigned quotient; division by zero gives all ones. -/
  | divu (p : Phys) (d : Reg) (a : Reg) (b : Reg)
  /-- REM (R61). Signed remainder; division by zero gives the dividend. -/
  | rem (p : Phys) (d : Reg) (a : Reg) (b : Reg)
  /-- REMU (R61). Unsigned remainder; division by zero gives the dividend. -/
  | remu (p : Phys) (d : Reg) (a : Reg) (b : Reg)
  /-- ADDI (R60). g_d = g_a + sext(imm16). -/
  | addi (p : Phys) (d : Reg) (a : Reg) (imm : Imm16)
  /-- ANDI (R60). Bitwise AND with the zero-extended immediate. -/
  | andi (p : Phys) (d : Reg) (a : Reg) (imm : Imm16)
  /-- ORI (R60). Bitwise OR with the zero-extended immediate. -/
  | ori (p : Phys) (d : Reg) (a : Reg) (imm : Imm16)
  /-- XORI (R60). Bitwise XOR with the zero-extended immediate. -/
  | xori (p : Phys) (d : Reg) (a : Reg) (imm : Imm16)
  /-- SLTI (R60). Signed compare with the sign-extended immediate. -/
  | slti (p : Phys) (d : Reg) (a : Reg) (imm : Imm16)
  /-- SLTIU (R60). Unsigned compare with the sign-extended immediate. -/
  | sltiu (p : Phys) (d : Reg) (a : Reg) (imm : Imm16)
  /-- SHI (R60). Shift g_a by an immediate amount, left, logical right or arithmetic right as imm[7:6] selects. -/
  | shi (p : Phys) (d : Reg) (a : Reg) (imm : Imm16)
  /-- LUI (R60). g_d = sext(imm21) × 2^16. -/
  | lui (p : Phys) (d : Reg) (imm : Imm21)
  /-- JAL (R61). Jump relative and link, with alignment and range faults. -/
  | jal (p : Phys) (d : Reg) (off : Imm21)
  /-- JALR (R61). Jump to g_a + sext(imm16) and link. -/
  | jalr (p : Phys) (d : Reg) (a : Reg) (imm : Imm16)
  /-- BEQ (R60). Branch if g_a equals g_b. -/
  | beq (p : Phys) (a : Reg) (b : Reg) (off : Imm16)
  /-- BNE (R60). Branch if g_a differs from g_b. -/
  | bne (p : Phys) (a : Reg) (b : Reg) (off : Imm16)
  /-- BLT (R60). Branch if g_a < g_b signed. -/
  | blt (p : Phys) (a : Reg) (b : Reg) (off : Imm16)
  /-- BGE (R60). Branch if g_a ≥ g_b signed. -/
  | bge (p : Phys) (a : Reg) (b : Reg) (off : Imm16)
  /-- BLTU (R60). Branch if g_a < g_b unsigned. -/
  | bltu (p : Phys) (a : Reg) (b : Reg) (off : Imm16)
  /-- BGEU (R60). Branch if g_a ≥ g_b unsigned. -/
  | bgeu (p : Phys) (a : Reg) (b : Reg) (off : Imm16)
  /-- LB (R62). Load a sign-extended byte from the local offset space, checked against the scoreboard. -/
  | lb (p : Phys) (d : Reg) (a : Reg) (imm : Imm16)
  /-- LH (R62). Load a sign-extended 2 B value. -/
  | lh (p : Phys) (d : Reg) (a : Reg) (imm : Imm16)
  /-- LW (R62). Load a sign-extended 4 B value. -/
  | lw (p : Phys) (d : Reg) (a : Reg) (imm : Imm16)
  /-- LD (R62). Load 8 B. -/
  | ld (p : Phys) (d : Reg) (a : Reg) (imm : Imm16)
  /-- LBU (R62). Load a zero-extended byte. -/
  | lbu (p : Phys) (d : Reg) (a : Reg) (imm : Imm16)
  /-- LHU (R62). Load a zero-extended 2 B value. -/
  | lhu (p : Phys) (d : Reg) (a : Reg) (imm : Imm16)
  /-- LWU (R62). Load a zero-extended 4 B value. -/
  | lwu (p : Phys) (d : Reg) (a : Reg) (imm : Imm16)
  /-- SB (R62). Store 1 B to the local offset space. -/
  | sb (p : Phys) (b : Reg) (a : Reg) (imm : Imm16)
  /-- SH (R62). Store 2 B. -/
  | sh (p : Phys) (b : Reg) (a : Reg) (imm : Imm16)
  /-- SW (R62). Store 4 B. -/
  | sw (p : Phys) (b : Reg) (a : Reg) (imm : Imm16)
  /-- SD (R77). Store 8 B, including stores to t_ control objects under their store rules. -/
  | sd (p : Phys) (b : Reg) (a : Reg) (imm : Imm16)
  /-- CLAIM (R64). Allocates a scoreboard entry for a cistern range, or returns −1 or −2. -/
  | claim (p : Phys) (d : Reg) (a : Reg) (b : Reg) (func : Func)
  /-- RELEASE (R64). Frees a scoreboard entry once its range is neither Filling nor Draining, and clears a trough's configured bit. -/
  | release (p : Phys) (d : Reg) (a : Reg) (b : Reg) (func : Func)
  /-- PUMP (R65). Validates the posted descriptors, marks their ranges Filling and Draining, and advances the ring tail. -/
  | pump (p : Phys) (d : Reg) (a : Reg) (b : Reg) (func : Func)
  /-- SWAP (R65). Flips a trough pair's role bit once neither half is Filling or Draining. -/
  | swap (p : Phys) (d : Reg) (a : Reg) (b : Reg) (func : Func)
  /-- SEND (R66). Sends a message of 1–4 descriptors to a well and stalls until its SEND_DONE. -/
  | send (p : Phys) (d : Reg) (a : Reg) (b : Reg) (func : Func)
  /-- SENDT (R67). SEND with an expiry and a status written to g_d. -/
  | sendt (p : Phys) (d : Reg) (a : Reg) (b : Reg) (func : Func)
  /-- WAITANY (R68). Takes one whole message from an Open sequencer-bound well in the mask into the task's message buffer. -/
  | waitany (p : Phys) (d : Reg) (a : Reg) (b : Reg) (func : Func)
  /-- FOLD (R69). Selects the next configuration slot and stalls until the fold completes. -/
  | fold (p : Phys) (d : Reg) (a : Reg) (b : Reg) (func : Func)
  /-- TOKEN (R70). Emits a control token on a sequencer stream output; END_STEP or DRAIN requests a drain. -/
  | token (p : Phys) (d : Reg) (a : Reg) (b : Reg) (func : Func)
  /-- TOKEN_END_WORD (R70). TOKEN with func[2] set closes the output's stream with an end word. -/
  | tokenEndWord (p : Phys) (d : Reg) (a : Reg) (b : Reg) (func : Func)
  /-- WAIT (R71). Places the task in Waiting until an event in its mask, or returns at once when one is pending. -/
  | wait (p : Phys) (d : Reg) (a : Reg) (b : Reg) (func : Func)
  /-- CREDIT (R72). Takes energy credits from the tile balance, stalling while the balance is short. -/
  | credit (p : Phys) (d : Reg) (a : Reg) (b : Reg) (func : Func)
  /-- YIELD (R55). Lets the scheduler switch to another Ready task of equal or higher priority. -/
  | yield (p : Phys) (d : Reg) (a : Reg) (b : Reg) (func : Func)
  /-- BARRIER (R73). Contributes an arrival to a meadow barrier and waits for its completion. -/
  | barrier (p : Phys) (d : Reg) (a : Reg) (b : Reg) (func : Func)
  /-- HEARTBEAT (R74). Restarts the task's watchdog period. -/
  | heartbeat (p : Phys) (d : Reg) (a : Reg) (b : Reg) (func : Func)
  /-- STALL_RELEASE (R57). A stall condition clears, the compute clock ungates, and the task becomes Ready to reissue its instruction. -/
  | stallRelease (p : Phys) (k : Task16)
  /-- TASK_START (R77). t_task command 1 zeroes g1–g31, clears the pending events and makes an Idle task Ready. -/
  | taskStart (p : Phys) (k : Task16) (fr : StoreFrom)
  /-- TASK_STOP (R77). t_task command 2 makes the task Idle at the next boundary, abandoning a stalled instruction. -/
  | taskStop (p : Phys) (k : Task16) (fr : StoreFrom)
  /-- TASK_CLEAR_FAULT (R77). t_task command 3 makes a Faulted task Idle. -/
  | taskClearFault (p : Phys) (k : Task16) (fr : StoreFrom)
  /-- WATCHDOG_EXPIRY (R74). A task counts a full watchdog period without HEARTBEAT; the hang bit is set and a hang report is sent. -/
  | watchdogExpiry (p : Phys) (k : Task16)
  /-- TIMER_WAKE (R71). Fabric time reaches t_timer and raises wake event [10]. -/
  | timerWake (p : Phys)
  /-- MAINTENANCE_REQUEST (R71). A maintenance request from the steward ends every WAIT and raises event [13]. -/
  | maintenanceRequest (p : Phys)
  /-- CLOCK_SOURCE_SWITCH (R368). A write of t_power source moves the tile between the fabric clock and WCLK at the next instruction boundary. -/
  | clockSourceSwitch (p : Phys)
  /-- MATMUL (R88). Tensor operation: validates, then accumulates exact products block by block and converts the result into C. -/
  | matmul (p : Phys)
  /-- LACVT (R91). Checks and converts LA records to format C. -/
  | lacvt (p : Phys)
  /-- VADD (R96). Vector C = A + B. -/
  | vadd (p : Phys)
  /-- VSUB (R96). Vector C = A − B. -/
  | vsub (p : Phys)
  /-- VMUL (R96). Vector C = A × B. -/
  | vmul (p : Phys)
  /-- VFMA (R96). Vector C = A × B + D with one rounding. -/
  | vfma (p : Phys)
  /-- VMAX (R96). Vector C = max(A, B). -/
  | vmax (p : Phys)
  /-- VMIN (R96). Vector C = min(A, B). -/
  | vmin (p : Phys)
  /-- VSCALE (R96). Vector C = A × s. -/
  | vscale (p : Phys)
  /-- VADDS (R96). Vector C = A + s. -/
  | vadds (p : Phys)
  /-- VABS (R96). Vector C = |A|. -/
  | vabs (p : Phys)
  /-- VNEG (R96). Vector C = −A. -/
  | vneg (p : Phys)
  /-- VEXP2 (R96). Vector C = 2^A, correctly rounded. -/
  | vexp2 (p : Phys)
  /-- VEXP (R96). Vector C = e^A through VEXP2. -/
  | vexp (p : Phys)
  /-- VLOG2 (R96). Vector C = log2(A). -/
  | vlog2 (p : Phys)
  /-- VLOG (R96). Vector C = ln(A). -/
  | vlog (p : Phys)
  /-- VRCP (R96). Vector C = 1 / A. -/
  | vrcp (p : Phys)
  /-- VRSQRT (R96). Vector C = 1 / sqrt(A). -/
  | vrsqrt (p : Phys)
  /-- RSUM (R98). Row sums in the fixed lane order. -/
  | rsum (p : Phys)
  /-- RMAX (R98). Row maxima. -/
  | rmax (p : Phys)
  /-- VEXPSUB (R96). C = VEXP(A − B per row), with the row sums written to D. -/
  | vexpsub (p : Phys)
  /-- VMULROW (R96). C = A × B per row. -/
  | vmulrow (p : Phys)
  /-- CVT (R96). Converts A from format A to format C. -/
  | cvt (p : Phys)
  /-- VDOT (R99). Binary32 dot products of the rows of A and B. -/
  | vdot (p : Phys)
  /-- WAITING_OPERATION_START (R81). A unit starts the operand reads of its waiting operation once the executing one permits. -/
  | waitingOperationStart (p : Phys) (u : UnitSel)
  /-- UNIT_STALL_RELEASE (R82). A unit read or write stalled on a Filling or Draining range proceeds. -/
  | unitStallRelease (p : Phys) (u : UnitSel)
  /-- UNIT_COMPLETION (R93). An operation ends; its status record is written and its counter and well completion are posted. -/
  | unitCompletion (p : Phys) (u : UnitSel)
  /-- UNIT_COMPLETION_PLACED (R94). A completion held for a full well is placed once the well has room, and the unit continues. -/
  | unitCompletionPlaced (p : Phys) (u : UnitSel)
  /-- PATROL_SCRUB (R104). Every 160 ms one cistern line is read and corrected; a line corrected 3 times in 24 h is recorded. -/
  | patrolScrub (p : Phys)
  /-- SCRUB_WRITE_BACK (R103). A word corrected on read is written back through the scrub path within 1 µs. -/
  | scrubWriteBack (p : Phys) (word : Nat)
  /-- PUMP_DESCRIPTOR_START (R115). A pump starts its next descriptor once the previous one has issued its last request. -/
  | pumpDescriptorStart (p : Phys) (n : Fin 8)
  /-- PUMP_DESCRIPTOR_COMPLETE (R118). All replies and acknowledgements have arrived; the marks are removed, the ranges updated and the completion posted. -/
  | pumpDescriptorComplete (p : Phys) (n : Fin 8) (j : Nat)
  /-- PUMP_COMPLETION_PLACED (R120). A held pump completion record is placed when its well has room, and the completions behind it follow. -/
  | pumpCompletionPlaced (p : Phys) (n : Fin 8)
  /-- WELL_FED_DESCRIPTOR (R121). Pump 7 takes a message from a pump-bound well and validates and posts its descriptors. -/
  | wellFedDescriptor (p : Phys)
  /-- PUMP_RING_STORE (R120). A store to t_pump ring base or ring length, allowed only while the ring is empty, resets head and tail. -/
  | pumpRingStore (p : Phys) (n : Fin 8) (fr : StoreFrom)
  /-- TROUGH_CONFIGURE (R123). A store that sets t_trough configured requires both ranges to be claimed. -/
  | troughConfigure (p : Phys) (n : Fin 16) (fr : StoreFrom)
  /-- COUNTER_STORE (R145). A store to one half of t_counter writes its RW fields and clears pending. -/
  | counterStore (p : Phys) (n : Fin 16) (upper : Bool) (fr : StoreFrom)
  /-- SLUICE_REFILL (R124). At each 64 ns multiple of fabric time, every token bucket gains rate × 64 ns up to its burst depth. -/
  | sluiceRefill
  /-- SLUICE_ADMIT (R124). A waiting packet is admitted once its buckets hold more than zero, and its flit bytes are charged. -/
  | sluiceAdmit (p : Phys) (n : PacketId)
  /-- END_ROW (R143). An END_ROW token reaches a sink: discarded at operand and control ports, or ends a row item. -/
  | endRow (p : Phys) (i : StreamInput)
  /-- END_BLOCK (R143). An END_BLOCK token reaches a sink. -/
  | endBlock (p : Phys) (i : StreamInput)
  /-- END_STEP (R152). An END_STEP token is consumed at a sink and its argument is checked against the step number. -/
  | endStep (p : Phys) (i : StreamInput)
  /-- SELECT (R148). A SELECT token supplies a steering control value. -/
  | select (p : Phys) (i : StreamInput)
  /-- DRAIN_TOKEN (R152). A DRAIN token ends a sink's input for a drain. -/
  | drainToken (p : Phys) (i : StreamInput)
  /-- FOLD_TOKEN (R150). A FOLD token consumed at the fold sink starts a fold, or is reported when it names an unloaded slot. -/
  | foldToken (p : Phys) (i : StreamInput)
  /-- BARRIER_TOKEN (R141). A BARRIER token at the barrier sink adds one arrival as BARRIER would. -/
  | barrierToken (p : Phys) (i : StreamInput)
  /-- USER_TOKEN (R143). A user token passes unchanged, or is discarded at operand and control ports. -/
  | userToken (p : Phys) (i : StreamInput)
  /-- END_WORD (R142). An end word reaches a sink, which checks its count and closes until the next slot or step. -/
  | endWord (p : Phys) (i : StreamInput)
  /-- STEER_FIRE (R147). A steering unit's control value and item are both at the heads, and it fires as switch, merge, gate or repeat. -/
  | steerFire (p : Phys) (u : Fin 4)
  /-- STEER_STRUCTURAL (R149). Every input in use holds the same structural token or an end word; the unit consumes them and emits copies. -/
  | steerStructural (p : Phys) (u : Fin 4)
  /-- COUNTER_TERMINAL (R145). A counter reaches its terminal count; it queues its emission, raises the wake event and reloads or stops. -/
  | counterTerminal (p : Phys) (n : Fin 16)
  /-- COUNTER_EMISSION (R145). A queued counter token leaves on its local source as credit allows. -/
  | counterEmission (p : Phys) (n : Fin 16)
  /-- FOLD_SWITCH (R150). The tile is quiet after a fold request; the next slot's routes, steering and counters are loaded and the sources reopen. -/
  | foldSwitch (p : Phys)
  /-- GRAPH_SOURCE_STOP (R152). A graph source finishes its current item, emits the drain token and stops. -/
  | graphSourceStop (p : Phys) (n : Fin 32)
  /-- QUIET_CONTRIBUTION (R154). A tile becomes quiet and sends its C3 INT64 contribution to the meadow's quiet count. -/
  | quietContribution (p : Phys)
  /-- DRAIN_TIMEOUT (R155). A drain without a quiet notice by drain_timeout flushes the meadow's stream plane and discards the step. -/
  | drainTimeout (g : Meadow)
  /-- STREAM_TELEMETRY_SAMPLE (R159). Every 1 ms the stream telemetry objects are sampled. -/
  | streamTelemetrySample
  /-- LINK_CRC_RETRY (R162). A flit fails its link CRC and is retransmitted, and the retry is counted. -/
  | linkCrcRetry (p : Phys) (dir : Dir)
  /-- ROUTER_HEADER_ARRIVAL (R170). A router takes a header flit and chooses an adaptive, escape or C3 output, or switches phase at the intermediate. -/
  | routerHeaderArrival (n : PacketId)
  /-- ESCAPE_WAIT_EXPIRY (R170). No adaptive channel has had space for escape_wait cycles; the packet takes the escape channel. -/
  | escapeWaitExpiry (n : PacketId)
  /-- CLASS_WAIT_EXPIRY (R168). A class that has waited 256 cycles with a flit ready is served next. -/
  | classWaitExpiry (n : PacketId)
  /-- REQUEST_ISSUE (R174). A waiting request obtains reply space and a tracker and is issued. -/
  | requestIssue (n : PacketId)
  /-- READ_SPACE_CLAIM (R174). A READ that has waited 256 cycles for reply space claims all space freed from then on. -/
  | readSpaceClaim (n : PacketId)
  /-- READ (R178). A READ request is checked at the destination and answered with READ_DATA. -/
  | read (n : PacketId)
  /-- WRITE (R178). A WRITE request is checked and written, grouped writes add marks, buddy duplicates are issued, and WRITE_ACK is returned. -/
  | write (n : PacketId)
  /-- C4_SEND_ARRIVAL (R195). A C4 SEND reaches the head of the destination's input and goes through the placement checks. -/
  | c4SendArrival (n : PacketId)
  /-- SEND_PLACE (R196). A SEND waiting for room is placed once the well has enough free entries. -/
  | sendPlace (p : Phys)
  /-- SEND_EXPIRY (R176). A waiting SEND's expiry passes; it is discarded and answered with status 0x0F. -/
  | sendExpiry (p : Phys)
  /-- REDUCE (R183). A REDUCE reaches a port-die reduction unit and is added into its entry; a complete count delivers the vector, the barrier element or the quiet notice. -/
  | reduce (n : PacketId)
  /-- MCAST_WRITE (R185). A multicast write is copied through the meadow's box and written by matching tiles. -/
  | mcastWrite (n : PacketId)
  /-- READ_DATA (R118). A read reply arrives at the requester's reserved space. -/
  | readData (n : PacketId)
  /-- WRITE_ACK (R118). A write acknowledgement arrives at the requesting pump or port die. -/
  | writeAck (n : PacketId)
  /-- SEND_DONE (R66). A SEND completion reaches the sender and releases the stalled task with its status. -/
  | sendDone (n : PacketId)
  /-- QUIET (R154). A C5 quiet notice reaches the tiles, completing a drain or a barrier element. -/
  | quiet (n : PacketId)
  /-- DRAIN (R152). A C5 drain request makes each graph source finish and stop. -/
  | drain (n : PacketId)
  /-- RESUME (R165). A C5 RESUME reopens a drained meadow's graph sources. -/
  | resume (n : PacketId)
  /-- STALL_DETECT (R189). A channel head has not advanced for stall_limit; one stall report is raised. -/
  | stallDetect (n : PacketId)
  /-- PACKET_TELEMETRY_PUBLISH (R189). Every 1 ms the steward publishes the router counts and histograms. -/
  | packetTelemetryPublish
  /-- WELL_OPEN (R193). The open command makes a Closed well Open and empty and advances its generation. -/
  | wellOpen (p : Phys) (w : Fin 8) (fr : StoreFrom)
  /-- WELL_CLOSE (R193). The close command sends the well through Resetting to Closed, discarding its messages. -/
  | wellClose (p : Phys) (w : Fin 8) (fr : StoreFrom)
  /-- WELL_RESET (R193). The reset command sends the well through Resetting back to Open. -/
  | wellReset (p : Phys) (w : Fin 8) (fr : StoreFrom)
  /-- WELL_RESETTING_DONE (R194). The well finishes discarding within 24 cycles and leaves Resetting. -/
  | wellResettingDone (p : Phys) (w : Fin 8)
  /-- LANE_FAIL (R205). A SerDes lane loses signal or lock or exceeds its error rate, and the port falls back or goes down. -/
  | laneFail (port : Port) (lane : Fin 8)
  /-- PORT_RETRAIN_DONE (R205). Retraining ends with the port up at 400G or down, and a report is sent. -/
  | portRetrainDone (port : Port) (up : Bool)
  /-- LLDP_TRANSMIT (R207). Every 1 s each sub-port that is up sends an LLDP frame. -/
  | lldpTransmit (sp : SubPort)
  /-- LLDP_RECEIVE (R207). A received LLDPDU is stored in lldp_neighbour. -/
  | lldpReceive (sp : SubPort) (pdu : Bytes)
  /-- ARP_ND_FRAME (R206). An ARP or IPv6 neighbour discovery frame for the sub-port's own addresses is handled. -/
  | arpNdFrame (sp : SubPort) (f : ArpNd)
  /-- ICMP_ECHO_REQUEST (R206). An ICMP or ICMPv6 echo request is answered. -/
  | icmpEchoRequest (sp : SubPort) (f : Echo)
  /-- PTP_FRAME (R237). A PTP frame is timestamped and disciplines fabric time. -/
  | ptpFrame (sp : SubPort) (f : Ptp)
  /-- PAUSE_PFC_FRAME (R206). A received PAUSE or PFC frame is discarded and counted. -/
  | pausePfcFrame (sp : SubPort)
  /-- OTHER_FRAME (R206). Any other frame, or one failing its UDP checksum, is dropped and counted. -/
  | otherFrame (sp : SubPort) (cause : DropCause)
  /-- HELLO_SEND (R210). Every hello period each port die sends a hello to each bound peer. -/
  | helloSend (die : Die)
  /-- HELLO (R210). A received hello is answered with a hello reply. -/
  | hello (f : Frame)
  /-- HELLO_REPLY (R210). A received hello reply marks the peer as heard from. -/
  | helloReply (f : Frame)
  /-- PEER_HELLO_TIMEOUT (R210). Three hello periods pass without a packet from a peer, and it becomes unreachable. -/
  | peerHelloTimeout (peer : Peer)
  /-- ACK (R214). A received ACK retires acknowledged packets and adjusts the congestion window on CE echo. -/
  | ack (f : Frame)
  /-- ACK_TIMER (R214). 2 µs after a data packet's arrival an ACK for its space is sent. -/
  | ackTimer (die : Die) (peer : Peer) (space : Space)
  /-- RETRANSMIT_TIMEOUT (R215). A packet's retransmission timeout expires; it is resent, or given up at retry_limit with the peer marked unreachable. -/
  | retransmitTimeout (die : Die) (peer : Peer) (space : Space) (seq : Nat)
  /-- TRASHANDI_WRITE (R224). An inbound WRITE passes the inbound checks and is written into the mesh by C1 WRITEs. -/
  | trashandiWrite (f : Frame)
  /-- TRASHANDI_READ (R224). An inbound READ passes the checks and is answered from C1 READs. -/
  | trashandiRead (f : Frame)
  /-- TRASHANDI_SEND (R201). An inbound SEND is placed into a well as a C4 SEND with a finite expiry. -/
  | trashandiSend (f : Frame)
  /-- TRASHANDI_REDUCE (R234). An inbound REDUCE is added into the receiving die's reduction unit with its count. -/
  | trashandiReduce (f : Frame)
  /-- GROUP_COMMIT (R230). An inbound GROUP_COMMIT commits the group once its writes and bytes match, or waits for them. -/
  | groupCommit (f : Frame)
  /-- GROUP_COMMIT_APPLY (R230). The landed writes match the count; the group's marks are removed over the ring and the notify counter is raised. -/
  | groupCommitApply (die : Die) (e : Nat)
  /-- GROUP_ABORT (R231). An inbound GROUP_ABORT makes the group's bound ranges Void. -/
  | groupAbort (f : Frame)
  /-- GROUP_TIMEOUT (R230). group_timeout passes since the group's first write, and the group is aborted. -/
  | groupTimeout (die : Die) (e : Nat)
  /-- TRASHANDI_REPLY (R212). A reply or NACK reaches the requesting port die and answers the tile's request or command. -/
  | trashandiReply (f : Frame)
  /-- OUTBOUND_WINDOW_ACCESS (R222). A tile's window-form access is checked at the home die and sent to the peer. -/
  | outboundWindowAccess (n : PacketId)
  /-- GROUP_COMMIT_CONTROL (R228). A group control record with commit sends GROUP_COMMIT with the die's counts. -/
  | groupCommitControl (n : PacketId)
  /-- GROUP_ABORT_CONTROL (R228). A group control record with abort sends GROUP_ABORT. -/
  | groupAbortControl (n : PacketId)
  /-- REDUCTION_ARM (R233). An arm record arms or adopts a reduction entry, or is answered with 0x0C. -/
  | reductionArm (n : PacketId)
  /-- REMOTE_SEND (R235). A pump write to a remote SEND offset becomes a Trashandi SEND to the peer. -/
  | remoteSend (n : PacketId)
  /-- FENCE_ROLE_WRITE (R236). A write of fence_role drops packets from fenced epochs and fails requests to them. -/
  | fenceRoleWrite (src : Source) (e : Fin 256) (v : BitVec 32)
  /-- PORT_FENCE_WRITE (R236). A write of port_fence holds ports in electrical idle. -/
  | portFenceWrite (src : Source) (v : BitVec 32)
  /-- ALLOC (R243). Page ALLOC takes a Free or evicted frame and returns its handle. -/
  | alloc (f : Frame)
  /-- PAGE_WRITE (R242). Page WRITE fills one chunk and seals the frame once every chunk is written. -/
  | pageWrite (f : Frame)
  /-- FREE (R246). Page FREE returns a frame to Free after its pending reads finish. -/
  | free (f : Frame)
  /-- PAGE_READ (R242). Page READ returns one chunk of a Sealed frame. -/
  | pageRead (f : Frame)
  /-- ATTEND (R247). Page ATTEND queues attention over a Sealed frame on the holding tile. -/
  | attend (f : Frame)
  /-- ATTEND_DONE (R247). The page program finishes an ATTEND and returns the partial records. -/
  | attendDone (p : Phys)
  /-- FORWARDED_PAGE_REQUEST (R244). The other port die acts on a page request forwarded as C0 against its own page table. -/
  | forwardedPageRequest (n : PacketId)
  /-- PAGE_FORWARD_REPLY (R244). The C2 reply to a forwarded page request lets the receiving die answer the peer. -/
  | pageForwardReply (n : PacketId)
  /-- PAGE_SEAL_TIMEOUT (R242). A frame Allocated for longer than page_seal_timeout is freed and counted. -/
  | pageSealTimeout (die : Die) (fr : Nat)
  /-- PAGE_COMMAND_PUT (R249). Page command op 1 allocates if needed and writes every chunk from the meadow. -/
  | pageCommandPut (n : PacketId)
  /-- PAGE_COMMAND_GET (R249). Page command op 2 reads every chunk into the meadow. -/
  | pageCommandGet (n : PacketId)
  /-- PAGE_COMMAND_ATTEND (R249). Page command op 3 sends an ATTEND and writes the partial records. -/
  | pageCommandAttend (n : PacketId)
  /-- PAGE_COMMAND_FREE (R249). Page command op 4 frees a page. -/
  | pageCommandFree (n : PacketId)
  /-- ROTATION_SLOT (R315). Each rotation_slot the steward takes up to rotation_width eligible tiles for test. -/
  | rotationSlot
  /-- ROTATION_TEST_COMPLETE (R316). A tile's rotation tests end; it returns to the heath or is retired, and failures are recorded. -/
  | rotationTestComplete (i : Fin 8) (fs : List Failure)
  /-- SHADOW_ASSIGN (R320). Every 1 s the steward assigns and rotates shadow tiles. -/
  | shadowAssign
  /-- SHADOW_COPY_DONE (R321). The shadow tile's copy of the read extents has landed, and the notice goes to the source. -/
  | shadowCopyDone (p : Phys)
  /-- SHADOW_HOLD_TIMEOUT (R321). 100 µs after the last result without a notice, the source posts its completion and the shadow is abandoned. -/
  | shadowHoldTimeout (p : Phys)
  /-- SHADOW_COMPARE (R321). The shadow execution ends and the steward compares the two signatures. -/
  | shadowCompare (p : Phys) (sig : BitVec 64)
  /-- THIRD_RUN_COMPLETE (R323). A third run after a mismatch decides the suspect and reports it. -/
  | thirdRunComplete (p : Phys) (sig : Option (BitVec 64))
  /-- ERROR_REPORT (R326). An error report reaches the steward and is logged, coalesced or pushed. -/
  | errorReport
  /-- ERRLOG_COALESCE_EXPIRY (R326). errlog_coalesce after the first occurrence, the coalesced record is written. -/
  | errlogCoalesceExpiry (key : Nat)
  /-- MARGIN_MEASUREMENT (R330). At least every 24 h a tile's margin is measured, warned on or marked for retirement. -/
  | marginMeasurement (p : Phys) (ps : Int)
  /-- EOL_PROJECTION (R331). Each day the steward fits the margins and updates margin_eta and eol_date. -/
  | eolProjection
  /-- D1_RESET (R333). A D1 reset of one tile, optionally clearing its cistern. -/
  | d1Reset (src : Source) (p : Phys) (clear : Bool)
  /-- D2_RESET (R333). A D2 reset of one tile's router and stream switch. -/
  | d2Reset (src : Source) (p : Phys)
  /-- D3_RESET (R333). A D3 reset of a meadow: D1 of every member, a stream flush and aborted write groups. -/
  | d3Reset (src : Source) (g : Meadow) (clear : Bool)
  /-- D4_RESET (R333). A D4 reset retrains one port in its committed mode. -/
  | d4Reset (src : Source) (port : Port)
  /-- D5_RESET (R333). A D5 reset of every tile, router, bridge and port-die unit except PCIe and the mailbox. -/
  | d5Reset (src : Source)
  /-- D6_RESET (R333). A D6 reset of every unit on 12 V; volatile objects return to their defaults. -/
  | d6Reset (src : Source)
  /-- STEP_TIMEOUT (R337). A running job's step number has not advanced within step_timeout, and a hang is reported. -/
  | stepTimeout (g : Meadow)
  /-- TILE_RING_TIMEOUT (R347). A tile does not answer the maintenance ring within 100 µs, which is a unit fault. -/
  | tileRingTimeout (p : Phys)
  /-- DUMP_COMMAND (R339). A dump_command write reads the units in scope over the maintenance ring into the dump area. -/
  | dumpCommand (src : Source) (v : BitVec 64)
  /-- DUMP_UNIT_ABSENT (R340). A unit does not answer a dump read within 100 µs; it is recorded as absent and skipped. -/
  | dumpUnitAbsent (unit : Nat)
  /-- DUMP_UNPROTECT (R341). dump_unprotect removes protection from a dump. -/
  | dumpUnprotect (src : Source) (n : Nat)
  /-- JOB_LOAD (R343). Job command load reads the image, checks it, loads every tile and starts task 0. -/
  | jobLoad (src : Source) (g : Meadow) (img : GraphImage)
  /-- JOB_UNLOAD (R343). Job command unload applies D3 with cisterns cleared, and the job state becomes none. -/
  | jobUnload (src : Source) (g : Meadow)
  /-- JOB_ISOLATE (R347). Job command isolate fences every pending unit fault, re-places the tiles and stops the job. -/
  | jobIsolate (src : Source) (g : Meadow)
  /-- JOB_RECOVER (R348). Job command recover waits for re-protection, restores the tiles, rolls back and restarts the job. -/
  | jobRecover (src : Source) (g : Meadow)
  /-- REPROTECTION_COMPLETE (R350). The re-protection fills finish and each buddied region has two copies again. -/
  | reprotectionComplete (g : Meadow)
  /-- RESULT_POST (R357). A result post is deduplicated, held or delivered into the host ring or MMIO queue in sequence order. -/
  | resultPost (n : PacketId)
  /-- RQ_CONSUMED_WRITE (R358). Writing the consumed register returns ring slots to the module. -/
  | rqConsumedWrite (q : Fin 64) (v : BitVec 64)
  /-- MMIO_ACKNOWLEDGE (R359). Writing the head's ring sequence to acknowledge pops the MMIO record. -/
  | mmioAcknowledge (q : Fin 64) (v : BitVec 64)
  /-- DOORBELL_WRITE (R360). A doorbell write is queued, or refused when the queue is full or the doorbell disabled. -/
  | doorbellWrite (d : Fin 256) (v : BitVec 64)
  /-- DOORBELL_TAKE_UP (R360). Once earlier BAR2 writes are acknowledged, the next doorbell value is sent as a SEND. -/
  | doorbellTakeUp (d : Fin 256)
  /-- BAR2_WRITE (R361). A host write through BAR2 becomes C1 WRITEs, or is discarded and counted. -/
  | bar2Write (off : Nat) (bytes : Bytes)
  /-- BAR2_READ (R361). A host read through BAR2 becomes C1 READs and completes within 50 µs. -/
  | bar2Read (off : Nat) (len : Nat)
  /-- POWER_ENTRY_RETRY (R366). A refused tile retries entry into T2 or T3 when a refusing unit becomes idle. -/
  | powerEntryRetry (p : Phys)
  /-- T2_RETURN_TIMER (R367). 10 µs without a request, a partly woken T2 tile returns to T2. -/
  | t2ReturnTimer (p : Phys)
  /-- MEADOW_POWER_WAKE (R370). meadow_power_cmd wake brings every tile of the meadow to T0 and sends RESUME. -/
  | meadowPowerWake (src : Source) (g : Meadow)
  /-- MEADOW_POWER_T2 (R370). meadow_power_cmd T2 drains the meadow and takes its tiles into T2. -/
  | meadowPowerT2 (src : Source) (g : Meadow)
  /-- MEADOW_POWER_T3 (R370). meadow_power_cmd T3 drains the meadow and takes its tiles into T3. -/
  | meadowPowerT3 (src : Source) (g : Meadow)
  /-- MODULE_STATE_REQUEST_M0 (R371). Request 0 returns the module to M0 run, or from M4 performs a D6. -/
  | moduleStateRequestM0 (src : Source)
  /-- MODULE_STATE_REQUEST_M2 (R371). Request 2 drains every meadow and puts every member into T2. -/
  | moduleStateRequestM2 (src : Source)
  /-- MODULE_STATE_REQUEST_M3 (R371). Request 3 puts every tile into T3. -/
  | moduleStateRequestM3 (src : Source)
  /-- MODULE_STATE_REQUEST_M4 (R371). Request 4 switches off every 12 V load, leaving the steward on AUX. -/
  | moduleStateRequestM4 (src : Source)
  /-- M1_IDLE_ENTRY (R371). No tile has been in T0 for 1 ms, and the module enters M1 at 600 MHz. -/
  | m1IdleEntry
  /-- GOVERNOR_INTERVAL (R372). Every 1 ms the governor measures power and temperature, sets the die clocks and grants credits. -/
  | governorInterval (ms : PowerSample)
  /-- AUX_RESET_N_DEASSERT (R391). The rising edge of AUX_RESET_N samples BIST_STRICT, RECOVERY_N and SLOT_ID and lets the steward boot from ROM, entering stage 0 or recovery mode. -/
  | auxResetNDeassert (st : Straps)
  /-- HANDOVER_COPY_COMPLETE (R284). The spare acknowledges the handover copy of dirty granules and tile state, and the steward sends EPOCH with flip and instant T. -/
  | handoverCopyComplete (m : Fin 8)
  /-- DATA_WORD (R145). A stream data word reaches a sink, counter tap or fan-out and is counted, taken into credit or a slack queue, or held. -/
  | dataWord (p : Phys) (i : StreamInput)
  deriving DecidableEq, Repr

end Sys2Proof
end

