-- ==== Sys2Proof/WellFormed.lean ====
section
/-! DEFINITION. Which commands a wire, bus or protocol can carry to the block: every operand fits the field it stands for.
A command that does not is no input of the hardware, and its meaning faults (Fault.malformedCommand). -/

namespace Sys2Proof

/-- A failure's fields fit the defect record, and its kind is one that a test can find (R300). -/
def Failure.wf (f : Failure) : Bool :=
  1 ≤ f.kind && f.kind ≤ 0x0C && f.unit < 8192 && f.sub < 256 && f.index < 4096

/-- A dictionary message's fields fit its header, and its data the 4,032 B after it (R263). -/
def DictReq.wf (r : DictReq) : Bool :=
  r.op < 256 && r.index < 65536 && r.sub < 256 && r.first < 65536 && r.count < 65536 && r.length < 65536 &&
    r.tag < 2 ^ 32 && r.reserved < 2 ^ 136 && r.data.length ≤ 4032

/-- A message of one operation from a source that sends messages: BAR0 sends none (R259, R263). -/
def DictReq.is (r : DictReq) (op : Nat) (src : Source) : Bool := r.wf && r.op == op && src != .bar0

/-- A BAR0 write lies in the 128 MiB of BAR0 and carries at most 8 B (R259); a message is a WRITE. -/
def DictAccess.wf : DictAccess → Bool
  | .bar0 off size val => 0 < size && size ≤ 8 && off + size ≤ 2 ^ 27 && val < 2 ^ (8 * size)
  | .msg src r => r.is 2 src

/-- A junction sensor is there: 16 on a field die, 4 on a port die (R374). -/
def SensorReading.wf (r : SensorReading) : Bool := r.sensor.val < (if r.die.val < 4 then 16 else 4)

/-- A frame's fields fit the Trashandi header (R211), and the frame fits 9,000 B (R206). -/
def Frame.wf (f : Frame) : Bool :=
  f.version < 16 && f.kind < 16 && f.op < 256 && f.status < 256 && f.dstRole < 65536 && f.dstEpoch < 65536 &&
    f.srcRole < 65536 && f.srcEpoch < 65536 && f.seq < 2 ^ 32 && f.payloadLen < 65536 && f.winIndex < 4096 &&
    f.winGen < 16 && f.offset < 2 ^ 40 && f.id < 2 ^ 32 && f.answered < 2 ^ 32 && f.count < 2 ^ 17 && f.type < 8 &&
    f.groupBytes < 2 ^ 32 && f.sendTime < 2 ^ 64 && f.cumulative < 2 ^ 32 && f.sack < 2 ^ 64 &&
    f.payload.length ≤ 8914 && f.addr < 2 ^ 128 && 0xC000 ≤ f.port && f.port < 0x10000

/-- Addresses fit their fields (R206). -/
def ArpNd.wf (f : ArpNd) : Bool := f.target < 2 ^ 128 && f.senderMac < 2 ^ 48 && f.senderIp < 2 ^ 128

/-- Addresses fit their fields, and the frame 9,000 B (R206). -/
def Echo.wf (f : Echo) : Bool := f.dst < 2 ^ 128 && f.src < 2 ^ 128 && f.data.length ≤ 8962

/-- Timestamps and the domain fit their fields (R237). -/
def Ptp.wf : Ptp → Bool
  | .sync d t => d < 256 && t < 2 ^ 64
  | .delayReq d => d < 256
  | .delayResp d t3 t4 => d < 256 && t3 < 2 ^ 64 && t4 < 2 ^ 64
  | .announceLost d => d < 256

/-- A command that can reach the block. -/
def Instr.wf : Instr → Bool
  | .auxPowerGood _ _ => true
  | .bootTimeout => true
  | .mainPowerApplied => true
  | .regulatorStart => true
  | .perstDeassert => true
  | .perstAssert => true
  | .modResetNAssert => true
  | .auxResetNAssert => true
  | .mainSupplyFault => true
  | .auxUndervoltage => true
  | .refclkLoss _ => true
  | .thermalSample rs => rs.all SensorReading.wf
  | .shutdownLockoutExpiry => true
  | .tapReset => true
  | .bypass => true
  | .idcode => true
  | .samplePreload _ _ => true
  | .extest _ _ => true
  | .extestPulse _ _ => true
  | .extestTrain _ _ => true
  | .updateBegin _ => true
  | .updateFetch _ => true
  | .fetchComplete _ => true
  | .updateVerify _ => true
  | .updateApply _ => true
  | .applyComplete => true
  | .updateActivate _ => true
  | .updateConfirm _ => true
  | .updateRevert _ => true
  | .updateCancel _ => true
  | .recoveryInstall _ => true
  | .recoveryLeave _ => true
  | .bringupCommand3 _ => true
  | .bringupCommand4 _ fs => fs.all Failure.wf
  | .bringupCommand5 _ => true
  | .bringupCommand6 _ => true
  | .bringupCommand7 _ => true
  | .stageDone _ => true
  | .stageLimitExceeded => true
  | .mapAdopt _ v => v < 256
  | .fuseBurn _ v => v < 256
  | .commission _ v => v < 256
  | .decommission _ => true
  | .defectNorWrite => true
  | .bar0Read off size => 0 < size && size ≤ 8 && off + size ≤ 2 ^ 27
  | .dictWrite a => a.wf
  | .rwtStage a => a.wf
  | .dictRead src r => r.is 1 src
  | .readStaged src r => r.is 3 src
  | .describe src r => r.is 4 src
  | .spdm _ _ => true
  | .mailboxGo _ buf => buf.length ≤ 4064
  | .trashandiDict f => f.wf
  | .sessionIdleTimeout _ => true
  | .settingsJournalWrite => true
  | .settingsErase _ v => v < 2 ^ 32
  | .alertCauseClear _ _ => true
  | .fmRootHashWrite _ h => h.length == 48
  | .stewardLockstepMismatch => true
  | .stewardRestartComplete => true
  | .energyGrantRepeat => true
  | .txnOpen _ => true
  | .txnCommit _ => true
  | .txnAbort _ => true
  | .commitPrepared => true
  | .commitPrepareTimeout => true
  | .commitRetireTimeout => true
  | .epoch _ => true
  | .epochInstant => true
  | .txnIdleTimeout _ => true
  | .epochCountCollect => true
  | .epochRetireOverdue => true
  | .stepCommit _ => true
  | .migratePrecopy _ => true
  | .precopyComplete _ => true
  | .migrateFreeze _ => true
  | .freezeComplete _ => true
  | .migrateHandoverCopy _ => true
  | .migrateThaw _ => true
  | .migrateRelease _ => true
  | .migrateFreezeTimeout _ => true
  | .migrateSelfThaw _ => true
  | .spareResume _ => true
  | .oldEpochForward _ => true
  | .add _ _ _ _ => true
  | .sub _ _ _ _ => true
  | .and _ _ _ _ => true
  | .or _ _ _ _ => true
  | .xor _ _ _ _ => true
  | .sll _ _ _ _ => true
  | .srl _ _ _ _ => true
  | .sra _ _ _ _ => true
  | .slt _ _ _ _ => true
  | .sltu _ _ _ _ => true
  | .mul _ _ _ _ => true
  | .mulh _ _ _ _ => true
  | .mulhu _ _ _ _ => true
  | .div _ _ _ _ => true
  | .divu _ _ _ _ => true
  | .rem _ _ _ _ => true
  | .remu _ _ _ _ => true
  | .addi _ _ _ _ => true
  | .andi _ _ _ _ => true
  | .ori _ _ _ _ => true
  | .xori _ _ _ _ => true
  | .slti _ _ _ _ => true
  | .sltiu _ _ _ _ => true
  | .shi _ _ _ _ => true
  | .lui _ _ _ => true
  | .jal _ _ _ => true
  | .jalr _ _ _ _ => true
  | .beq _ _ _ _ => true
  | .bne _ _ _ _ => true
  | .blt _ _ _ _ => true
  | .bge _ _ _ _ => true
  | .bltu _ _ _ _ => true
  | .bgeu _ _ _ _ => true
  | .lb _ _ _ _ => true
  | .lh _ _ _ _ => true
  | .lw _ _ _ _ => true
  | .ld _ _ _ _ => true
  | .lbu _ _ _ _ => true
  | .lhu _ _ _ _ => true
  | .lwu _ _ _ _ => true
  | .sb _ _ _ _ => true
  | .sh _ _ _ _ => true
  | .sw _ _ _ _ => true
  | .sd _ _ _ _ => true
  | .claim _ _ _ _ _ => true
  | .release _ _ _ _ _ => true
  | .pump _ _ _ _ _ => true
  | .swap _ _ _ _ _ => true
  | .send _ _ _ _ _ => true
  | .sendt _ _ _ _ _ => true
  | .waitany _ _ _ _ _ => true
  | .fold _ _ _ _ _ => true
  | .token _ _ _ _ _ => true
  | .tokenEndWord _ _ _ _ _ => true
  | .wait _ _ _ _ _ => true
  | .credit _ _ _ _ _ => true
  | .yield _ _ _ _ _ => true
  | .barrier _ _ _ _ _ => true
  | .heartbeat _ _ _ _ _ => true
  | .stallRelease _ _ => true
  | .taskStart _ _ _ => true
  | .taskStop _ _ _ => true
  | .taskClearFault _ _ _ => true
  | .watchdogExpiry _ _ => true
  | .timerWake _ => true
  | .maintenanceRequest _ => true
  | .clockSourceSwitch _ => true
  | .matmul _ => true
  | .lacvt _ => true
  | .vadd _ => true
  | .vsub _ => true
  | .vmul _ => true
  | .vfma _ => true
  | .vmax _ => true
  | .vmin _ => true
  | .vscale _ => true
  | .vadds _ => true
  | .vabs _ => true
  | .vneg _ => true
  | .vexp2 _ => true
  | .vexp _ => true
  | .vlog2 _ => true
  | .vlog _ => true
  | .vrcp _ => true
  | .vrsqrt _ => true
  | .rsum _ => true
  | .rmax _ => true
  | .vexpsub _ => true
  | .vmulrow _ => true
  | .cvt _ => true
  | .vdot _ => true
  | .waitingOperationStart _ _ => true
  | .unitStallRelease _ _ => true
  | .unitCompletion _ _ => true
  | .unitCompletionPlaced _ _ => true
  | .patrolScrub _ => true
  | .scrubWriteBack _ _ => true
  | .pumpDescriptorStart _ _ => true
  | .pumpDescriptorComplete _ _ _ => true
  | .pumpCompletionPlaced _ _ => true
  | .wellFedDescriptor _ => true
  | .pumpRingStore _ _ _ => true
  | .troughConfigure _ _ _ => true
  | .counterStore _ _ _ _ => true
  | .sluiceRefill => true
  | .sluiceAdmit _ _ => true
  | .endRow _ _ => true
  | .endBlock _ _ => true
  | .endStep _ _ => true
  | .select _ _ => true
  | .drainToken _ _ => true
  | .foldToken _ _ => true
  | .barrierToken _ _ => true
  | .userToken _ _ => true
  | .endWord _ _ => true
  | .steerFire _ _ => true
  | .steerStructural _ _ => true
  | .counterTerminal _ _ => true
  | .counterEmission _ _ => true
  | .foldSwitch _ => true
  | .graphSourceStop _ _ => true
  | .quietContribution _ => true
  | .drainTimeout _ => true
  | .streamTelemetrySample => true
  | .linkCrcRetry _ _ => true
  | .routerHeaderArrival _ => true
  | .escapeWaitExpiry _ => true
  | .classWaitExpiry _ => true
  | .requestIssue _ => true
  | .readSpaceClaim _ => true
  | .read _ => true
  | .write _ => true
  | .c4SendArrival _ => true
  | .sendPlace _ => true
  | .sendExpiry _ => true
  | .reduce _ => true
  | .mcastWrite _ => true
  | .readData _ => true
  | .writeAck _ => true
  | .sendDone _ => true
  | .quiet _ => true
  | .drain _ => true
  | .resume _ => true
  | .stallDetect _ => true
  | .packetTelemetryPublish => true
  | .wellOpen _ _ _ => true
  | .wellClose _ _ _ => true
  | .wellReset _ _ _ => true
  | .wellResettingDone _ _ => true
  | .laneFail _ _ => true
  | .portRetrainDone _ _ => true
  | .lldpTransmit _ => true
  | .lldpReceive _ pdu => pdu.length ≤ 1504
  | .arpNdFrame _ f => f.wf
  | .icmpEchoRequest _ f => f.wf
  | .ptpFrame _ f => f.wf
  | .pausePfcFrame _ => true
  | .otherFrame _ _ => true
  | .helloSend _ => true
  | .hello f => f.wf
  | .helloReply f => f.wf
  | .peerHelloTimeout _ => true
  | .ack f => f.wf
  | .ackTimer _ _ _ => true
  | .retransmitTimeout _ _ _ _ => true
  | .trashandiWrite f => f.wf
  | .trashandiRead f => f.wf
  | .trashandiSend f => f.wf
  | .trashandiReduce f => f.wf
  | .groupCommit f => f.wf
  | .groupCommitApply _ _ => true
  | .groupAbort f => f.wf
  | .groupTimeout _ _ => true
  | .trashandiReply f => f.wf
  | .outboundWindowAccess _ => true
  | .groupCommitControl _ => true
  | .groupAbortControl _ => true
  | .reductionArm _ => true
  | .remoteSend _ => true
  | .fenceRoleWrite _ _ _ => true
  | .portFenceWrite _ _ => true
  | .alloc f => f.wf
  | .pageWrite f => f.wf
  | .free f => f.wf
  | .pageRead f => f.wf
  | .attend f => f.wf
  | .attendDone _ => true
  | .forwardedPageRequest _ => true
  | .pageForwardReply _ => true
  | .pageSealTimeout _ _ => true
  | .pageCommandPut _ => true
  | .pageCommandGet _ => true
  | .pageCommandAttend _ => true
  | .pageCommandFree _ => true
  | .rotationSlot => true
  | .rotationTestComplete _ fs => fs.all Failure.wf
  | .shadowAssign => true
  | .shadowCopyDone _ => true
  | .shadowHoldTimeout _ => true
  | .shadowCompare _ _ => true
  | .thirdRunComplete _ _ => true
  | .errorReport => true
  | .errlogCoalesceExpiry _ => true
  | .marginMeasurement _ ps => -2 ^ 15 ≤ ps && ps < 2 ^ 15
  | .eolProjection => true
  | .d1Reset _ _ _ => true
  | .d2Reset _ _ => true
  | .d3Reset _ _ _ => true
  | .d4Reset _ _ => true
  | .d5Reset _ => true
  | .d6Reset _ => true
  | .stepTimeout _ => true
  | .tileRingTimeout _ => true
  | .dumpCommand _ _ => true
  | .dumpUnitAbsent _ => true
  | .dumpUnprotect _ n => n < 256
  | .jobLoad _ _ _ => true
  | .jobUnload _ _ => true
  | .jobIsolate _ _ => true
  | .jobRecover _ _ => true
  | .reprotectionComplete _ => true
  | .resultPost _ => true
  | .rqConsumedWrite _ _ => true
  | .mmioAcknowledge _ _ => true
  | .doorbellWrite _ _ => true
  | .doorbellTakeUp _ => true
  | .bar2Write off bytes => 0 < bytes.length && off + bytes.length ≤ 2 ^ 36
  | .bar2Read off len => 0 < len && off + len ≤ 2 ^ 36
  | .powerEntryRetry _ => true
  | .t2ReturnTimer _ => true
  | .meadowPowerWake _ _ => true
  | .meadowPowerT2 _ _ => true
  | .meadowPowerT3 _ _ => true
  | .moduleStateRequestM0 _ => true
  | .moduleStateRequestM2 _ => true
  | .moduleStateRequestM3 _ => true
  | .moduleStateRequestM4 _ => true
  | .m1IdleEntry => true
  | .governorInterval ms => ms.input < 2 ^ 32 && ms.other < 2 ^ 32
  | .auxResetNDeassert _ => true
  | .handoverCopyComplete _ => true
  | .dataWord _ _ => true

end Sys2Proof
end

