-- ==== Sys2Proof/Decode.lean ====
section
/-! DEFINITION. The decoder over the rows of spec/opcode_table.json that give bits. The table gives no row any bits: its
rows are operations and events, not words, so no word spells a command (log entry 1). The one place where the block reads
instruction words of its own, the tile sequencer, has its encodings in Machine/Seq.lean (R59, R60, R63). -/

namespace Sys2Proof

/-- The command that a word of `nbits` bits spells by the table's bits: none, for no row gives bits. -/
def decodeTableWord (_nbits _w : Nat) : Option Instr := none

end Sys2Proof
end

