-- ==== Sys2Proof/Machine/Table.lean ====
section
/-! DEFINITION. Sparse tables in one canonical form: numbered things of one kind (registers, tasks, ranges, tiles, bytes
of a memory) as a list of (number, value), numbers strictly rising, no entry equal to what an unlisted number holds. -/

namespace Sys2Proof.Machine

/-- A sparse table. -/
abbrev Tbl (α : Type) := List (Nat × α)

/-- The value at number `k`; `d` where none is listed. -/
def Tbl.get {α : Type} (d : α) : Tbl α → Nat → α
  | [], _ => d
  | (j, v) :: t, k => if k = j then v else if k < j then d else Tbl.get d t k

/-- A table's entries from the first whose number is above `k`; in canonical form after an entry of `k`, all of them. -/
def Tbl.above {α : Type} (k : Nat) : Tbl α → Tbl α
  | [] => []
  | (j, v) :: t => if j ≤ k then Tbl.above k t else (j, v) :: t

/-- Sets number `k` to `v`, keeping the canonical form: an entry that would equal `d` is left out. -/
def Tbl.put {α : Type} [DecidableEq α] (d : α) : Tbl α → Nat → α → Tbl α
  | [], k, v => if v = d then [] else [(k, v)]
  | (j, w) :: t, k, v =>
    if k = j then (if v = d then Tbl.above k t else (k, v) :: t)
    else if k < j then (if v = d then (j, w) :: t else (k, v) :: (j, w) :: t)
    else (j, w) :: Tbl.put d t k v

/-- Every listed number is above `n` and rising, and no listed value equals `d`. -/
def Tbl.wfFrom {α : Type} [DecidableEq α] (d : α) : Option Nat → Tbl α → Bool
  | _, [] => true
  | lo, (j, v) :: t =>
    (match lo with | none => true | some n => decide (n < j)) && decide (v ≠ d) && Tbl.wfFrom d (some j) t

/-- The canonical form. -/
def Tbl.wf {α : Type} [DecidableEq α] (d : α) (t : Tbl α) : Bool := Tbl.wfFrom d none t

/-- Changes the value at number `k` by `f`. -/
def Tbl.mod {α : Type} [DecidableEq α] (d : α) (t : Tbl α) (k : Nat) (f : α → α) : Tbl α :=
  t.put d k (f (t.get d k))

/-- Changes every listed value by `f` (an unlisted one stays at the default). -/
def Tbl.mapVals {α : Type} [DecidableEq α] (d : α) (t : Tbl α) (f : Nat → α → α) : Tbl α :=
  t.foldl (fun acc e => acc.put d e.1 (f e.1 e.2)) t

/-- A byte memory: a table of bytes whose unlisted addresses read 0 (log entry 7). -/
abbrev Mem := List Host.Cell

/-- The byte at an address. -/
def Mem.read (m : Mem) (a : Nat) : Byte := Tbl.get 0 m a

/-- Writes one byte. -/
def Mem.write (m : Mem) (a : Nat) (b : Byte) : Mem := Tbl.put 0 m a b

/-- The canonical form of a byte memory. -/
def Mem.wf (m : Mem) : Bool := Tbl.wf (0 : Byte) m

/-- `n` bytes from address `a`. -/
def Mem.readBytes (m : Mem) (a n : Nat) : Bytes := (List.range n).map fun i => m.read (a + i)

/-- Writes a string of bytes from address `a`. -/
def Mem.writeBytes (m : Mem) (a : Nat) : Bytes → Mem
  | [] => m
  | b :: bs => Mem.writeBytes (m.write a b) (a + 1) bs

end Sys2Proof.Machine
end

