-- ==== Sys2Proof/Machine/Bits.lean ====
section
/-! DEFINITION. Bit fields, sign extension, byte order (R9) and the check functions the spec gives in full (R322). -/

namespace Sys2Proof.Machine

/-- Bits [hi:lo] of a number (the spec's notation for bit ranges). -/
def bits (n hi lo : Nat) : Nat := (n >>> lo) % 2 ^ (hi + 1 - lo)

/-- Bit `i` of a number. -/
def bit (n i : Nat) : Bool := n.testBit i

/-- A number as one bit. -/
def b2n (b : Bool) : Nat := if b then 1 else 0

/-- A field of value `v` placed at bit `lo`. -/
def fld (v lo : Nat) : Nat := v <<< lo

/-- Bits [hi:lo] replaced by `v`. -/
def setBits (n hi lo v : Nat) : Nat :=
  n - (bits n hi lo <<< lo) + ((v % 2 ^ (hi + 1 - lo)) <<< lo)

/-- The value of a little-endian string of bytes (R9). -/
def leNat : Bytes → Nat
  | [] => 0
  | b :: bs => b.toNat + 256 * leNat bs

/-- `n` little-endian bytes of a number (R9). -/
def toLE : Nat → Nat → Bytes
  | 0, _ => []
  | n + 1, v => BitVec.ofNat 8 v :: toLE n (v / 256)

/-- A little-endian value of `n` bytes in memory. -/
def Mem.readLE (m : Mem) (a n : Nat) : Nat := leNat (m.readBytes a n)

/-- Writes `n` little-endian bytes of `v`. -/
def Mem.writeLE (m : Mem) (a n v : Nat) : Mem := m.writeBytes a (toLE n v)

/-- Writes `n` zero bytes. -/
def Mem.zero (m : Mem) (a n : Nat) : Mem := m.filter fun c => c.1 < a || a + n ≤ c.1

/-- The value of `n` bits read as two's complement. -/
def signed (n v : Nat) : Int :=
  if v % 2 ^ n < 2 ^ (n - 1) then ((v % 2 ^ n : Nat) : Int) else ((v % 2 ^ n : Nat) : Int) - (2 ^ n : Nat)

/-- An integer as `n` bits of two's complement. -/
def unsigned (n : Nat) (z : Int) : Nat := (z % ((2 ^ n : Nat) : Int)).toNat

/-- sext of R59 from a 16-bit field. -/
def sext16 (v : Imm16) : Word := v.signExtend 64

/-- sext of R59 from a 21-bit field. -/
def sext21 (v : Imm21) : Word := v.signExtend 64

/-- Ceiling of a quotient; 0 where the divisor is 0. -/
def ceilDiv (a b : Nat) : Nat := (a + b - 1) / b

/-- A count that saturates at all ones of `n` bits. -/
def sat (n v : Nat) : Nat := min v (2 ^ n - 1)

/-- One bit of CRC-64, most significant bit first (R322). -/
def crc64Bit (c : BitVec 64) : BitVec 64 :=
  if c.msb then (c <<< 1) ^^^ 0x42F0E1EBA9EA3693#64 else c <<< 1

/-- One byte of CRC-64 (R322: no reflection). -/
def crc64Byte (c : BitVec 64) (b : Byte) : BitVec 64 :=
  let c0 := c ^^^ (b.setWidth 64 <<< 56)
  crc64Bit (crc64Bit (crc64Bit (crc64Bit (crc64Bit (crc64Bit (crc64Bit (crc64Bit c0)))))))

/-- The signature of R322: CRC-64 with polynomial 0x42F0_E1EB_A9EA_3693, initial value and final XOR all ones. -/
def crc64 (bs : Bytes) : BitVec 64 := (bs.foldl crc64Byte (BitVec.allOnes 64)) ^^^ BitVec.allOnes 64

/-- The position of the first element that satisfies `f`. -/
def firstIdx {α : Type} (f : α → Bool) : List α → Option Nat
  | [] => none
  | a :: t => if f a then some 0 else (firstIdx f t).map (· + 1)

/-- A list without its element at position `i`. -/
def dropAt {α : Type} : List α → Nat → List α
  | [], _ => []
  | _ :: t, 0 => t
  | a :: t, i + 1 => a :: dropAt t i

end Sys2Proof.Machine
end

