-- ==== Sys2Proof/Machine/Catalogue.lean ====
section
/-! DEFINITION. The catalogue of the dictionary objects (R252 to R254, R268): every object that a chapter of the spec
defines, with its type code, size, access, persistence, default and element count, and the range a value must lie in. An
object is named by index × 256 + subindex. Sizes of records that the spec does not lay out are the model's (log entry 14). -/

namespace Sys2Proof.Machine

/-- An object of the dictionary. `ty`: type code (R253); `size`: bytes of the object or of one element; `acc`: 0 RO, 1 RW,
2 WO, 3 W1C, 4 RWT (R254); `pers`: 0 volatile, 1 stored, 2 fused (R255); `count`: elements of an ARRAY, else 0; `lo` and
`hi`: the range of a value where the spec gives one. -/
structure ObjInfo where
  key : Nat
  ty : Nat
  size : Nat
  acc : Nat
  pers : Nat
  dflt : Nat
  count : Nat
  lo : Nat
  hi : Nat
  deriving DecidableEq, Repr

/-! Names of the objects, as the spec spells them. -/

/-- `meadow_strict` 0x3F00.01. -/
abbrev Ob.meadow_strict : Nat := 0x3F0001
/-- `spread_base` 0x3F01.01. -/
abbrev Ob.spread_base : Nat := 0x3F0101
/-- `spread_granules` 0x3F01.02. -/
abbrev Ob.spread_granules : Nat := 0x3F0102
/-- `spread_seed` 0x3F01.03. -/
abbrev Ob.spread_seed : Nat := 0x3F0103
/-- `sluice_tile_rate` 0x5100.01. -/
abbrev Ob.sluice_tile_rate : Nat := 0x510001
/-- `sluice_tile_burst` 0x5100.02. -/
abbrev Ob.sluice_tile_burst : Nat := 0x510002
/-- `sluice_meadow_rate` 0x5101.01. -/
abbrev Ob.sluice_meadow_rate : Nat := 0x510101
/-- `sluice_meadow_burst` 0x5101.02. -/
abbrev Ob.sluice_meadow_burst : Nat := 0x510102
/-- `sluice_egress_w` 0x5102.01. -/
abbrev Ob.sluice_egress_w : Nat := 0x510201
/-- `sluice_egress_e` 0x5102.02. -/
abbrev Ob.sluice_egress_e : Nat := 0x510202
/-- `sluice_egress_burst` 0x5102.03. -/
abbrev Ob.sluice_egress_burst : Nat := 0x510203
/-- `sluice_wait` 0x5103.01. -/
abbrev Ob.sluice_wait : Nat := 0x510301
/-- `stream_laggard` 0x5300.01. -/
abbrev Ob.stream_laggard : Nat := 0x530001
/-- `stream_stall` 0x5300.02. -/
abbrev Ob.stream_stall : Nat := 0x530002
/-- `steer_discard` 0x5300.03. -/
abbrev Ob.steer_discard : Nat := 0x530003
/-- `flush_discard` 0x5300.04. -/
abbrev Ob.flush_discard : Nat := 0x530004
/-- `drain_timeout` 0x5301.01. -/
abbrev Ob.drain_timeout : Nat := 0x530101
/-- `route_epoch` 0x5000.01. -/
abbrev Ob.route_epoch : Nat := 0x500001
/-- `route_epoch_count` 0x5000.02. -/
abbrev Ob.route_epoch_count : Nat := 0x500002
/-- `epoch_retire_limit` 0x5000.03. -/
abbrev Ob.epoch_retire_limit : Nat := 0x500003
/-- `link_fence` 0x5001.01. -/
abbrev Ob.link_fence : Nat := 0x500101
/-- `two_phase` 0x5002.01. -/
abbrev Ob.two_phase : Nat := 0x500201
/-- `escape_wait` 0x5002.02. -/
abbrev Ob.escape_wait : Nat := 0x500202
/-- `stall_limit` 0x5010.01. -/
abbrev Ob.stall_limit : Nat := 0x501001
/-- `stall_reports` 0x5010.02. -/
abbrev Ob.stall_reports : Nat := 0x501002
/-- `pkt_flits0` 0x5200.01. -/
abbrev Ob.pkt_flits0 : Nat := 0x520001
/-- `pkt_flits1` 0x5200.02. -/
abbrev Ob.pkt_flits1 : Nat := 0x520002
/-- `pkt_flits2` 0x5200.03. -/
abbrev Ob.pkt_flits2 : Nat := 0x520003
/-- `pkt_flits3` 0x5200.04. -/
abbrev Ob.pkt_flits3 : Nat := 0x520004
/-- `pkt_flits4` 0x5200.05. -/
abbrev Ob.pkt_flits4 : Nat := 0x520005
/-- `pkt_flits5` 0x5200.06. -/
abbrev Ob.pkt_flits5 : Nat := 0x520006
/-- `pkt_depth0` 0x5201.01. -/
abbrev Ob.pkt_depth0 : Nat := 0x520101
/-- `pkt_depth1` 0x5201.02. -/
abbrev Ob.pkt_depth1 : Nat := 0x520102
/-- `pkt_depth2` 0x5201.03. -/
abbrev Ob.pkt_depth2 : Nat := 0x520103
/-- `pkt_depth3` 0x5201.04. -/
abbrev Ob.pkt_depth3 : Nat := 0x520104
/-- `pkt_depth4` 0x5201.05. -/
abbrev Ob.pkt_depth4 : Nat := 0x520105
/-- `pkt_depth5` 0x5201.06. -/
abbrev Ob.pkt_depth5 : Nat := 0x520106
/-- `pkt_stall0` 0x5202.01. -/
abbrev Ob.pkt_stall0 : Nat := 0x520201
/-- `pkt_stall1` 0x5202.02. -/
abbrev Ob.pkt_stall1 : Nat := 0x520202
/-- `pkt_stall2` 0x5202.03. -/
abbrev Ob.pkt_stall2 : Nat := 0x520203
/-- `pkt_stall3` 0x5202.04. -/
abbrev Ob.pkt_stall3 : Nat := 0x520204
/-- `pkt_stall4` 0x5202.05. -/
abbrev Ob.pkt_stall4 : Nat := 0x520205
/-- `pkt_stall5` 0x5202.06. -/
abbrev Ob.pkt_stall5 : Nat := 0x520206
/-- `pkt_escape0` 0x5203.01. -/
abbrev Ob.pkt_escape0 : Nat := 0x520301
/-- `pkt_escape1` 0x5203.02. -/
abbrev Ob.pkt_escape1 : Nat := 0x520302
/-- `pkt_escape2` 0x5203.03. -/
abbrev Ob.pkt_escape2 : Nat := 0x520303
/-- `pkt_escape3` 0x5203.04. -/
abbrev Ob.pkt_escape3 : Nat := 0x520304
/-- `pkt_escape4` 0x5203.05. -/
abbrev Ob.pkt_escape4 : Nat := 0x520305
/-- `pkt_escape5` 0x5203.06. -/
abbrev Ob.pkt_escape5 : Nat := 0x520306
/-- `reduce_lost` 0x5210.01. -/
abbrev Ob.reduce_lost : Nat := 0x521001
/-- `reduce_overcount` 0x5210.02. -/
abbrev Ob.reduce_overcount : Nat := 0x521002
/-- `port_mode` 0x6000.01. -/
abbrev Ob.port_mode : Nat := 0x600001
/-- `port_state` 0x6000.02. -/
abbrev Ob.port_state : Nat := 0x600002
/-- `port_lane_fail` 0x6000.03. -/
abbrev Ob.port_lane_fail : Nat := 0x600003
/-- `port_mac` 0x6000.04. -/
abbrev Ob.port_mac : Nat := 0x600004
/-- `port_ipv6` 0x6001.01. -/
abbrev Ob.port_ipv6 : Nat := 0x600101
/-- `port_ipv4` 0x6001.02. -/
abbrev Ob.port_ipv4 : Nat := 0x600102
/-- `port_gateway` 0x6001.03. -/
abbrev Ob.port_gateway : Nat := 0x600103
/-- `port_dscp` 0x6001.04. -/
abbrev Ob.port_dscp : Nat := 0x600104
/-- `port_vlan` 0x6001.05. -/
abbrev Ob.port_vlan : Nat := 0x600105
/-- `port_counts` 0x6002.01. -/
abbrev Ob.port_counts : Nat := 0x600201
/-- `lldp_neighbour` 0x6002.02. -/
abbrev Ob.lldp_neighbour : Nat := 0x600202
/-- `role_id` 0x6100.01. -/
abbrev Ob.role_id : Nat := 0x610001
/-- `role_epoch` 0x6100.02. -/
abbrev Ob.role_epoch : Nat := 0x610002
/-- `peer_endpoint` 0x6200.01. -/
abbrev Ob.peer_endpoint : Nat := 0x620001
/-- `peer_home` 0x6200.02. -/
abbrev Ob.peer_home : Nat := 0x620002
/-- `peer_addr` 0x6200.03. -/
abbrev Ob.peer_addr : Nat := 0x620003
/-- `peer_perm` 0x6200.04. -/
abbrev Ob.peer_perm : Nat := 0x620004
/-- `peer_state` 0x6200.05. -/
abbrev Ob.peer_state : Nat := 0x620005
/-- `peer_counts` 0x6200.06. -/
abbrev Ob.peer_counts : Nat := 0x620006
/-- `rto_base` 0x6500.01. -/
abbrev Ob.rto_base : Nat := 0x650001
/-- `rto_max` 0x6500.02. -/
abbrev Ob.rto_max : Nat := 0x650002
/-- `retry_limit` 0x6500.03. -/
abbrev Ob.retry_limit : Nat := 0x650003
/-- `send_expiry` 0x6500.04. -/
abbrev Ob.send_expiry : Nat := 0x650004
/-- `group_timeout` 0x6500.05. -/
abbrev Ob.group_timeout : Nat := 0x650005
/-- `hello_period` 0x6500.06. -/
abbrev Ob.hello_period : Nat := 0x650006
/-- `win_kind` 0x6300.01. -/
abbrev Ob.win_kind : Nat := 0x630001
/-- `win_meadow` 0x6300.02. -/
abbrev Ob.win_meadow : Nat := 0x630002
/-- `win_base` 0x6300.03. -/
abbrev Ob.win_base : Nat := 0x630003
/-- `win_length` 0x6300.04. -/
abbrev Ob.win_length : Nat := 0x630004
/-- `win_perm` 0x6300.05. -/
abbrev Ob.win_perm : Nat := 0x630005
/-- `win_peers` 0x6300.06. -/
abbrev Ob.win_peers : Nat := 0x630006
/-- `win_remote` 0x6300.07. -/
abbrev Ob.win_remote : Nat := 0x630007
/-- `win_notify` 0x6300.08. -/
abbrev Ob.win_notify : Nat := 0x630008
/-- `win_gen` 0x6300.09. -/
abbrev Ob.win_gen : Nat := 0x630009
/-- `win_state` 0x6300.0A. -/
abbrev Ob.win_state : Nat := 0x63000A
/-- `fence_role` 0x6600.01. -/
abbrev Ob.fence_role : Nat := 0x660001
/-- `port_fence` 0x6600.02. -/
abbrev Ob.port_fence : Nat := 0x660002
/-- `fence_drops` 0x6600.03. -/
abbrev Ob.fence_drops : Nat := 0x660003
/-- `ptp_port` 0x6700.01. -/
abbrev Ob.ptp_port : Nat := 0x670001
/-- `ptp_domain` 0x6700.02. -/
abbrev Ob.ptp_domain : Nat := 0x670002
/-- `ptp_transport` 0x6700.03. -/
abbrev Ob.ptp_transport : Nat := 0x670003
/-- `ptp_status` 0x6700.04. -/
abbrev Ob.ptp_status : Nat := 0x670004
/-- `role` 0x9000.01. -/
abbrev Ob.role : Nat := 0x900001
/-- `page_size` 0x9100.01. -/
abbrev Ob.page_size : Nat := 0x910001
/-- `page_kv_heads` 0x9100.02. -/
abbrev Ob.page_kv_heads : Nat := 0x910002
/-- `page_head_width` 0x9100.03. -/
abbrev Ob.page_head_width : Nat := 0x910003
/-- `page_frames` 0x9100.04. -/
abbrev Ob.page_frames : Nat := 0x910004
/-- `page_free` 0x9100.05. -/
abbrev Ob.page_free : Nat := 0x910005
/-- `page_counts` 0x9100.06. -/
abbrev Ob.page_counts : Nat := 0x910006
/-- `page_seal_timeout` 0x9100.07. -/
abbrev Ob.page_seal_timeout : Nat := 0x910007
/-- `part_number` 0x1000.01. -/
abbrev Ob.part_number : Nat := 0x100001
/-- `variant` 0x1000.02. -/
abbrev Ob.variant : Nat := 0x100002
/-- `serial` 0x1000.03. -/
abbrev Ob.serial : Nat := 0x100003
/-- `die_revision` 0x1000.04. -/
abbrev Ob.die_revision : Nat := 0x100004
/-- `fused_ports` 0x1000.05. -/
abbrev Ob.fused_ports : Nat := 0x100005
/-- `fused_resources` 0x1000.06. -/
abbrev Ob.fused_resources : Nat := 0x100006
/-- `iana_enterprise` 0x1000.07. -/
abbrev Ob.iana_enterprise : Nat := 0x100007
/-- `fw_version` 0x1001.01. -/
abbrev Ob.fw_version : Nat := 0x100101
/-- `dict_format` 0x1001.02. -/
abbrev Ob.dict_format : Nat := 0x100102
/-- `security_version` 0x1002.01. -/
abbrev Ob.security_version : Nat := 0x100201
/-- `slot_id_strap` 0x1003.01. -/
abbrev Ob.slot_id_strap : Nat := 0x100301
/-- `dict_state` 0x1E00.01. -/
abbrev Ob.dict_state : Nat := 0x1E0001
/-- `dict_last_error` 0x1E00.02. -/
abbrev Ob.dict_last_error : Nat := 0x1E0002
/-- `dict_errors` 0x1E00.03. -/
abbrev Ob.dict_errors : Nat := 0x1E0003
/-- `settings_erase` 0x1E00.04. -/
abbrev Ob.settings_erase : Nat := 0x1E0004
/-- `settings_pending` 0x1E00.05. -/
abbrev Ob.settings_pending : Nat := 0x1E0005
/-- `alert_cause` 0x1E10.01. -/
abbrev Ob.alert_cause : Nat := 0x1E1001
/-- `alert_mask` 0x1E10.02. -/
abbrev Ob.alert_mask : Nat := 0x1E1002
/-- `fm_root_hash` 0x1E20.01. -/
abbrev Ob.fm_root_hash : Nat := 0x1E2001
/-- `fm_session_idle` 0x1E20.02. -/
abbrev Ob.fm_session_idle : Nat := 0x1E2002
/-- `txn_command` 0x8000.01. -/
abbrev Ob.txn_command : Nat := 0x800001
/-- `txn_status` 0x8000.02. -/
abbrev Ob.txn_status : Nat := 0x800002
/-- `txn_idle` 0x8000.03. -/
abbrev Ob.txn_idle : Nat := 0x800003
/-- `txn_count` 0x8000.04. -/
abbrev Ob.txn_count : Nat := 0x800004
/-- `step_number` 0x8100.01. -/
abbrev Ob.step_number : Nat := 0x810001
/-- `step_group` 0x8100.02. -/
abbrev Ob.step_group : Nat := 0x810002
/-- `step_release` 0x8100.03. -/
abbrev Ob.step_release : Nat := 0x810003
/-- `step_base` 0x8100.04. -/
abbrev Ob.step_base : Nat := 0x810004
/-- `migrate_freeze_limit` 0x8200.01. -/
abbrev Ob.migrate_freeze_limit : Nat := 0x820001
/-- `migrate_state` 0x8200.02. -/
abbrev Ob.migrate_state : Nat := 0x820002
/-- `migrate_counts` 0x8200.03. -/
abbrev Ob.migrate_counts : Nat := 0x820003
/-- `bringup_stage` 0x2000.01. -/
abbrev Ob.bringup_stage : Nat := 0x200001
/-- `bringup_command` 0x2000.02. -/
abbrev Ob.bringup_command : Nat := 0x200002
/-- `bringup_status` 0x2000.03. -/
abbrev Ob.bringup_status : Nat := 0x200003
/-- `start_test_mode` 0x2001.01. -/
abbrev Ob.start_test_mode : Nat := 0x200101
/-- `full_test_interval` 0x2001.02. -/
abbrev Ob.full_test_interval : Nat := 0x200102
/-- `start_test_result` 0x2001.03. -/
abbrev Ob.start_test_result : Nat := 0x200103
/-- `strap_strict` 0x2001.04. -/
abbrev Ob.strap_strict : Nat := 0x200104
/-- `fuse_budget` 0x3030.01. -/
abbrev Ob.fuse_budget : Nat := 0x303001
/-- `fuse_burn` 0x3030.02. -/
abbrev Ob.fuse_burn : Nat := 0x303002
/-- `fuse_pending` 0x3030.03. -/
abbrev Ob.fuse_pending : Nat := 0x303003
/-- `defect_count` 0x3020.01. -/
abbrev Ob.defect_count : Nat := 0x302001
/-- `defect_list` 0x3020.02. -/
abbrev Ob.defect_list : Nat := 0x302002
/-- `heath_count` 0x3020.03. -/
abbrev Ob.heath_count : Nat := 0x302003
/-- `tile_status` 0x3020.04. -/
abbrev Ob.tile_status : Nat := 0x302004
/-- `map` 0x3000.01. -/
abbrev Ob.map : Nat := 0x300001
/-- `map_proposed` 0x3000.02. -/
abbrev Ob.map_proposed : Nat := 0x300002
/-- `map_detour` 0x3010.01. -/
abbrev Ob.map_detour : Nat := 0x301001
/-- `map_state` 0x3010.02. -/
abbrev Ob.map_state : Nat := 0x301002
/-- `map_adopt` 0x3010.03. -/
abbrev Ob.map_adopt : Nat := 0x301003
/-- `map_unplaced` 0x3010.04. -/
abbrev Ob.map_unplaced : Nat := 0x301004
/-- `tile_meadow` 0x3100.01. -/
abbrev Ob.tile_meadow : Nat := 0x310001
/-- `meadow_tiles` 0x3100.02. -/
abbrev Ob.meadow_tiles : Nat := 0x310002
/-- `commission_state` 0x2100.01. -/
abbrev Ob.commission_state : Nat := 0x210001
/-- `commission_slot` 0x2100.02. -/
abbrev Ob.commission_slot : Nat := 0x210002
/-- `commission` 0x2100.03. -/
abbrev Ob.commission : Nat := 0x210003
/-- `pattern_info` 0x7500.01. -/
abbrev Ob.pattern_info : Nat := 0x750001
/-- `fleet_budget` 0x7500.02. -/
abbrev Ob.fleet_budget : Nat := 0x750002
/-- `fleet_failures` 0x7500.03. -/
abbrev Ob.fleet_failures : Nat := 0x750003
/-- `rotation_enable` 0x7100.01. -/
abbrev Ob.rotation_enable : Nat := 0x710001
/-- `rotation_slot` 0x7100.02. -/
abbrev Ob.rotation_slot : Nat := 0x710002
/-- `rotation_width` 0x7100.03. -/
abbrev Ob.rotation_width : Nat := 0x710003
/-- `rotation_state` 0x7100.04. -/
abbrev Ob.rotation_state : Nat := 0x710004
/-- `rotation_counts` 0x7100.05. -/
abbrev Ob.rotation_counts : Nat := 0x710005
/-- `tile_last_test` 0x7100.06. -/
abbrev Ob.tile_last_test : Nat := 0x710006
/-- `shadow_fraction` 0x7200.01. -/
abbrev Ob.shadow_fraction : Nat := 0x720001
/-- `shadow_rate` 0x7200.02. -/
abbrev Ob.shadow_rate : Nat := 0x720002
/-- `shadow_counts` 0x7200.03. -/
abbrev Ob.shadow_counts : Nat := 0x720003
/-- `errlog_next` 0x7300.01. -/
abbrev Ob.errlog_next : Nat := 0x730001
/-- `errlog_base` 0x7300.02. -/
abbrev Ob.errlog_base : Nat := 0x730002
/-- `errlog_window` 0x7300.03. -/
abbrev Ob.errlog_window : Nat := 0x730003
/-- `errlog_lost` 0x7300.04. -/
abbrev Ob.errlog_lost : Nat := 0x730004
/-- `errlog_push` 0x7300.05. -/
abbrev Ob.errlog_push : Nat := 0x730005
/-- `errlog_coalesce` 0x7300.06. -/
abbrev Ob.errlog_coalesce : Nat := 0x730006
/-- `link_retries` 0x7600.01. -/
abbrev Ob.link_retries : Nat := 0x760001
/-- `link_retry_limit` 0x7600.02. -/
abbrev Ob.link_retry_limit : Nat := 0x760002
/-- `ecc_corrected` 0x7600.03. -/
abbrev Ob.ecc_corrected : Nat := 0x760003
/-- `ecc_uncorrectable` 0x7600.04. -/
abbrev Ob.ecc_uncorrectable : Nat := 0x760004
/-- `eol_date` 0x7000.01. -/
abbrev Ob.eol_date : Nat := 0x700001
/-- `heath_reserve` 0x7000.02. -/
abbrev Ob.heath_reserve : Nat := 0x700002
/-- `health_summary` 0x7000.03. -/
abbrev Ob.health_summary : Nat := 0x700003
/-- `margin` 0x7400.01. -/
abbrev Ob.margin : Nat := 0x740001
/-- `margin_warn` 0x7400.02. -/
abbrev Ob.margin_warn : Nat := 0x740002
/-- `margin_retire` 0x7400.03. -/
abbrev Ob.margin_retire : Nat := 0x740003
/-- `margin_eta` 0x7400.04. -/
abbrev Ob.margin_eta : Nat := 0x740004
/-- `reset_request` 0x2200.01. -/
abbrev Ob.reset_request : Nat := 0x220001
/-- `reset_status` 0x2200.02. -/
abbrev Ob.reset_status : Nat := 0x220002
/-- `reset_counts` 0x2200.03. -/
abbrev Ob.reset_counts : Nat := 0x220003
/-- `step_timeout` 0x9210.01. -/
abbrev Ob.step_timeout : Nat := 0x921001
/-- `hang_action` 0x9210.02. -/
abbrev Ob.hang_action : Nat := 0x921002
/-- `dump_command` 0x7800.01. -/
abbrev Ob.dump_command : Nat := 0x780001
/-- `dump_auto` 0x7800.02. -/
abbrev Ob.dump_auto : Nat := 0x780002
/-- `dump_index` 0x7800.03. -/
abbrev Ob.dump_index : Nat := 0x780003
/-- `dump_select` 0x7800.04. -/
abbrev Ob.dump_select : Nat := 0x780004
/-- `dump_window` 0x7800.05. -/
abbrev Ob.dump_window : Nat := 0x780005
/-- `dump_unprotect` 0x7800.06. -/
abbrev Ob.dump_unprotect : Nat := 0x780006
/-- `job_image_addr` 0x9200.01. -/
abbrev Ob.job_image_addr : Nat := 0x920001
/-- `job_image_len` 0x9200.02. -/
abbrev Ob.job_image_len : Nat := 0x920002
/-- `job_number` 0x9200.03. -/
abbrev Ob.job_number : Nat := 0x920003
/-- `job_command` 0x9200.04. -/
abbrev Ob.job_command : Nat := 0x920004
/-- `job_state` 0x9200.05. -/
abbrev Ob.job_state : Nat := 0x920005
/-- `fault_policy` 0x9200.06. -/
abbrev Ob.fault_policy : Nat := 0x920006
/-- `fault_pending` 0x9200.07. -/
abbrev Ob.fault_pending : Nat := 0x920007
/-- `region_table` 0x9220.01. -/
abbrev Ob.region_table : Nat := 0x922001
/-- `rq_mode` 0x9300.01. -/
abbrev Ob.rq_mode : Nat := 0x930001
/-- `rq_meadow` 0x9300.02. -/
abbrev Ob.rq_meadow : Nat := 0x930002
/-- `rq_record_base` 0x9300.03. -/
abbrev Ob.rq_record_base : Nat := 0x930003
/-- `rq_payload_base` 0x9300.04. -/
abbrev Ob.rq_payload_base : Nat := 0x930004
/-- `rq_entries` 0x9300.05. -/
abbrev Ob.rq_entries : Nat := 0x930005
/-- `rq_slot_size` 0x9300.06. -/
abbrev Ob.rq_slot_size : Nat := 0x930006
/-- `rq_vector` 0x9300.07. -/
abbrev Ob.rq_vector : Nat := 0x930007
/-- `rq_counts` 0x9300.08. -/
abbrev Ob.rq_counts : Nat := 0x930008
/-- `rq_stream_next` 0x9300.09. -/
abbrev Ob.rq_stream_next : Nat := 0x930009
/-- `doorbell_target` 0x9400.01. -/
abbrev Ob.doorbell_target : Nat := 0x940001
/-- `doorbell_expiry` 0x9400.02. -/
abbrev Ob.doorbell_expiry : Nat := 0x940002
/-- `doorbell_pending` 0x9400.03. -/
abbrev Ob.doorbell_pending : Nat := 0x940003
/-- `bar2_offset` 0x9500.01. -/
abbrev Ob.bar2_offset : Nat := 0x950001
/-- `bar2_length` 0x9500.02. -/
abbrev Ob.bar2_length : Nat := 0x950002
/-- `bar2_base` 0x9500.03. -/
abbrev Ob.bar2_base : Nat := 0x950003
/-- `bar2_perm` 0x9500.04. -/
abbrev Ob.bar2_perm : Nat := 0x950004
/-- `bar2_refused` 0x9500.05. -/
abbrev Ob.bar2_refused : Nat := 0x950005
/-- `bar2_meadow` 0x9500.06. -/
abbrev Ob.bar2_meadow : Nat := 0x950006
/-- `module_state` 0x4000.01. -/
abbrev Ob.module_state : Nat := 0x400001
/-- `module_state_request` 0x4000.02. -/
abbrev Ob.module_state_request : Nat := 0x400002
/-- `power_limit` 0x4001.01. -/
abbrev Ob.power_limit : Nat := 0x400101
/-- `input_power` 0x4001.02. -/
abbrev Ob.input_power : Nat := 0x400102
/-- `die_clock` 0x4001.03. -/
abbrev Ob.die_clock : Nat := 0x400103
/-- `clock_max` 0x4001.04. -/
abbrev Ob.clock_max : Nat := 0x400104
/-- `die_temp` 0x4002.01. -/
abbrev Ob.die_temp : Nat := 0x400201
/-- `temp_target` 0x4002.02. -/
abbrev Ob.temp_target : Nat := 0x400202
/-- `throttle_state` 0x4002.03. -/
abbrev Ob.throttle_state : Nat := 0x400203
/-- `meadow_power_cmd` 0x4100.01. -/
abbrev Ob.meadow_power_cmd : Nat := 0x410001
/-- `meadow_power_status` 0x4100.02. -/
abbrev Ob.meadow_power_status : Nat := 0x410002
/-- `power_refusals` 0x4200.01. -/
abbrev Ob.power_refusals : Nat := 0x420001
/-- `power_aborts` 0x4200.02. -/
abbrev Ob.power_aborts : Nat := 0x420002
/-- `meadow_power_weight` 0x4300.01. -/
abbrev Ob.meadow_power_weight : Nat := 0x430001
/-- `meadow_power_cap` 0x4300.02. -/
abbrev Ob.meadow_power_cap : Nat := 0x430002
/-- `credit_capacity` 0x4300.03. -/
abbrev Ob.credit_capacity : Nat := 0x430003
/-- `credit_granted` 0x4300.04. -/
abbrev Ob.credit_granted : Nat := 0x430004
/-- `upd_state` 0xA000.01. -/
abbrev Ob.upd_state : Nat := 0xA00001
/-- `upd_status` 0xA000.02. -/
abbrev Ob.upd_status : Nat := 0xA00002
/-- `boot_record` 0xA000.03. -/
abbrev Ob.boot_record : Nat := 0xA00003
/-- `rec_length` 0xA010.01. -/
abbrev Ob.rec_length : Nat := 0xA01001
/-- `rec_chunk` 0xA010.02. -/
abbrev Ob.rec_chunk : Nat := 0xA01002
/-- `rec_command` 0xA010.03. -/
abbrev Ob.rec_command : Nat := 0xA01003
/-- `upd_command` 0xA100.01. -/
abbrev Ob.upd_command : Nat := 0xA10001
/-- `upd_host_addr` 0xA100.02. -/
abbrev Ob.upd_host_addr : Nat := 0xA10002
/-- `upd_length` 0xA100.03. -/
abbrev Ob.upd_length : Nat := 0xA10003
/-- `upd_base` 0xA100.04. -/
abbrev Ob.upd_base : Nat := 0xA10004
/-- `upd_chunk` 0xA100.05. -/
abbrev Ob.upd_chunk : Nat := 0xA10005

/-- Part 1 of the catalogue. -/
def catalogue0 : List ObjInfo := [
  ⟨Ob.part_number, 0x09, 16, 0, 2, 0, 0, 0, (2 ^ 128 - 1)⟩,
  ⟨Ob.variant, 0x02, 1, 0, 2, 0, 0, 0, 255⟩,
  ⟨Ob.serial, 0x09, 16, 0, 2, 0, 0, 0, (2 ^ 128 - 1)⟩,
  ⟨Ob.die_revision, 0x83, 2, 0, 2, 0, 6, 0, 65535⟩,
  ⟨Ob.fused_ports, 0x04, 4, 0, 2, 0, 0, 0, 4294967295⟩,
  ⟨Ob.fused_resources, 0x0B, 8, 0, 2, 0, 0, 0, 18446744073709551615⟩,
  ⟨Ob.iana_enterprise, 0x04, 4, 0, 2, 0, 0, 0, 4294967295⟩,
  ⟨Ob.fw_version, 0x84, 4, 0, 0, 0, 5, 0, 4294967295⟩,
  ⟨Ob.dict_format, 0x03, 2, 0, 0, 1, 0, 0, 65535⟩,
  ⟨Ob.security_version, 0x02, 1, 0, 2, 0, 0, 0, 255⟩,
  ⟨Ob.slot_id_strap, 0x02, 1, 0, 0, 0, 0, 0, 255⟩,
  ⟨Ob.dict_state, 0x02, 1, 0, 0, 0, 0, 0, 255⟩,
  ⟨Ob.dict_last_error, 0x0B, 16, 0, 0, 0, 0, 0, (2 ^ 128 - 1)⟩,
  ⟨Ob.dict_errors, 0x85, 8, 0, 0, 0, 4, 0, 18446744073709551615⟩,
  ⟨Ob.settings_erase, 0x04, 4, 2, 0, 0, 0, 0, 4294967295⟩,
  ⟨Ob.settings_pending, 0x01, 1, 0, 0, 0, 0, 0, 255⟩,
  ⟨Ob.alert_cause, 0x04, 4, 3, 0, 0, 0, 0, 4294967295⟩,
  ⟨Ob.alert_mask, 0x04, 4, 1, 1, 31, 0, 0, 4294967295⟩,
  ⟨Ob.fm_root_hash, 0x0A, 48, 1, 1, 0, 0, 0, (2 ^ 384 - 1)⟩,
  ⟨Ob.fm_session_idle, 0x04, 4, 1, 1, 60000, 0, 1000, 3600000⟩,
  ⟨Ob.bringup_stage, 0x02, 1, 0, 0, 0, 0, 0, 255⟩,
  ⟨Ob.bringup_command, 0x02, 1, 2, 0, 0, 0, 0, 255⟩,
  ⟨Ob.bringup_status, 0x0B, 32, 0, 0, 0, 0, 0, (2 ^ 256 - 1)⟩,
  ⟨Ob.start_test_mode, 0x02, 1, 1, 1, 0, 0, 0, 1⟩]

/-- Part 2 of the catalogue. -/
def catalogue1 : List ObjInfo := [
  ⟨Ob.full_test_interval, 0x04, 4, 1, 1, 168, 0, 1, 8760⟩,
  ⟨Ob.start_test_result, 0x0B, 32, 0, 0, 0, 0, 0, (2 ^ 256 - 1)⟩,
  ⟨Ob.strap_strict, 0x01, 1, 0, 0, 0, 0, 0, 255⟩,
  ⟨Ob.commission_state, 0x02, 1, 0, 0, 0, 0, 0, 255⟩,
  ⟨Ob.commission_slot, 0x02, 1, 0, 1, 255, 0, 0, 255⟩,
  ⟨Ob.commission, 0x02, 1, 2, 0, 0, 0, 0, 255⟩,
  ⟨Ob.reset_request, 0x0B, 8, 2, 0, 0, 0, 0, 18446744073709551615⟩,
  ⟨Ob.reset_status, 0x0B, 32, 0, 0, 0, 0, 0, (2 ^ 256 - 1)⟩,
  ⟨Ob.reset_counts, 0x85, 8, 0, 0, 0, 6, 0, 18446744073709551615⟩,
  ⟨Ob.map, 0x83, 2, 4, 1, 0, 4096, 0, 65535⟩,
  ⟨Ob.map_proposed, 0x83, 2, 0, 0, 65535, 4096, 0, 65535⟩,
  ⟨Ob.map_detour, 0x02, 1, 4, 1, 4, 0, 0, 6⟩,
  ⟨Ob.map_state, 0x02, 1, 0, 0, 0, 0, 0, 255⟩,
  ⟨Ob.map_adopt, 0x01, 1, 2, 0, 0, 0, 0, 255⟩,
  ⟨Ob.map_unplaced, 0x03, 2, 0, 0, 0, 0, 0, 65535⟩,
  ⟨Ob.defect_count, 0x04, 4, 0, 1, 0, 0, 0, 4294967295⟩,
  ⟨Ob.defect_list, 0x8B, 32, 0, 1, 0, 8192, 0, (2 ^ 256 - 1)⟩,
  ⟨Ob.heath_count, 0x03, 2, 0, 0, 0, 0, 0, 65535⟩,
  ⟨Ob.tile_status, 0x82, 1, 0, 0, 0, 4608, 0, 255⟩,
  ⟨Ob.fuse_budget, 0x83, 2, 0, 2, 0, 4, 0, 65535⟩,
  ⟨Ob.fuse_burn, 0x02, 1, 2, 0, 0, 0, 0, 255⟩,
  ⟨Ob.fuse_pending, 0x04, 4, 0, 0, 0, 0, 0, 4294967295⟩,
  ⟨Ob.tile_meadow, 0x83, 2, 4, 1, 65535, 4096, 0, 65535⟩,
  ⟨Ob.meadow_tiles, 0x83, 2, 0, 0, 0, 256, 0, 65535⟩]

/-- Part 3 of the catalogue. -/
def catalogue2 : List ObjInfo := [
  ⟨Ob.meadow_strict, 0x81, 1, 4, 1, 0, 256, 0, 255⟩,
  ⟨Ob.spread_base, 0x84, 4, 4, 1, 0, 256, 0, 4294967295⟩,
  ⟨Ob.spread_granules, 0x83, 2, 4, 1, 0, 256, 0, 65535⟩,
  ⟨Ob.spread_seed, 0x85, 8, 4, 1, 0, 256, 0, 18446744073709551615⟩,
  ⟨Ob.module_state, 0x02, 1, 0, 0, 0, 0, 0, 255⟩,
  ⟨Ob.module_state_request, 0x02, 1, 1, 0, 0, 0, 0, 255⟩,
  ⟨Ob.power_limit, 0x04, 4, 1, 1, 1250, 0, 300, 1250⟩,
  ⟨Ob.input_power, 0x04, 4, 0, 0, 0, 0, 0, 4294967295⟩,
  ⟨Ob.die_clock, 0x83, 2, 0, 0, 0, 4, 0, 65535⟩,
  ⟨Ob.clock_max, 0x83, 2, 1, 1, 1500, 4, 600, 1500⟩,
  ⟨Ob.die_temp, 0x83, 2, 0, 0, 0, 6, 0, 65535⟩,
  ⟨Ob.temp_target, 0x02, 1, 1, 1, 90, 0, 70, 94⟩,
  ⟨Ob.throttle_state, 0x82, 1, 0, 0, 0, 6, 0, 255⟩,
  ⟨Ob.meadow_power_cmd, 0x0B, 8, 2, 0, 0, 0, 0, 18446744073709551615⟩,
  ⟨Ob.meadow_power_status, 0x82, 1, 0, 0, 0, 256, 0, 255⟩,
  ⟨Ob.power_refusals, 0x8B, 32, 0, 0, 0, 4096, 0, (2 ^ 256 - 1)⟩,
  ⟨Ob.power_aborts, 0x8B, 8, 0, 0, 0, 4096, 0, 18446744073709551615⟩,
  ⟨Ob.meadow_power_weight, 0x82, 1, 4, 1, 1, 256, 1, 255⟩,
  ⟨Ob.meadow_power_cap, 0x84, 4, 4, 1, 0, 256, 0, 4294967295⟩,
  ⟨Ob.credit_capacity, 0x83, 2, 4, 1, 32768, 256, 1024, 65535⟩,
  ⟨Ob.credit_granted, 0x85, 8, 0, 0, 0, 256, 0, 18446744073709551615⟩,
  ⟨Ob.route_epoch, 0x02, 1, 0, 0, 0, 0, 0, 255⟩,
  ⟨Ob.route_epoch_count, 0x05, 8, 0, 0, 0, 0, 0, 18446744073709551615⟩,
  ⟨Ob.epoch_retire_limit, 0x04, 4, 4, 1, 10000, 0, 100, 10000000⟩]

/-- Part 4 of the catalogue. -/
def catalogue3 : List ObjInfo := [
  ⟨Ob.link_fence, 0x82, 1, 4, 1, 0, 4608, 0, 15⟩,
  ⟨Ob.two_phase, 0x81, 1, 4, 1, 1, 256, 0, 255⟩,
  ⟨Ob.escape_wait, 0x03, 2, 4, 1, 32, 0, 4, 1024⟩,
  ⟨Ob.stall_limit, 0x04, 4, 4, 1, 1000, 0, 10, 1000000⟩,
  ⟨Ob.stall_reports, 0x85, 8, 0, 0, 0, 6, 0, 18446744073709551615⟩,
  ⟨Ob.sluice_tile_rate, 0x84, 4, 4, 1, 3000, 256, 100, 96000⟩,
  ⟨Ob.sluice_tile_burst, 0x84, 4, 4, 1, 16384, 256, 4160, 1048576⟩,
  ⟨Ob.sluice_meadow_rate, 0x84, 4, 4, 1, 0, 256, 0, 4294967295⟩,
  ⟨Ob.sluice_meadow_burst, 0x84, 4, 4, 1, 0, 256, 0, 4294967295⟩,
  ⟨Ob.sluice_egress_w, 0x84, 4, 4, 1, 1600000, 256, 0, 4294967295⟩,
  ⟨Ob.sluice_egress_e, 0x84, 4, 4, 1, 1600000, 256, 0, 4294967295⟩,
  ⟨Ob.sluice_egress_burst, 0x84, 4, 4, 1, 262144, 256, 0, 4294967295⟩,
  ⟨Ob.sluice_wait, 0x85, 8, 0, 0, 0, 256, 0, 18446744073709551615⟩,
  ⟨Ob.pkt_flits0, 0x85, 8, 0, 0, 0, 23040, 0, 18446744073709551615⟩,
  ⟨Ob.pkt_flits1, 0x85, 8, 0, 0, 0, 23040, 0, 18446744073709551615⟩,
  ⟨Ob.pkt_flits2, 0x85, 8, 0, 0, 0, 23040, 0, 18446744073709551615⟩,
  ⟨Ob.pkt_flits3, 0x85, 8, 0, 0, 0, 23040, 0, 18446744073709551615⟩,
  ⟨Ob.pkt_flits4, 0x85, 8, 0, 0, 0, 23040, 0, 18446744073709551615⟩,
  ⟨Ob.pkt_flits5, 0x85, 8, 0, 0, 0, 23040, 0, 18446744073709551615⟩,
  ⟨Ob.pkt_depth0, 0x8B, 32, 0, 0, 0, 23040, 0, (2 ^ 256 - 1)⟩,
  ⟨Ob.pkt_depth1, 0x8B, 32, 0, 0, 0, 23040, 0, (2 ^ 256 - 1)⟩,
  ⟨Ob.pkt_depth2, 0x8B, 32, 0, 0, 0, 23040, 0, (2 ^ 256 - 1)⟩,
  ⟨Ob.pkt_depth3, 0x8B, 32, 0, 0, 0, 23040, 0, (2 ^ 256 - 1)⟩,
  ⟨Ob.pkt_depth4, 0x8B, 32, 0, 0, 0, 23040, 0, (2 ^ 256 - 1)⟩]

/-- Part 5 of the catalogue. -/
def catalogue4 : List ObjInfo := [
  ⟨Ob.pkt_depth5, 0x8B, 32, 0, 0, 0, 23040, 0, (2 ^ 256 - 1)⟩,
  ⟨Ob.pkt_stall0, 0x85, 8, 0, 0, 0, 23040, 0, 18446744073709551615⟩,
  ⟨Ob.pkt_stall1, 0x85, 8, 0, 0, 0, 23040, 0, 18446744073709551615⟩,
  ⟨Ob.pkt_stall2, 0x85, 8, 0, 0, 0, 23040, 0, 18446744073709551615⟩,
  ⟨Ob.pkt_stall3, 0x85, 8, 0, 0, 0, 23040, 0, 18446744073709551615⟩,
  ⟨Ob.pkt_stall4, 0x85, 8, 0, 0, 0, 23040, 0, 18446744073709551615⟩,
  ⟨Ob.pkt_stall5, 0x85, 8, 0, 0, 0, 23040, 0, 18446744073709551615⟩,
  ⟨Ob.pkt_escape0, 0x85, 8, 0, 0, 0, 23040, 0, 18446744073709551615⟩,
  ⟨Ob.pkt_escape1, 0x85, 8, 0, 0, 0, 23040, 0, 18446744073709551615⟩,
  ⟨Ob.pkt_escape2, 0x85, 8, 0, 0, 0, 23040, 0, 18446744073709551615⟩,
  ⟨Ob.pkt_escape3, 0x85, 8, 0, 0, 0, 23040, 0, 18446744073709551615⟩,
  ⟨Ob.pkt_escape4, 0x85, 8, 0, 0, 0, 23040, 0, 18446744073709551615⟩,
  ⟨Ob.pkt_escape5, 0x85, 8, 0, 0, 0, 23040, 0, 18446744073709551615⟩,
  ⟨Ob.reduce_lost, 0x85, 8, 0, 0, 0, 2, 0, 18446744073709551615⟩,
  ⟨Ob.reduce_overcount, 0x85, 8, 0, 0, 0, 2, 0, 18446744073709551615⟩,
  ⟨Ob.stream_laggard, 0x85, 8, 0, 0, 0, 4096, 0, 18446744073709551615⟩,
  ⟨Ob.stream_stall, 0x85, 8, 0, 0, 0, 4096, 0, 18446744073709551615⟩,
  ⟨Ob.steer_discard, 0x84, 4, 0, 0, 0, 4096, 0, 4294967295⟩,
  ⟨Ob.flush_discard, 0x85, 8, 0, 0, 0, 4096, 0, 18446744073709551615⟩,
  ⟨Ob.drain_timeout, 0x04, 4, 4, 1, 200, 0, 10, 1000000⟩,
  ⟨Ob.port_mode, 0x82, 1, 4, 1, 0, 32, 0, 3⟩,
  ⟨Ob.port_state, 0x82, 1, 0, 0, 0, 256, 0, 255⟩,
  ⟨Ob.port_lane_fail, 0x82, 1, 0, 0, 0, 32, 0, 255⟩,
  ⟨Ob.port_mac, 0x85, 8, 0, 2, 0, 256, 0, 18446744073709551615⟩]

/-- Part 6 of the catalogue. -/
def catalogue5 : List ObjInfo := [
  ⟨Ob.port_ipv6, 0x8A, 16, 4, 1, 0, 256, 0, (2 ^ 128 - 1)⟩,
  ⟨Ob.port_ipv4, 0x84, 4, 4, 1, 0, 256, 0, 4294967295⟩,
  ⟨Ob.port_gateway, 0x8A, 16, 4, 1, 0, 256, 0, (2 ^ 128 - 1)⟩,
  ⟨Ob.port_dscp, 0x02, 1, 4, 1, 0, 0, 0, 63⟩,
  ⟨Ob.port_vlan, 0x83, 2, 4, 1, 0, 256, 0, 32767⟩,
  ⟨Ob.port_counts, 0x8B, 80, 0, 0, 0, 256, 0, (2 ^ 640 - 1)⟩,
  ⟨Ob.lldp_neighbour, 0x8A, 1504, 0, 0, 0, 256, 0, (2 ^ 12032 - 1)⟩,
  ⟨Ob.role_id, 0x83, 2, 4, 0, 65535, 256, 0, 65535⟩,
  ⟨Ob.role_epoch, 0x83, 2, 4, 0, 0, 256, 0, 65535⟩,
  ⟨Ob.peer_endpoint, 0x84, 4, 4, 0, 4294967295, 4096, 0, 4294967295⟩,
  ⟨Ob.peer_home, 0x82, 1, 4, 0, 0, 4096, 0, 1⟩,
  ⟨Ob.peer_addr, 0x8A, 256, 4, 0, 0, 4096, 0, (2 ^ 2048 - 1)⟩,
  ⟨Ob.peer_perm, 0x82, 1, 4, 0, 0, 4096, 0, 3⟩,
  ⟨Ob.peer_state, 0x82, 1, 0, 0, 0, 4096, 0, 255⟩,
  ⟨Ob.peer_counts, 0x8B, 296, 0, 0, 0, 4096, 0, (2 ^ 2368 - 1)⟩,
  ⟨Ob.win_kind, 0x82, 1, 4, 0, 0, 4096, 0, 2⟩,
  ⟨Ob.win_meadow, 0x82, 1, 4, 0, 0, 4096, 0, 255⟩,
  ⟨Ob.win_base, 0x85, 8, 4, 0, 0, 4096, 0, 18446744073709551615⟩,
  ⟨Ob.win_length, 0x85, 8, 4, 0, 0, 4096, 0, 1099511627776⟩,
  ⟨Ob.win_perm, 0x82, 1, 4, 0, 0, 4096, 0, 7⟩,
  ⟨Ob.win_peers, 0x8A, 512, 4, 0, 0, 4096, 0, (2 ^ 4096 - 1)⟩,
  ⟨Ob.win_remote, 0x84, 4, 4, 0, 0, 4096, 0, 268435455⟩,
  ⟨Ob.win_notify, 0x84, 4, 4, 0, 0, 4096, 0, 131071⟩,
  ⟨Ob.win_gen, 0x82, 1, 0, 0, 0, 4096, 0, 255⟩]

/-- Part 7 of the catalogue. -/
def catalogue6 : List ObjInfo := [
  ⟨Ob.win_state, 0x82, 1, 0, 0, 0, 4096, 0, 255⟩,
  ⟨Ob.rto_base, 0x04, 4, 4, 1, 20, 0, 5, 1000⟩,
  ⟨Ob.rto_max, 0x04, 4, 4, 1, 640, 0, 5, 100000⟩,
  ⟨Ob.retry_limit, 0x02, 1, 4, 1, 8, 0, 1, 32⟩,
  ⟨Ob.send_expiry, 0x04, 4, 4, 1, 50, 0, 1, 2044⟩,
  ⟨Ob.group_timeout, 0x04, 4, 4, 1, 10000, 0, 100, 10000000⟩,
  ⟨Ob.hello_period, 0x04, 4, 4, 1, 10000, 0, 1000, 1000000⟩,
  ⟨Ob.fence_role, 0x84, 4, 1, 1, 4294967295, 256, 0, 4294967295⟩,
  ⟨Ob.port_fence, 0x04, 4, 1, 1, 0, 0, 0, 4294967295⟩,
  ⟨Ob.fence_drops, 0x85, 8, 0, 0, 0, 256, 0, 18446744073709551615⟩,
  ⟨Ob.ptp_port, 0x83, 2, 4, 1, 65535, 2, 0, 65535⟩,
  ⟨Ob.ptp_domain, 0x02, 1, 4, 1, 0, 0, 0, 255⟩,
  ⟨Ob.ptp_transport, 0x02, 1, 4, 1, 0, 0, 0, 2⟩,
  ⟨Ob.ptp_status, 0x0B, 32, 0, 0, 0, 0, 0, (2 ^ 256 - 1)⟩,
  ⟨Ob.eol_date, 0x05, 8, 0, 0, 0, 0, 0, 18446744073709551615⟩,
  ⟨Ob.heath_reserve, 0x03, 2, 1, 1, 64, 0, 1, 383⟩,
  ⟨Ob.health_summary, 0x0B, 32, 0, 0, 0, 0, 0, (2 ^ 256 - 1)⟩,
  ⟨Ob.rotation_enable, 0x01, 1, 1, 1, 0, 0, 0, 255⟩,
  ⟨Ob.rotation_slot, 0x04, 4, 1, 1, 15000, 0, 1000, 3600000⟩,
  ⟨Ob.rotation_width, 0x02, 1, 1, 1, 8, 0, 1, 8⟩,
  ⟨Ob.rotation_state, 0x8B, 32, 0, 0, 0, 8, 0, (2 ^ 256 - 1)⟩,
  ⟨Ob.rotation_counts, 0x0B, 64, 0, 0, 0, 0, 0, (2 ^ 512 - 1)⟩,
  ⟨Ob.tile_last_test, 0x85, 8, 0, 0, 0, 4608, 0, 18446744073709551615⟩,
  ⟨Ob.shadow_fraction, 0x83, 2, 1, 1, 0, 256, 0, 65535⟩]

/-- Part 8 of the catalogue. -/
def catalogue7 : List ObjInfo := [
  ⟨Ob.shadow_rate, 0x04, 4, 1, 1, 1000, 0, 100, 1500⟩,
  ⟨Ob.shadow_counts, 0x0B, 48, 0, 0, 0, 0, 0, (2 ^ 384 - 1)⟩,
  ⟨Ob.errlog_next, 0x05, 8, 0, 1, 0, 0, 0, 18446744073709551615⟩,
  ⟨Ob.errlog_base, 0x05, 8, 1, 0, 0, 0, 0, 18446744073709551615⟩,
  ⟨Ob.errlog_window, 0x8B, 64, 0, 1, 0, 65536, 0, (2 ^ 512 - 1)⟩,
  ⟨Ob.errlog_lost, 0x0B, 24, 0, 0, 0, 0, 0, (2 ^ 192 - 1)⟩,
  ⟨Ob.errlog_push, 0x05, 8, 1, 1, 0, 0, 0, 18446744073709551615⟩,
  ⟨Ob.errlog_coalesce, 0x04, 4, 1, 1, 1000, 0, 100, 1000000⟩,
  ⟨Ob.margin, 0x83, 2, 0, 0, 0, 4608, 0, 65535⟩,
  ⟨Ob.margin_warn, 0x03, 2, 1, 1, 40, 0, 6, 200⟩,
  ⟨Ob.margin_retire, 0x03, 2, 1, 1, 20, 0, 5, 100⟩,
  ⟨Ob.margin_eta, 0x85, 8, 0, 0, 0, 4608, 0, 18446744073709551615⟩,
  ⟨Ob.pattern_info, 0x0B, 32, 0, 0, 0, 0, 0, (2 ^ 256 - 1)⟩,
  ⟨Ob.fleet_budget, 0x04, 4, 1, 1, 2000, 0, 0, 10000⟩,
  ⟨Ob.fleet_failures, 0x84, 4, 0, 0, 0, 65536, 0, 4294967295⟩,
  ⟨Ob.link_retries, 0x85, 8, 0, 0, 0, 18432, 0, 18446744073709551615⟩,
  ⟨Ob.link_retry_limit, 0x04, 4, 1, 1, 1000, 0, 10, 1000000⟩,
  ⟨Ob.ecc_corrected, 0x85, 8, 0, 0, 0, 4608, 0, 18446744073709551615⟩,
  ⟨Ob.ecc_uncorrectable, 0x85, 8, 0, 0, 0, 4608, 0, 18446744073709551615⟩,
  ⟨Ob.dump_command, 0x0B, 8, 2, 0, 0, 0, 0, 18446744073709551615⟩,
  ⟨Ob.dump_auto, 0x81, 1, 1, 1, 0, 256, 0, 255⟩,
  ⟨Ob.dump_index, 0x8B, 32, 0, 1, 0, 8, 0, (2 ^ 256 - 1)⟩,
  ⟨Ob.dump_select, 0x04, 4, 1, 0, 0, 0, 0, 4294967295⟩,
  ⟨Ob.dump_window, 0x8A, 2048, 0, 1, 0, 65536, 0, (2 ^ 16384 - 1)⟩]

/-- Part 9 of the catalogue. -/
def catalogue8 : List ObjInfo := [
  ⟨Ob.dump_unprotect, 0x02, 1, 2, 0, 0, 0, 0, 255⟩,
  ⟨Ob.txn_command, 0x02, 1, 2, 0, 0, 0, 0, 255⟩,
  ⟨Ob.txn_status, 0x8B, 32, 0, 0, 0, 5, 0, (2 ^ 256 - 1)⟩,
  ⟨Ob.txn_idle, 0x04, 4, 1, 1, 10000, 0, 100, 600000⟩,
  ⟨Ob.txn_count, 0x05, 8, 0, 0, 0, 0, 0, 18446744073709551615⟩,
  ⟨Ob.step_number, 0x85, 8, 0, 0, 0, 256, 0, 18446744073709551615⟩,
  ⟨Ob.step_group, 0x8B, 8, 4, 0, 0, 256, 0, 4294967295⟩,
  ⟨Ob.step_release, 0x8A, 256, 4, 0, 0, 256, 0, (2 ^ 2048 - 1)⟩,
  ⟨Ob.step_base, 0x85, 8, 4, 0, 0, 256, 0, 18446744073709551615⟩,
  ⟨Ob.migrate_freeze_limit, 0x04, 4, 4, 1, 1000, 0, 100, 1500⟩,
  ⟨Ob.migrate_state, 0x8B, 32, 0, 0, 0, 8, 0, (2 ^ 256 - 1)⟩,
  ⟨Ob.migrate_counts, 0x0B, 32, 0, 0, 0, 0, 0, (2 ^ 256 - 1)⟩,
  ⟨Ob.role, 0x82, 1, 4, 1, 0, 256, 0, 3⟩,
  ⟨Ob.page_size, 0x82, 1, 4, 1, 2, 256, 0, 3⟩,
  ⟨Ob.page_kv_heads, 0x82, 1, 4, 1, 8, 256, 1, 64⟩,
  ⟨Ob.page_head_width, 0x83, 2, 4, 1, 128, 256, 64, 256⟩,
  ⟨Ob.page_frames, 0x84, 4, 0, 0, 0, 256, 0, 4294967295⟩,
  ⟨Ob.page_free, 0x84, 4, 0, 0, 0, 256, 0, 4294967295⟩,
  ⟨Ob.page_counts, 0x8B, 296, 0, 0, 0, 256, 0, (2 ^ 2368 - 1)⟩,
  ⟨Ob.page_seal_timeout, 0x04, 4, 4, 1, 10000, 0, 100, 10000000⟩,
  ⟨Ob.job_image_addr, 0x85, 8, 1, 0, 0, 256, 0, 18446744073709551615⟩,
  ⟨Ob.job_image_len, 0x84, 4, 1, 0, 0, 256, 0, 4294967295⟩,
  ⟨Ob.job_number, 0x83, 2, 1, 0, 0, 256, 0, 65535⟩,
  ⟨Ob.job_command, 0x0B, 8, 2, 0, 0, 0, 0, 18446744073709551615⟩]

/-- Part 10 of the catalogue. -/
def catalogue9 : List ObjInfo := [
  ⟨Ob.job_state, 0x82, 1, 0, 0, 0, 256, 0, 255⟩,
  ⟨Ob.fault_policy, 0x82, 1, 1, 1, 0, 256, 0, 1⟩,
  ⟨Ob.fault_pending, 0x8B, 16, 0, 0, 0, 256, 0, (2 ^ 128 - 1)⟩,
  ⟨Ob.step_timeout, 0x84, 4, 1, 1, 0, 256, 0, 3600000⟩,
  ⟨Ob.hang_action, 0x82, 1, 1, 1, 0, 256, 0, 15⟩,
  ⟨Ob.region_table, 0x8B, 32, 0, 0, 0, 16384, 0, (2 ^ 256 - 1)⟩,
  ⟨Ob.rq_mode, 0x82, 1, 4, 0, 0, 64, 0, 2⟩,
  ⟨Ob.rq_meadow, 0x82, 1, 4, 0, 0, 64, 0, 255⟩,
  ⟨Ob.rq_record_base, 0x85, 8, 4, 0, 0, 64, 0, 18446744073709551615⟩,
  ⟨Ob.rq_payload_base, 0x85, 8, 4, 0, 0, 64, 0, 18446744073709551615⟩,
  ⟨Ob.rq_entries, 0x84, 4, 4, 0, 0, 64, 0, 4294967295⟩,
  ⟨Ob.rq_slot_size, 0x84, 4, 4, 0, 0, 64, 0, 4294967295⟩,
  ⟨Ob.rq_vector, 0x83, 2, 4, 0, 0, 64, 0, 127⟩,
  ⟨Ob.rq_counts, 0x8B, 32, 0, 0, 0, 64, 0, (2 ^ 256 - 1)⟩,
  ⟨Ob.rq_stream_next, 0x85, 8, 0, 0, 0, 65536, 0, 18446744073709551615⟩,
  ⟨Ob.doorbell_target, 0x84, 4, 4, 0, 0, 256, 0, 4294967295⟩,
  ⟨Ob.doorbell_expiry, 0x04, 4, 4, 1, 50, 0, 1, 2044⟩,
  ⟨Ob.doorbell_pending, 0x82, 1, 0, 0, 0, 256, 0, 255⟩,
  ⟨Ob.bar2_offset, 0x85, 8, 4, 0, 0, 64, 0, 18446744073709551615⟩,
  ⟨Ob.bar2_length, 0x85, 8, 4, 0, 0, 64, 0, 18446744073709551615⟩,
  ⟨Ob.bar2_base, 0x85, 8, 4, 0, 0, 64, 0, 18446744073709551615⟩,
  ⟨Ob.bar2_perm, 0x82, 1, 4, 0, 0, 64, 0, 3⟩,
  ⟨Ob.bar2_refused, 0x85, 8, 0, 0, 0, 2, 0, 18446744073709551615⟩,
  ⟨Ob.bar2_meadow, 0x82, 1, 4, 0, 0, 64, 0, 255⟩]

/-- Part 11 of the catalogue. -/
def catalogue10 : List ObjInfo := [
  ⟨Ob.upd_state, 0x02, 1, 0, 1, 0, 0, 0, 255⟩,
  ⟨Ob.upd_status, 0x0B, 16, 0, 1, 0, 0, 0, (2 ^ 128 - 1)⟩,
  ⟨Ob.boot_record, 0x0B, 16, 0, 1, 0, 0, 0, (2 ^ 128 - 1)⟩,
  ⟨Ob.rec_length, 0x04, 4, 1, 0, 0, 0, 0, 4294967295⟩,
  ⟨Ob.rec_chunk, 0x8A, 2048, 1, 0, 0, 14336, 0, (2 ^ 16384 - 1)⟩,
  ⟨Ob.rec_command, 0x02, 1, 1, 0, 0, 0, 0, 255⟩,
  ⟨Ob.upd_command, 0x02, 1, 2, 0, 0, 0, 0, 255⟩,
  ⟨Ob.upd_host_addr, 0x05, 8, 1, 0, 0, 0, 0, 18446744073709551615⟩,
  ⟨Ob.upd_length, 0x04, 4, 1, 0, 0, 0, 0, 4294967295⟩,
  ⟨Ob.upd_base, 0x02, 1, 1, 0, 0, 0, 0, 31⟩,
  ⟨Ob.upd_chunk, 0x8A, 2048, 2, 0, 0, 65536, 0, (2 ^ 16384 - 1)⟩]

/-- The catalogue, in order of index and subindex. -/
def catalogue : List ObjInfo := catalogue0 ++ catalogue1 ++ catalogue2 ++ catalogue3 ++ catalogue4 ++ catalogue5 ++ catalogue6 ++ catalogue7 ++ catalogue8 ++ catalogue9 ++ catalogue10

/-- The object of a key; none where no chapter defines it (R252). -/
def objInfo (key : Nat) : Option ObjInfo := catalogue.find? fun o => o.key == key

/-- Number of elements: 1 for an object that is no ARRAY. -/
def ObjInfo.elems (o : ObjInfo) : Nat := if o.count = 0 then 1 else o.count

/-- The object header word (R260). -/
def ObjInfo.header (o : ObjInfo) : Nat :=
  o.ty + fld o.acc 8 + fld o.pers 11 + fld o.size 16 + fld (if o.count = 0 then 0 else o.count - 1) 32 + fld 1 63

/-- An object whose BAR0 slot holds its value (R259, R260). -/
def ObjInfo.scalar (o : ObjInfo) : Bool := o.ty ≤ 8

end Sys2Proof.Machine
end

