-- ==== Sys2Proof/Config.lean ====
section
/-! DEFINITION. What an implementation fixes and the spec leaves open: free values. Each is an opaque constant without a
body, so that nothing can evaluate it or prove a value of it (log entry 2). A free value that is drawn anew each time is
applied to State's counter `free`. -/

namespace Sys2Proof

/-- A value of `w` bits that the spec leaves open, by its index (log entry 2). -/
opaque Config.freeBits (w : Nat) : Nat → BitVec w

/-- A number that the spec leaves open, by what it stands for and an index; the user of it bounds it (log entry 2). -/
opaque Config.freeNat : String → Nat → Nat

/-- A decision that the spec leaves open, by what it stands for and an index (log entry 2). -/
opaque Config.freeBool : String → Nat → Bool

/-- A byte of host memory that the module has neither written nor been given (log entry 4). -/
opaque Config.hostByte : Nat → Byte

/-- CRC-32 of R300 and R324; the spec names no polynomial (log entry 10). -/
opaque Config.crc32 : Bytes → BitVec 32

/-- SHA-384 (R377, R384); its arithmetic is not the spec's (log entry 10). -/
opaque Config.sha384 : Bytes → Nat

/-- Whether an ECDSA P-384 signature verifies over the header bytes and the body (R377; log entry 10). -/
opaque Config.ecdsaOk : Bytes → Bytes → Bool

/-- The image of a firmware component (0 to 4) as shipped, in either slot (R375); the manual gives none. -/
opaque Config.shipped : Nat → Bytes

/-- The version of a firmware component as shipped. -/
opaque Config.shippedVersion : Nat → Nat


/-- The graph image that a file's bytes spell, where they spell one: the manual gives it no layout (R135; log entry 9). -/
opaque Config.imageOf : Bytes → Option GraphImage

/-- The dictionary message that a secured message carries, where its tag verifies under a session's keys (R267; log entry 10). -/
opaque Config.dictOpen : Nat → Bytes → Option Bytes

/-- The secured message that carries bytes under a session's keys. -/
opaque Config.dictSeal : Nat → Bytes → Bytes

/-- What an SPDM message does (R267; log entry 10). -/
opaque Config.spdmMsg : Bytes → SpdmMsg

/-- The SPDM message that answers one, by the free counter. -/
opaque Config.spdmAnswer : Nat → Bytes

/-- What a start-up test finds whose failures the command does not bring (R293; log entry 2). -/
opaque Config.testFinds : Nat → List Failure

/-- How t_perf's word `n` shows the tile's counts of issues, stalls, switches and ECC events: the spec gives no layout
(R76; log entry 12). -/
opaque Config.perfWord : Nat → List Nat → Word

/-- Fused identity (R269): the module serial number and the STR encodings. -/
opaque Config.serial : Nat

/-- Fused: the part's IANA enterprise number (R269). -/
opaque Config.iana : Nat

/-- Fused: die revisions, elements 0 to 5 (R269). -/
opaque Config.dieRevision : Nat → Nat

/-- Fused: a sub-port's MAC address (R206). -/
opaque Config.mac : Nat → Nat

/-- Fused at manufacture: spare rows, and spare columns, of each cistern bank; the spec gives no count (R105, R295). -/
opaque Config.spareRows : Nat

/-- As `spareRows`, of columns. -/
opaque Config.spareCols : Nat

/-- The escape output (0 N, 1 E, 2 S, 3 W) that the steward computes on a mesh with fences, from the fences, the map and
the two physical ids; the spec gives the outputs of an unfenced mesh only (R169; log entry 13). -/
opaque Config.fencedEscape : List (Nat × Nat) → Nat → Nat → Fin 4

/-- As `fencedEscape`, of C3's table. -/
opaque Config.fencedC3 : List (Nat × Nat) → Nat → Nat → Fin 4

/-- Whether the steward finds a cycle of channel dependencies in the tables it derived for a fenced mesh (R169). -/
opaque Config.fencedCycle : List (Nat × Nat) → Bool

/-- What `pattern_info` shows of the pattern store of a version (R319): the patterns are not the spec's (log entry 2). -/
opaque Config.patternInfo : Nat → Nat

/-- The page program that a steward image holds: the spec does not say where (R239; log entry 32). -/
opaque Config.pageProgram : Bytes → Bytes

/-- The MAC address of a next hop on a sub-port's link: the spec does not say how the module learns it (R211; log entry 54). -/
opaque Config.nextHopMac : Nat → Nat → Nat

/-- The frame check sequence of Ethernet; its polynomial is not the spec's (R211; log entry 54). -/
opaque Config.frameCheck : Bytes → BitVec 32

/-- Bytes of a port die's storage for what it may have to send again; the spec gives no size (R219, R220; log entry 55). -/
opaque Config.sendStore : Nat

/-- Bytes of a port die's space for the data of replies from peers; the spec gives no size (R220; log entry 55). -/
opaque Config.replyStore : Nat

/-- The straight-line fit of a tile's margins and the projected crossing time (R331), from (fabric time, margin) measurements
and the limit; the rounding of the fit is not stated. -/
opaque Config.marginEta : List (Nat × Int) → Int → Nat

end Sys2Proof
end

