-- ==== Sys2Proof/Machine/TileState.lean ====
section
/-! DEFINITION. The state of one physical tile as plain data (R53, R76, R80, R109, R115, R137, R190, R363). Each field's
initial value is its value after reset (R79); where the spec states none, log entry 5 names it. -/

namespace Sys2Proof.Machine

/-- Task states (R54). -/
inductive TaskState where
  | idle | ready | running | stalled | waiting | faulted
  deriving DecidableEq, Repr

/-- What a stalled instruction waits for (R57), with what its release condition needs. -/
inductive Stall where
  | load (addr len : Nat)
  | store (addr len : Nat)
  | pump (n count : Nat)
  | send (seq : Nat) (d : Option Reg)
  | waitany (mask : Nat)
  | fold (d : Reg)
  | token (out : Nat)
  | credit (amount order : Nat)
  | barrier (b : Nat) (d : Reg)
  | release (id : Nat)
  | swap (pair : Nat)
  deriving DecidableEq, Repr

/-- A task context (R53) with its t_task, t_fault and message buffer. `credit`: the amount and the issue order of a CREDIT that has stalled
and not yet been served (R72); `parity`: its registers that hold a parity error (R75). -/
structure Task where
  regs : Tbl Word := []
  pc : BitVec 16 := 0
  state : TaskState := .idle
  prio : Nat := 0
  wdEnable : Bool := false
  wdSince : Nat := 0
  stall : Option Stall := none
  credit : Option (Nat × Nat) := none
  parity : List Nat := []
  pend : Nat := 0
  waitMask : Word := 0
  waitD : Reg := 0
  lastWell : Option Nat := none
  faultCode : Nat := 0
  faultPc : BitVec 16 := 0
  faultInstr : BitVec 32 := 0
  faultDetail : Word := 0
  msgBuf : Mem := []
  deriving DecidableEq, Repr

/-- A scoreboard entry (R64, R109): start and length in 256 B; the state last set; the posting stamp of the fill whose
abort made it Void; the posting stamps of outstanding fill and drain marks; the write groups it is bound to, with their marks'
stamps; the stamp at which it was claimed, and the latest stamp of a fill that completed without error since. -/
structure Range where
  claimed : Bool := false
  start : Nat := 0
  len : Nat := 0
  full : Bool := false
  voidAt : Option Nat := none
  fills : List Nat := []
  drains : List Nat := []
  groups : List (Nat × Nat) := []
  fillsDone : Nat := 0
  lastAbort : Nat := 0
  claimedAt : Nat := 0
  lastGood : Nat := 0
  deriving DecidableEq, Repr

/-- A word on a stream lane (R140). -/
inductive StreamWord where
  | data (v : Word)
  | token (op arg : Nat)
  | endWord (count : Nat)
  deriving DecidableEq, Repr

/-- A completion to be posted (R94, R120): the one-descriptor message, and the counter and well it names. -/
structure Completion where
  msg : Nat
  counter : Option Nat
  well : Option Nat
  deriving DecidableEq, Repr

/-- A posted pump descriptor (R115 to R119). `outstanding` are its packets not yet answered, the duplicates its writes made
among them (R345); `blockedAt` is since when marks have kept it from starting. -/
structure PumpJob where
  desc : Nat
  slot : Nat
  stamp : Nat
  dst : Nat
  dstRange : Option Nat
  srcRange : Option Nat
  started : Bool := false
  startTime : Nat := 0
  stopped : Bool := false
  drained : Bool := false
  cut : Nat := 0
  outstanding : List Nat := []
  err : Nat := 0
  nack : Nat := 0
  okBytes : Nat := 0
  blockedAt : Option Nat := none
  deriving DecidableEq, Repr

/-- A pump (R115) with its t_pump (R120). -/
structure Pump where
  ringBase : Nat := 0
  ringLen : Nat := 0
  head : Nat := 0
  tail : Nat := 0
  error : Bool := false
  lastErr : Nat := 0
  lastErrSlot : Nat := 0
  bytesMoved : Nat := 0
  sluiceWait : Nat := 0
  scoreWait : Nat := 0
  jobs : List PumpJob := []
  doneSlots : List Nat := []
  held : List Completion := []
  deriving DecidableEq, Repr

/-- A trough pair (R122, R123). -/
structure Trough where
  configured : Bool := false
  role : Bool := false
  statePair : Bool := false
  rangeA : Nat := 0
  rangeB : Nat := 0
  regionBase : Nat := 0
  regionLen : Nat := 0
  swaps : Nat := 0
  lastSwap : Option Nat := none
  deriving DecidableEq, Repr

/-- Well states (R191). -/
inductive WellState where
  | closed | opened | resetting
  deriving DecidableEq, Repr

/-- A message held in a well: its sender as WAITANY reports it and its 1 to 4 descriptors (R68, R190). -/
structure WellMsg where
  sender : Nat
  descs : List Nat
  deriving DecidableEq, Repr

/-- A well (R190, R191, R200). `reopen` says where Resetting leads (R193). -/
structure Well where
  state : WellState := .closed
  reopen : Bool := false
  binding : Nat := 0
  gen : Nat := 0
  msgs : List WellMsg := []
  placed : Nat := 0
  refused : Nat := 0
  discarded : Nat := 0
  expired : Nat := 0
  lost : Nat := 0
  lastPlaced : Nat := 0
  lastTaken : Nat := 0
  deriving DecidableEq, Repr

/-- A counter (R144). `stopped`: it has stopped at its terminal count; `reached`: it has reached it and the terminal's
effects are still to come (R145). -/
structure Counter where
  count : Nat := 0
  terminal : Nat := 0
  opcode : Nat := 0
  arg : Nat := 0
  tapMode : Nat := 0
  reload : Bool := false
  wake : Bool := false
  matchOp : Nat := 0
  tapClass : Nat := 0
  tapIndex : Nat := 0
  pending : Nat := 0
  overflow : Bool := false
  stopped : Bool := false
  reached : Bool := false
  deriving DecidableEq, Repr

/-- t_barrier[b] (R278). -/
structure TBarrier where
  enable : Bool := false
  gen : Nat := 0
  expected : Nat := 0
  arrivals : Nat := 0
  completed : Nat := 0
  deriving DecidableEq, Repr

/-- Where an operation of a unit stands (R80 to R82). -/
inductive OpPhase where
  | waiting | stalled | finished
  deriving DecidableEq, Repr

/-- The flags of an LA value, R42's flags byte. -/
structure LaFlags where
  low : Bool := false
  highPos : Bool := false
  highNeg : Bool := false
  invalid : Bool := false
  part : Bool := false
  resMis : Bool := false
  winMis : Bool := false
  deriving DecidableEq, Repr

/-- What an operation has counted (R93). -/
structure Stats where
  flags : LaFlags := {}
  low : Nat := 0
  high : Nat := 0
  invalid : Nat := 0
  residue : Nat := 0
  saturated : Nat := 0
  underflow : Nat := 0
  deriving DecidableEq, Repr

/-- An operation a unit holds (R80): its descriptors and how many its message had, where it stands, the words it has read
from its stream operands (0 A, 1 B, 2 D) and those it has still to write to its stream result; how far its work has come
(R82, R90): the output block or row it goes on with, what it has counted, the blocks or rows it has written, and the rows of its
stream result so far in `cbuf`; and once finished its status record (R93). -/
structure UnitOp where
  desc : Nat
  ext : Option Nat
  count : Nat := 1
  phase : OpPhase
  bufs : Tbl (List Nat) := []
  out : List StreamWord := []
  next : Nat := 0
  stats : Stats := {}
  doneBlocks : Nat := 0
  rows : Nat := 0
  cbuf : Mem := []
  outcome : Nat := 0
  reason : Nat := 0
  status : Nat := 0
  writeStatus : Bool := true
  shadowed : Bool := false
  finishedAt : Nat := 0
  deriving DecidableEq, Repr

/-- A tensor or vector unit (R80, R94): the executing and the waiting operation, the completion held for a full well, and
the well after which its rotation goes on. `heldStreams`: the operation of a held completion uses a stream port, and stays in flight (R82,
R153). -/
structure OpUnit where
  exec : Option UnitOp := none
  waiting : Option UnitOp := none
  held : Option Completion := none
  heldStreams : Bool := false
  lastWell : Nat := 7
  deriving DecidableEq, Repr

/-- A fold that is pending (R69, R150): its slot, whether it begins at quiet, and the task and register of the FOLD
instruction that asked for it. -/
structure FoldReq where
  slot : Nat
  atQuiet : Bool
  task : Option (Nat × Reg)
  deriving DecidableEq, Repr

/-- A steering unit's row item under way (R147): the sink it is taken from, and the output it goes to; none where it is
dropped. -/
structure RowItem where
  sink : Nat
  out : Option Nat
  deriving DecidableEq, Repr

/-- An entry that the steward has written for a logical link's lane in a tile that it passes (R136, R161): the link's lane as
8,192 × the logical tile it leaves + its output, or from 2^26 on a migration's standpipe; the lane here, the physical tile its words go to
next, and the words in its credit entries. -/
structure Relay where
  link : Nat
  lane : Nat
  next : Nat
  words : List StreamWord := []
  deriving DecidableEq, Repr

/-- The stream switch (R132 to R160). Queues are keyed: inputs by class × 32 + index; slack queues by 8 × entry number + lane
of the gang, entries numbered as in R159 (0 to 31 outputs, 32 to 39 bypass, 40 to 71 sinks); sinks by 8 × sink number + lane
of the gang. `taken` holds 128 × input key + entry for each entry of a fan-out that has taken the head beat. `laneCount`
counts the data words of a local source's lane, `sinkCount` those of a sink's; `sourcePos` and `sinkPos` are the lanes on which a source's
next word goes and a port's next word comes (R132); `sinkEnd` says what a sink has consumed: 0 nothing, 1 END_STEP, 2 DRAIN, 3 an end word;
`closed` are the result ports that have written the slot's end word (R142). `stallCycles` are an entry's fan-out stall cycles, `stallSince`
one more than the time since which it stalls (R158, R159). `via` is one more than the tile that carries an output lane's words first, where
tiles between have to (R136). `pipeOut` and `pipeIn` hold the words of packets at a standpipe's head and tail, by its entry (R160). -/
structure Stream where
  slot : Nat := 0
  folds : List FoldReq := []
  folding : Bool := false
  drainTok : Option (Nat × Nat) := none
  drainSince : Nat := 0
  stopped : List Nat := []
  inQ : Tbl (List StreamWord) := []
  slackQ : Tbl (List StreamWord) := []
  sinkQ : Tbl (List StreamWord) := []
  taken : List Nat := []
  laneCount : Tbl Nat := []
  sinkCount : Tbl Nat := []
  sinkEnd : Tbl Nat := []
  rows : Tbl (Option RowItem) := []
  sourcePos : Tbl Nat := []
  sinkPos : Tbl Nat := []
  closed : List Nat := []
  via : Tbl Nat := []
  pipeOut : Tbl (List Word) := []
  pipeIn : Tbl (List Word) := []
  stallCycles : Tbl Nat := []
  stallSince : Tbl Nat := []
  sampleBase : Tbl Nat := []
  quietSent : Bool := false
  deriving DecidableEq, Repr

/-- A WRITE_ACK held back until the write's duplicates are acknowledged (R345): the request's packet header fields that the
reply carries, and the duplicates outstanding. -/
structure OwedAck where
  request : Nat
  dups : List Nat
  deriving DecidableEq, Repr

/-- The network interface (R174 to R177, R187, R196, R229, R345); `flight` by epoch bit the packets it has injected less those it has
consumed (R187). -/
structure Ni where
  owed : List OwedAck := []
  seqs : Tbl Nat := []
  replyUsed : Nat := 0
  trackers : Nat := 0
  claim : Option Nat := none
  c4head : Option Nat := none
  dups : List Nat := []
  groupSlots : List Nat := []
  lastServed : Nat := 0
  flight : Tbl Int := []
  deriving DecidableEq, Repr

/-- Tile power states (R363). -/
inductive TPower where
  | t0 | t1 | t2 | t3
  deriving DecidableEq, Repr

/-- t_power and t_credit (R364, R373), and the tile's power state. `entering`: the depth of an entry that is under way and when its
refusal check passed (R365). A tile of no meadow stands in T3 (R312). -/
structure TilePower where
  state : TPower := .t3
  partWoken : Bool := false
  depth : Nat := 0
  source : Bool := false
  sourceNow : Bool := false
  lastDepth : Nat := 0
  lastAbort : Nat := 0
  lastRefuser : Nat := 0
  refusals : Nat := 0
  aborts : Nat := 0
  wokeDark : Bool := false
  refused : Bool := false
  entering : Option (Nat × Nat) := none
  commanded : Option Nat := none
  runSaved : Bool := false
  balance : Nat := 0
  grants : Nat := 0
  deriving DecidableEq, Repr

/-- The sluice buckets in thousandths of a byte (R124, R125). -/
structure Sluice where
  tile : Int := 0
  meadow : Int := 0
  deriving DecidableEq, Repr

/-- The sequencer's tile-wide state (R77) and the counters of t_perf and t_send_stat (R76). -/
structure Seq where
  run : Bool := false
  policy : Bool := false
  hang : Bool := false
  cur : Nat := 0
  wdPeriod : Nat := 1000
  sendDefault : Nat := 500
  timer : Nat := 0
  timerArmed : Bool := false
  creditOrder : Nat := 0
  tasks : Tbl Task := []
  sendStat : Tbl Nat := []
  issues : Nat := 0
  stalls : Nat := 0
  switches : Nat := 0
  ecc : Nat := 0
  deriving DecidableEq, Repr

/-- Where a tile's shadow assignment (the shadow's physical id) or shadowed operation stands (R320 to R323): its unit, whether the
notice has come or the shadow is abandoned, the two signatures, the descriptors, its meadow's job and step, its tag. `holdTotal` is
what the tile has lost to background work in second `holdWindow` of fabric time (R332). -/
structure Shadow where
  assigned : Option Nat := none
  outstanding : Option UnitSel := none
  noticed : Bool := false
  abandoned : Bool := false
  sig : Option (BitVec 64) := none
  sig2 : Option (BitVec 64) := none
  desc : Nat := 0
  desc2 : Option Nat := none
  job : Nat := 0
  step : Nat := 0
  tag : Nat := 0
  holdWindow : Nat := 0
  holdTotal : Nat := 0
  deriving DecidableEq, Repr

/-- Correction state of the memories (R103, R104, R75): poisoned 8 B words of the cistern and 4 B words of instruction
memory (1 or 2 bits), the words awaiting write-back, the scrub position, and per line its times of correction. -/
structure Ecc where
  cistern : Tbl Nat := []
  imem : Tbl Nat := []
  writeBack : List Nat := []
  scrubRow : Nat := 0
  lastScrub : Nat := 0
  lineTimes : Tbl (List Nat) := []
  deriving DecidableEq, Repr

/-- One physical tile. `resetUntil`: until when a D1 or D3 reset of it runs (R333, R335); `relays`: the steward's entries for links and
standpipes that pass it, which no flush or reset of a meadow touches (R136). -/
structure Tile where
  logical : Option Nat := none
  meadow : Option Nat := none
  oldLogical : Option Nat := none
  seq : Seq := {}
  ranges : Tbl Range := []
  stamp : Nat := 0
  pumps : Tbl Pump := []
  troughs : Tbl Trough := []
  wells : Tbl Well := []
  counters : Tbl Counter := []
  barriers : Tbl TBarrier := []
  tensor : OpUnit := {}
  vector : OpUnit := {}
  stream : Stream := {}
  relays : List Relay := []
  ni : Ni := {}
  power : TilePower := {}
  sluice : Sluice := {}
  ecc : Ecc := {}
  shadow : Shadow := {}
  cistern : Mem := []
  imem : Mem := []
  slots : Mem := []
  frozen : Bool := false
  resetUntil : Nat := 0
  dirty : List Nat := []
  trackDirty : Bool := false
  deriving DecidableEq, Repr

end Sys2Proof.Machine
end

