-- ==== Sys2Proof/Machine/PortState.lean ====
section
/-! DEFINITION. The state of the packet plane (R162 to R189) and of the two port dies (R183, R203 to R237, R241 to R251)
as plain data. Values not stated for reset are zero or empty (log entry 5). -/

namespace Sys2Proof.Machine

/-- Where a packet stands. `ni`: it waits in the network interface of the unit that issues it (R174). `inject`: it may leave the
interface and waits for a free flit of the input channel by which it enters the mesh (R167). `pipe`: it is on a standpipe (R160). `chan`: it stands at
input port `port` (0 N, 1 E, 2 S, 3 W, 4 local) of the router of physical tile `router`, in the adaptive or the escape
channel of its class (R167). `sink`: it has reached the consumer named by its destination. `head`: a C4 SEND at the head
of its tile's input that waits for room (R196). `owed`: a WRITE that is done and whose WRITE_ACK waits for duplicates (R345). -/
inductive Loc where
  | ni
  | inject (router port : Nat)
  | pipe
  | chan (router port : Nat) (esc : Bool)
  | sink
  | head
  | owed
  deriving DecidableEq, Repr

/-- The header flit of a packet (R163); kinds of source and destination 0 tile, 1 port die W, 2 port die E, 3 steward. -/
structure Header where
  cls : Nat := 0
  epoch : Bool := false
  phase : Bool := false
  escaped : Bool := false
  length : Nat := 0
  op : Nat := 0
  meadow : Nat := 0
  deadline : Nat := 0
  seq : Nat := 0
  dst : Nat := 0
  dstKind : Nat := 0
  src : Nat := 0
  srcKind : Nat := 0
  routeRow : Nat := 0
  routeCol : Nat := 0
  interRow : Nat := 0
  interCol : Nat := 0
  flow : Nat := 0
  status : Nat := 0
  detail : Nat := 0
  addr : Nat := 0
  arg0 : Nat := 0
  arg1 : Nat := 0
  tag : Nat := 0
  deriving DecidableEq, Repr

/-- A packet in flight: its header, its data bytes, where it stands and since when; `target` is the physical tile at whose
consumer it stands (4,608 port die W, 4,609 port die E, 4,610 steward); `deadlineFull` is the deadline D the issuer
holds (R127); `admitted` says that the sluices have charged it (R125); `reported` that a stall report was raised (R189); `order` is its
place in the order of arrival (R129); `fan` marks a copied packet and lists the outputs (4 the local one) that a copy of it still has to
leave by (R185); `blockedAt` is since when no adaptive channel has had space for it (R170), `spaceAt` since when a READ has waited for reply
space (R174); `counted` is the epoch in whose in-flight count it stands (R187); `root` the number of the request that a copy comes from;
`landing` the local offset where a read's data is to land, `want` the bytes it asked for; of a pump's write `landing` is its length. -/
structure Packet where
  h : Header := {}
  data : Bytes := []
  loc : Loc := .ni
  since : Nat := 0
  issuer : Nat := 0
  target : Nat := 0
  deadlineFull : Nat := 0
  admitted : Bool := false
  reported : Bool := false
  order : Nat := 0
  fan : Option (List Nat) := none
  blockedAt : Option Nat := none
  spaceAt : Option Nat := none
  counted : Option Bool := none
  root : Nat := 0
  landing : Nat := 0
  want : Nat := 0
  deriving DecidableEq, Repr

/-- A router (R168, R189, R328): per output port × 8 + class the flits forwarded, the stall cycles and the packets that entered an escape
channel; per input port × 8 + class the depth histogram and the occupancy with the time since which it holds; per direction the times of the
flits retried within the last second; per output × 8 + class one more than the time since which a flit has been ready and not sent, and the
classes that are to be served next; per output × 16 + class × 2 + channel (1 escape) until when a packet's tail holds the channel. -/
structure Router where
  flits : Tbl Nat := []
  stalls : Tbl Nat := []
  escapes : Tbl Nat := []
  depth : Tbl (List Nat) := []
  retries : Tbl (List Nat) := []
  occ : Tbl (Nat × Nat) := []
  waits : Tbl Nat := []
  due : List Nat := []
  tails : Tbl Nat := []
  deriving DecidableEq, Repr

/-- An entry of a reduction unit (R183, R184, R233). `vec` holds the elements covered, by element number, as their
wire words; an unlisted one has been covered by no contribution. -/
structure RedEntry where
  id : Nat
  type : Nat
  count : Nat := 0
  expected : Nat := 0
  bytes : Nat := 0
  armed : Bool := false
  invalid : Bool := false
  delivering : Bool := false
  mode : Nat := 0
  delivery : Nat := 0
  window : Nat := 0
  windowGen : Nat := 0
  remoteId : Nat := 0
  notifyTile : Nat := 0
  notifyCounter : Nat := 0
  notifyOn : Bool := false
  meadow : Nat := 0
  vec : Tbl (Option Nat) := []
  deriving DecidableEq, Repr

/-- One barrier element of a meadow's permanently armed entry (R278): its generation, the expected total its first
arrival brought, and the sum. -/
structure BarElem where
  gen : Nat := 0
  expected : Nat := 0
  sum : Nat := 0
  deriving DecidableEq, Repr

/-- A meadow's permanently armed entry at port die W (R154, R278): the quiet count and the barrier elements. -/
structure MeadowEntry where
  quiet : Nat := 0
  barriers : Tbl BarElem := []
  deriving DecidableEq, Repr

/-- A data packet sent to a peer and not yet acknowledged (R213, R215). -/
structure TxPkt where
  seq : Nat
  frame : Frame
  tries : Nat := 0
  sentAt : Nat := 0
  timeout : Nat := 0
  deriving DecidableEq, Repr

/-- What becomes of the answer to a request towards a peer (R216, R222, R228, R233, R235, R249, R282, R326). -/
inductive OutWhy where
  | access (request : Header)
  | groupControl (request : Header)
  | remoteSend (request : Header)
  | forward (redKey : Nat)
  | page (cmd : Nat) (chunk : Nat)
  | stepMsg
  | push
  deriving DecidableEq, Repr

/-- A request a port die keeps until its reply arrives or it gives up (R216): the meadow it was made for, and the bytes of reply space
that it reserves (R220). -/
structure OutReq where
  peer : Nat
  space : Nat
  seq : Nat
  op : Nat
  why : OutWhy
  group : Option Nat := none
  meadow : Nat := 256
  want : Nat := 0
  deriving DecidableEq, Repr

/-- What the receiver did with a request sequence (R217): the reply it sent, or none where it still works on it. -/
structure RxOutcome where
  space : Nat
  seq : Nat
  reply : Option Frame := none
  deriving DecidableEq, Repr

/-- One sequence space towards a peer (R213, R214). `rxDst` is the endpoint, role in [15:0] and epoch in [31:16], that the newest
packet was addressed to. -/
structure SeqSpace where
  txNext : Nat := 0
  unacked : List TxPkt := []
  rxCum : Nat := 0
  rxSet : List Nat := []
  rxSinceAck : Nat := 0
  rxFirstAt : Nat := 0
  rxCe : Bool := false
  rxSendTime : Nat := 0
  rxDst : Nat := 0xFFFF
  held : List Frame := []
  deriving DecidableEq, Repr

/-- What a port die holds of a peer (R209 to R218); `ctl` are control packets that wait for an earlier sequence (R217), `barred` the
source ports not to be used again and the times since (R218), `lastPort` that of the newest packet. -/
structure PeerSt where
  spaces : Tbl SeqSpace := []
  outcomes : List RxOutcome := []
  lastHeard : Nat := 0
  cwnd : Nat := 1048576
  cwndAt : Nat := 0
  halvedAt : Nat := 0
  addrNext : Nat := 0
  ctl : List Frame := []
  barred : List (Nat × Nat) := []
  lastPort : Nat := 0
  deriving DecidableEq, Repr

/-- An inbound write group (R229 to R231): keyed by peer and id; writes and bytes accepted; writes and bytes landed; the
tiles touched; the GROUP_COMMIT that waits for it, if any; committing: its ring phase has begun. -/
structure InGroup where
  peer : Nat
  id : Nat
  window : Nat
  writes : Nat := 0
  bytes : Nat := 0
  landed : Nat := 0
  landedBytes : Nat := 0
  tiles : List Nat := []
  commit : Option Frame := none
  committing : Bool := false
  first : Nat := 0
  deriving DecidableEq, Repr

/-- An outbound write group (R227). -/
structure OutGroup where
  window : Nat
  id : Nat
  writes : Nat := 0
  bytes : Nat := 0
  closed : Bool := false
  deriving DecidableEq, Repr

/-- Page frame states (R242). -/
inductive FrameState where
  | free | allocated | sealed
  deriving DecidableEq, Repr

/-- A frame of a page table (R241 to R246): `chunks` are the chunks whose WRITE has been accepted, `landed` those that stand in
the cistern; `pendingOps` counts READs and ATTENDs; `freeing`: a FREE waits for them. An unlisted frame is Free with generation
1. -/
structure PageFrame where
  state : FrameState := .free
  gen : Nat := 1
  peer : Nat := 0
  evictable : Bool := false
  allocAt : Nat := 0
  lastUse : Nat := 0
  chunks : List Nat := []
  landed : List Nat := []
  pendingOps : Nat := 0
  freeing : Bool := false
  deriving DecidableEq, Repr

/-- Who waits for a page request's outcome: a peer (space 0, its sequence), or the other port die's C0 packet (R244). -/
inductive PageClient where
  | peer (p seq : Nat)
  | otherDie (request : Header)
  deriving DecidableEq, Repr

/-- An ATTEND on a tile (R246, R247): its frame, the fields of R245, and the query bytes. -/
structure AttendReq where
  client : PageClient
  tile : Nat
  frame : Nat
  tokens : Nat
  head : Nat
  queries : Nat
  scale : Nat
  query : Bytes
  deriving DecidableEq, Repr

/-- The ATTENDs of a tile (R246): those the page program holds, at most 2, and those the port die queues, at most 8. -/
structure AttendQ where
  held : List AttendReq := []
  queued : List AttendReq := []
  deriving DecidableEq, Repr

/-- A page command of a tile in progress at its peer's home die (R249), keyed by the number of the pump's packet: its 64 B
record, the page's handle, the requests to the peer not yet answered, the data read or received by offset, the first reason of a
refusal, whether a page was allocated for it, the storage and reply space that its requests to come have reserved (R220), and its phase: 0 reading local data, 1 waiting for ALLOC, 2 for the requests, 3
writing results, 4 waiting for FREE after a failure, 5 writing the result record. -/
structure PageCmd where
  record : Nat
  meadow : Nat
  handle : Nat
  waiting : Nat := 0
  data : Mem := []
  failed : Nat := 0
  allocated : Bool := false
  phase : Nat := 0
  room : Nat × Nat := (0, 0)
  deriving DecidableEq, Repr

/-- Work of a port die that waits for C2 replies from the mesh: the C1 or C4 requests it has issued carry the work's number
as their tag (R174, R224). A grouped write names its group's entry and id (R229). -/
inductive DieWork where
  | inWrite (peer seq window : Nat) (group : Option (Nat × Nat))
  | inRead (peer seq meadow len : Nat)
  | inSend (peer seq meadow : Nat)
  | deliver (redKey : Nat)
  | pageWrite (client : PageClient) (meadow tile frame chunk gen : Nat)
  | pageRead (client : PageClient) (meadow tile frame : Nat)
  | forwarded (peer seq meadow op subop flags : Nat)
  | cmdRead (cmd : Nat)
  | cmdWrite (cmd : Nat)
  | bar2Write
  | bar2Read (len : Nat)
  | doorbell (d : Nat)
  | post (q : Nat)
  deriving DecidableEq, Repr

/-- Work in progress: the packets not yet answered, the lowest nonzero NACK reason and mesh status so far, whether a tile had no group
slot for a piece (R229), the bytes read (by offset), and the bytes of the inbound buffer it holds (R219). -/
structure DieJob where
  work : DieWork
  left : Nat
  reason : Nat := 0
  status : Nat := 0
  noSlot : Bool := false
  bytes : Mem := []
  total : Nat := 0
  deriving DecidableEq, Repr

/-- What the table of windows holds beyond its objects (R225): writes accepted before the close point and not finished. -/
structure WinSt where
  accepted : Nat := 0
  deriving DecidableEq, Repr

/-- A PTP clock (R237): synchronised from a master, with the timestamps of the exchange in progress and the number of requests sent. -/
structure PtpSt where
  t1 : Nat := 0
  t2 : Nat := 0
  t3 : Nat := 0
  locked : Bool := false
  asked : Nat := 0
  deriving DecidableEq, Repr

/-- One port die. `frames` are the frames it has sent, oldest first, `wires` their bytes, `others` the bytes of the other protocols'
frames; `helloAt` and `lldpAt` (by sub-port, plus one) are when hellos and LLDP frames were last sent (R207, R210); `egress` are the meadows' egress buckets in
thousandths of a byte (R126); `red` the reduction entries by key; `inUse` the bytes of the inbound buffer in use (R219); `flight` by epoch
bit the packets it has injected less those it has consumed (R187). -/
structure DieState where
  red : Tbl (Option RedEntry) := []
  meadowRed : Tbl MeadowEntry := []
  peers : Tbl PeerSt := []
  outReqs : List OutReq := []
  inGroups : Tbl (Option InGroup) := []
  outGroups : Tbl (Option OutGroup) := []
  doneGroups : List (Nat × Nat) := []
  frames : List Frame := []
  wires : List Bytes := []
  others : List Bytes := []
  helloAt : Option Nat := none
  lldpAt : Tbl Nat := []
  egress : Tbl Int := []
  inUse : Nat := 0
  jobs : Tbl (Option DieJob) := []
  nextJob : Nat := 0
  pages : Tbl PageFrame := []
  attends : Tbl AttendQ := []
  cmds : Tbl (Option PageCmd) := []
  ptp : PtpSt := {}
  windows : Tbl WinSt := []
  seqs : Tbl Nat := []
  replyUsed : Nat := 0
  trackers : Nat := 0
  claim : Option Nat := none
  flight : Tbl Int := []
  deriving DecidableEq, Repr

end Sys2Proof.Machine
end

