-- ==== Sys2Proof/Machine/StewardState.lean ====
section
/-! DEFINITION. The state of the steward and of the dictionary service as plain data (R22 to R26, R252 to R277, R284 to
R287, R300, R315 to R331). Values not stated for reset are zero or empty (log entry 5). -/

namespace Sys2Proof.Machine

/-- An error report (R324); the sequence, check and reserved fields are filled in when it is written to the log. -/
structure Report where
  kind : Nat
  count : Nat := 1
  phys : Nat := 0
  unitClass : Nat := 0
  logical : Nat := 0xFFF
  time : Nat := 0
  meadow : Nat := 0xFF
  subUnit : Nat := 0
  job : Nat := 0
  step : Nat := 0
  slot : Nat := 0
  task : Nat := 0
  opValid : Bool := false
  desc : Nat := 0xFFFF
  temp : Nat := 0
  volt : Nat := 0
  detail : Nat := 0
  tag : Nat := 0
  detail2 : Nat := 0
  deriving DecidableEq, Repr

/-- The steward's error reports (R326, R327): those on their way to it, the records it folds occurrences into with the time
of the first, and the log partition by sequence number. `held` counts the reports held during a restart. -/
structure ErrState where
  queue : List Report := []
  folding : List Report := []
  log : Tbl Nat := []
  deriving DecidableEq, Repr

/-- A transaction of one source (R271 to R277). `conflict` are the staged elements that another transaction has committed since
they were staged (R274). -/
structure Txn where
  opened : Bool := false
  committing : Bool := false
  staged : Tbl (Option Nat) := []
  lastStage : Nat := 0
  conflict : List Nat := []
  early : List Nat := []
  deriving DecidableEq, Repr

/-- Who commits: a source's transaction (0 PCIe, 1 to 4 sessions), a bring-up stage, a migration, a fence of the steward's
own (R284, R288, R328, R347). -/
inductive CommitWhy where
  | source (n : Nat)
  | stage (n : Nat)
  | migration (m : Nat)
  | fence
  | replace (meadow : Nat)
  deriving DecidableEq, Repr

/-- Where a commit stands in the sequence of R274. -/
inductive CommitStep where
  | queued | preparing | prepared | sent
  deriving DecidableEq, Repr

/-- A commit (R274 to R276): the elements it changes, its number, when it was taken up, its instant T, the elements that another commit
has changed since it was staged. -/
structure Commit where
  why : CommitWhy
  values : Tbl (Option Nat)
  step : CommitStep := .queued
  number : Nat := 0
  takenUp : Nat := 0
  instant : Nat := 0
  flip : Bool := false
  conflict : List Nat := []
  deriving DecidableEq, Repr

/-- Transactions and epochs (R186 to R188, R271 to R277). `own` are transactions of the steward that wait for a table which another
holds (R273), `holder` by table the holder: source + 1, or 6 for the steward; `collectAt` is when the counts were last collected
(R187). `noticed` are the units that have received the EPOCH
notice of the last commit sent; `missed` those that had not when its instant came, `missedFlip` that the commit flipped the epoch
bit; `lastApplied` is the number that port die W holds (R277); `oldCount` the count last collected (R187); `oldMap` are the map's elements
under the previous epoch where they differ from the committed ones, `oldFence` the fences likewise (R169); `oldLive`: that epoch is not retired. -/
structure TxnState where
  txns : Tbl Txn := []
  queue : List Commit := []
  own : List Commit := []
  current : Option Commit := none
  noticed : List Nat := []
  missed : List Nat := []
  missedFlip : Bool := false
  lastApplied : Nat := 0
  oldMap : Tbl (Option Nat) := []
  oldFence : Tbl (Option Nat) := []
  oldLive : Bool := false
  oldCount : Int := 0
  collectAt : Nat := 0
  retireSince : Nat := 0
  overdueSent : Bool := false
  holder : Tbl Nat := []
  deriving DecidableEq, Repr

/-- A migration (R284 to R287): its step (1 to 8), the logical tile, the old and the spare physical tile. -/
structure Migration where
  step : Nat := 0
  logical : Nat := 0
  oldPhys : Nat := 0
  spare : Nat := 0
  start : Nat := 0
  frozenAt : Nat := 0
  frozen : Bool := false
  sentEpoch : Bool := false
  instant : Nat := 0
  rotation : Option Nat := none
  deriving DecidableEq, Repr

/-- An SPDM session (R267): the number that stands for its keys, and the time of its last message. -/
structure SessionSt where
  opened : Bool := false
  key : Nat := 0
  lastMsg : Nat := 0
  deriving DecidableEq, Repr

/-- A dictionary message as a response (R263). -/
structure DictResp where
  status : Nat
  req : DictReq
  deriving DecidableEq, Repr

/-- The dictionary service (R255 to R269): the committed values that differ from their defaults, the stored-settings
partition in the running image's format and, while a trial is unconfirmed, in the old image's (R25, R381); the mailbox (R265), the last BAR0 read's value, the I3C target's last response, the sessions and their last
responses, the next control sequence of the recovery endpoint (R385). `restartRefusal`: the slot of the last BAR0 write that was discarded while the steward restarted (R262). A mailbox
request is served within the go that submits it, so busy reads 0 between commands (log entry 1). -/
structure DictState where
  vals : Tbl (Option Nat) := []
  stored : Tbl (Option Nat) := []
  storedOld : Option (Tbl (Option Nat)) := none
  journalDue : Bool := false
  eraseNext : Bool := false
  mbBuf : Mem := []
  mbBusy : Bool := false
  mbDone : Bool := false
  mbIe : Bool := false
  mbVector : Nat := 0
  mbRefused : Nat := 0
  bar0Value : Nat := 0
  i3cResp : Option DictResp := none
  sessions : Tbl SessionSt := []
  sessResp : Tbl (Option DictResp) := []
  recSeq : Nat := 0
  restartRefusal : Option Nat := none
  deriving DecidableEq, Repr

/-- What the steward is doing (R22, R23, R288, R385). -/
inductive StewardMode where
  | off | booting | running | restarting | recovery
  deriving DecidableEq, Repr

/-- The instruction of the test access port (R394); `reset` is Test-Logic-Reset. -/
inductive TapInstr where
  | reset | bypass | idcode | sample | extest | extestPulse | extestTrain
  deriving DecidableEq, Repr

/-- The test access port (R394): its instruction, the register it last shifted out, the boundary register's update stage. -/
structure TapState where
  instr : TapInstr := .reset
  shifted : Nat := 0
  update : Nat := 0
  deriving DecidableEq, Repr

/-- Supplies, resets, straps and clocks (R388 to R393). -/
structure Pins where
  auxGood : Bool := false
  mainGood : Bool := false
  modResetN : Bool := true
  auxResetN : Bool := true
  perstN : Bool := false
  mainPg : Bool := false
  loadsOn : Bool := false
  lostClks : List RefClk := []
  shutdownAt : Option Nat := none
  tap : TapState := {}
  deriving DecidableEq, Repr

/-- Bring-up (R23, R288 to R297, R384, R391): what the steward does and since when it boots or restarts; the straps as sampled;
whether a lockstep mismatch is still to be logged; whether a stage's work goes on, and what stage 4 has found (state and reason, the
result to be shown); the hold of R296; what stage 4 asks of the last full test; whether the routers are released and the fused repairs
applied. `meadowsUp`: a commit of stage 6 or later has put the memberships in force (R256, R312). `proposal`: the map proposal of the
last stage 5 as its differences from the nominal map (R306). -/
structure BootState where
  steward : StewardMode := .off
  bootAt : Nat := 0
  strict : Bool := false
  slotId : Nat := 0
  lockstepPending : Bool := false
  stageWork : Bool := false
  testOutcome : Nat × Nat := (0, 0)
  testResult : Nat := 0
  held : Bool := false
  lastFull : Option Nat := none
  lastFullFailed : Bool := false
  powerHeld : Bool := false
  activatedSince : Bool := false
  routersUp : Bool := false
  fusedApplied : Bool := false
  meadowsUp : Bool := false
  proposal : Option (Tbl (Option Nat)) := none
  deriving DecidableEq, Repr

/-- A component's image in a slot (R375, R377). -/
structure CompImage where
  bytes : Bytes := []
  toHash : Nat := 0
  version : Nat := 0
  deriving DecidableEq, Repr

/-- A firmware slot: component images by code (an unlisted one is as shipped), security version and settings format; `bad`: left
unusable (R380). -/
structure FwSlot where
  comps : Tbl (Option CompImage) := []
  security : Nat := 0
  settings : Nat := 1
  bad : Bool := false
  deriving DecidableEq, Repr

/-- One copy of the boot record (R376). -/
structure BootRec where
  seq : Nat := 0
  active : Nat := 0
  trial : Bool := false
  failed : Nat := 0
  recovery : Bool := false
  deriving DecidableEq, Repr

/-- Firmware and its update (R375 to R386): the slots A and B, the two copies of the boot record, the boot configuration region of the NOR
and its reserved regions by flash address, of which an unlisted byte is erased (R24); the staged updates partition with the update journal,
the blocks that the apply has journalled (R25, R380); the length to receive, whether a fetch runs, the slot whose boot failed last, and the
versions of the components that run (5: the settings format). `confirmDue`: the third step of a confirm is to be made (R383). -/
structure FwState where
  slots : Tbl FwSlot := []
  recA : BootRec := {}
  recB : BootRec := {}
  bootConfig : Mem := []
  norReserved : Mem := []
  journal : Nat := 0
  staged : Mem := []
  recvLen : Nat := 0
  fetching : Bool := false
  lastFailed : Option Nat := none
  running : Tbl Nat := []
  confirmDue : Bool := false
  deriving DecidableEq, Repr

/-- A defect record (R300). -/
structure Defect where
  kind : Nat
  source : Nat
  disposition : Nat
  unit : Nat
  sub : Nat := 0
  index : Nat := 0
  unsync : Bool := false
  firstSeen : Nat := 0
  count : Nat := 1
  deriving DecidableEq, Repr

/-- The defect list (R301, R302): the e.MMC journal, the records beyond its 8,192 that are acted on until the next start, the NOR
copy, when the oldest change not yet in NOR was journalled, the spare rows, columns, banks and wires that repairs have used, and whether the
journal's copy and the NOR's cannot be read (log entry 56). -/
structure DefectState where
  list : List Defect := []
  extra : List Defect := []
  nor : List Defect := []
  norDue : Option Nat := none
  usedRows : Tbl Nat := []
  usedCols : Tbl Nat := []
  usedBanks : Tbl Nat := []
  usedWires : Tbl Nat := []
  listBad : Bool := false
  norBad : Bool := false
  deriving DecidableEq, Repr

/-- A unit fault pending or handled (R347). -/
structure UnitFault where
  phys : Nat
  time : Nat
  kind : Nat
  deriving DecidableEq, Repr

/-- A fill of re-protection (R350): region, from (logical tile, offset) to (logical tile, offset), length. -/
structure Fill where
  region : Nat
  fromTile : Nat
  fromBase : Nat
  toTile : Nat
  toBase : Nat
  length : Nat
  deriving DecidableEq, Repr

/-- A meadow's job (R343 to R351): its image, whether an isolation, recovery or re-protection runs, the faults pending, the
tiles re-placed, the time of its last step, the lowest request sequence per stream of the last scan (R351), the roles of the state
pairs at the last step commit (logical tile × 64 + pair, role; R279, R281), and until when a D3 reset of the meadow runs (R333,
R335). `quietStep`: the quiet count that was last full is that of a drain by END_STEP, `drained` that the steward has had its notice (R154). -/
structure JobSt where
  image : Option GraphImage := none
  faults : List UnitFault := []
  replaced : List Nat := []
  fills : List Fill := []
  isolating : Bool := false
  recovering : Bool := false
  recoverAt : Nat := 0
  stepAt : Nat := 0
  scan : List (Nat × Nat) := []
  pairs : List (Nat × Bool) := []
  resetUntil : Nat := 0
  quietStep : Bool := false
  drained : Bool := false
  released : Bool := false
  stepPending : Bool := false
  arrived : Bool := false
  residueAt : List (Nat × Nat) := []
  deriving DecidableEq, Repr

/-- A section of a dump (R339, R341): the unit's state as it was read; none where it was absent. -/
structure DumpSection where
  phys : Nat
  unitClass : Nat
  tile : Option Tile := none
  router : Option Router := none
  die : Option DieState := none
  deriving DecidableEq, Repr

/-- A dump (R341). `layout` picks the free lengths and bytes of what its sections hold, whose layout is not given. -/
structure Dump where
  protect : Bool := false
  cause : Nat := 0
  start : Nat := 0
  left : List Nat := []
  cistern : Bool := false
  done : Bool := false
  sections : List DumpSection := []
  layout : Nat := 0
  deriving DecidableEq, Repr

/-- A rotation slot (R316): its step and since when it stands there, the tile under test, the logical role it held and when it gave
it up. -/
structure RotSlot where
  step : Nat := 0
  phys : Nat := 0
  logical : Option Nat := none
  gaveUp : Nat := 0
  since : Nat := 0
  deriving DecidableEq, Repr

/-- Continuous test (R315 to R331): rotation slots and where the pass stands, when the slot began, tiles to be taken first, the
fleet pattern to go on from, when shadow tiles were last assigned and where the assignment goes on, per tile its margin measurements
as (fabric time, ps), the tiles reported below the warning, the day of the last projection. -/
structure TestState where
  slots : Tbl RotSlot := []
  nextPhys : Nat := 0
  slotStart : Nat := 0
  first : List Nat := []
  fleetNext : Nat := 0
  shadowAt : Nat := 0
  shadowNext : Nat := 0
  margins : Tbl (List (Nat × Int)) := []
  warned : List Nat := []
  lastEol : Nat := 0
  deriving DecidableEq, Repr

/-- A meadow power command or module state entry in progress (R370, R371). -/
structure PowerCmd where
  depth : Nat := 0
  busy : Bool := false
  notEntered : Nat := 0
  deriving DecidableEq, Repr

/-- The governor and the thermal hardware (R370 to R374): each meadow's last grant, the dies throttled and the number of
samples each has been cool, the sensors ignored, the power commands, when the last tile left T0, whether the input was over
its limit at floor clocks. -/
structure PowerState where
  lastGrant : Tbl Nat := []
  throttled : List Nat := []
  coolFor : Tbl Nat := []
  badSensors : List (Nat × Nat) := []
  cmds : Tbl PowerCmd := []
  entering : Option Nat := none
  idleSince : Nat := 0
  lastRepeat : Nat := 0
  overLimit : Bool := false
  deriving DecidableEq, Repr

/-- A result post (R356) and the number of the packet that brought it. -/
structure Post where
  seq : Nat
  stream : Nat
  job : Nat
  payload : Nat
  length : Nat
  status : Nat
  packet : Nat
  deriving DecidableEq, Repr

/-- A record of an MMIO queue (R359): its ring sequence, 32 B of completion record and 32 B of payload. -/
structure MmioRec where
  ring : Nat
  record : Bytes
  payload : Bytes
  deriving DecidableEq, Repr

/-- A result queue (R355 to R359); `busy` is the post under delivery. -/
structure RQueue where
  consumed : Nat := 0
  next : Nat := 0
  held : List Post := []
  mmio : List MmioRec := []
  busy : Option Post := none
  ackIgnored : Nat := 0
  deriving DecidableEq, Repr

/-- A doorbell (R360): queued values, each with the BAR2 write jobs it waits for; counts; whether a SEND is outstanding. -/
structure Doorbell where
  vals : List (Nat × List Nat) := []
  accepted : Nat := 0
  refused : Nat := 0
  outstanding : Bool := false
  deriving DecidableEq, Repr

/-- The host side (R265, R336, R355 to R361): bytes of host memory, written or given; the PCIe link; MSI-X vectors
signalled, oldest first; result queues; doorbells; BAR2 write jobs without their WRITE_ACKs; the last BAR2 read's data. -/
structure HostIf where
  mem : Tbl (Option Byte) := []
  linkUp : Bool := false
  msix : List Nat := []
  queues : Tbl RQueue := []
  doorbells : Tbl Doorbell := []
  bar2Writes : List Nat := []
  bar2Data : Bytes := []
  deriving DecidableEq, Repr

/-- When the telemetry of the stream plane and that of the packet plane were last sampled and published (R159, R189). -/
structure Telemetry where
  streamAt : Nat := 0
  packetAt : Nat := 0
  deriving DecidableEq, Repr

/-- Fused values that a command can change or that name the part (R1, R3, R269, R299, R309, R382). -/
structure Fused where
  variant : Nat := 0
  security : Nat := 0
  budget : Tbl Nat := []
  deriving DecidableEq, Repr

end Sys2Proof.Machine
end

