-- ==== Sys2Proof/Machine/State.lean ====
section
/-! DEFINITION. The state of the block, its faults and refusals, and the state after reset: the module before 3V3_AUX has
come into range, PERST_N held low by the board, every other pin at the level its internal pull gives it (R388, R390; log entry 5). -/

namespace Sys2Proof.Machine

/-- Why the block stops. -/
inductive Fault where
  /-- A command's operand holds a value that no wire, bus or protocol can carry to the block, such as a field wider than the
  register it stands for. Raised by the commands whose operands are numbers the host, a peer or the board gives. Safe: the
  model stops where the hardware has no such input. -/
  | malformedCommand
  deriving DecidableEq, Repr

/-- Why the block refuses a command. -/
inductive Refusal where
  /-- The command has no meaning yet. Raised by exec's own arm. Safe. -/
  | notModelled (mnemonic : String)
  deriving DecidableEq, Repr

/-- The whole state. -/
structure State where
  /-- Commands waiting, first in first out. -/
  pending : List Instr
  /-- Fabric time in ns (R10, R237). -/
  now : Nat
  /-- Correction that is still to be slewed, in ns (R237). -/
  slew : Int
  /-- Nanoseconds since the slew last moved the time by one. -/
  slewPhase : Nat
  /-- The 64 ns multiple of fabric time at which the sluices were last refilled (R124). -/
  sluiceAt : Nat
  /-- The number of the next free value (log entry 2). -/
  free : Nat
  fused : Fused
  pins : Pins
  boot : BootState
  fw : FwState
  dict : DictState
  txn : TxnState
  migs : Tbl Migration
  errs : ErrState
  defects : DefectState
  /-- Physical tiles by id. -/
  tiles : Tbl Tile
  /-- Routers by physical tile id. -/
  routers : Tbl Router
  /-- Packets in flight by number. -/
  net : Tbl (Option Packet)
  nextPkt : Nat
  /-- Port dies: 0 W, 1 E. -/
  dies : Tbl DieState
  host : HostIf
  /-- Jobs by meadow. -/
  jobs : Tbl JobSt
  dumps : Tbl (Option Dump)
  test : TestState
  power : PowerState
  telemetry : Telemetry
  deriving DecidableEq, Repr

/-- The block after reset. -/
def State.reset : State where
  pending := []
  now := 0
  slew := 0
  slewPhase := 0
  sluiceAt := 0
  free := 0
  fused := {}
  pins := {}
  boot := {}
  fw := {}
  dict := {}
  txn := {}
  migs := []
  errs := {}
  defects := {}
  tiles := []
  routers := []
  net := []
  nextPkt := 0
  dies := []
  host := {}
  jobs := []
  dumps := []
  test := {}
  power := {}
  telemetry := {}

/-- What a meaning answers. -/
abbrev Out := Host.Outcome State Fault Refusal

end Sys2Proof.Machine
end

