-- ==== Sys2Proof/Machine/Ops.lean ====
section
/-! DEFINITION. The named operations over the state: the one home of every read and write of a dictionary value, a tile, a
router, a packet, a port die, host memory; error reports; free values; units of time; geometry (R7, R8, R16). -/

namespace Sys2Proof.Machine

/-- Microseconds in ns. -/
def us (n : Nat) : Nat := n * 1000

/-- Milliseconds in ns. -/
def ms (n : Nat) : Nat := n * 1000000

/-- A second in ns. -/
def sec (n : Nat) : Nat := n * 1000000000

/-- Physical row of a physical id (R7). -/
def pRow (p : Nat) : Nat := p / 72

/-- Physical column of a physical id (R7). -/
def pCol (p : Nat) : Nat := p % 72

/-- Logical row of a logical id (R7). -/
def lRow (l : Nat) : Nat := l / 64

/-- Logical column of a logical id (R7). -/
def lCol (l : Nat) : Nat := l % 64

/-- Field die of a physical tile: 0 NW, 1 NE, 2 SW, 3 SE (R8). -/
def dieOf (p : Nat) : Nat := (if pRow p < 32 then 0 else 2) + (if pCol p < 36 then 0 else 1)

/-- A dark row of Q9-3072F (R3). -/
def darkRow (variant p : Nat) : Bool := variant == 1 && ((24 ≤ pRow p && pRow p < 32) || 56 ≤ pRow p)

/-- Logical tiles of the module (R171, R303). -/
def logicalTiles (variant : Nat) : Nat := if variant = 1 then 3072 else 4096

/-- The nominal map (R16, R303). -/
def nominalMap (variant l : Nat) : Nat :=
  let col := lCol l + (lCol l + 4) / 8
  if variant = 1 then
    if l < 3072 then (if lRow l < 24 then lRow l else lRow l + 8) * 72 + col else 0xFFFF
  else lRow l * 72 + col

/-- Bytes of a tile's cistern (R3). -/
def cisternBytes (variant : Nat) : Nat := if variant = 1 then 0x400000 else 0x500000

/-- A string as the number its UTF-8 bytes spell, zero-padded (R253). -/
def strNat (t : String) : Nat := leNat (t.toList.map fun c => BitVec.ofNat 8 c.toNat)

/-- The key of an element of an object in the tables of values. -/
def elemKey (key e : Nat) : Nat := key * 65536 + e

/-- The default of an element (R253, R269), fused values included. -/
def objDefault (f : Fused) (key e : Nat) : Nat :=
  if key = Ob.map then nominalMap f.variant e
  else if key = Ob.variant then f.variant
  else if key = Ob.part_number then
    strNat (if f.variant = 0 then "Q9-4096F" else if f.variant = 1 then "Q9-3072F" else "Q9-4096K")
  else if key = Ob.serial then Config.serial % 2 ^ 128
  else if key = Ob.die_revision then Config.dieRevision e % 65536
  else if key = Ob.fused_ports then (if f.variant = 1 then 0xF000F000 else 0)
  else if key = Ob.fused_resources then
    (if f.variant = 1 then 48 else 64) + fld (cisternBytes f.variant / 1024) 8 + fld (b2n (f.variant == 2)) 24
  else if key = Ob.iana_enterprise then Config.iana % 2 ^ 32
  else if key = Ob.security_version then f.security
  else if key = Ob.fuse_budget then Tbl.get 2048 f.budget e
  else if key = Ob.port_mac then Config.mac e % 2 ^ 48
  else match objInfo key with
    | some o => o.dflt
    | none => 0

/-- The value of element `e` of an object in a table of values, its default where none is listed. -/
def valIn (f : Fused) (t : Tbl (Option Nat)) (key e : Nat) : Nat :=
  match Tbl.get none t (elemKey key e) with
  | some v => v
  | none => objDefault f key e

/-- Sets a value in a table of values; a value equal to the default is not listed. -/
def putIn (f : Fused) (t : Tbl (Option Nat)) (key e v : Nat) : Tbl (Option Nat) :=
  t.put none (elemKey key e) (if v = objDefault f key e then none else some v)

/-- The committed value of element `e` of an object. -/
def State.obe (s : State) (key e : Nat) : Nat := valIn s.fused s.dict.vals key e

/-- The committed value of an object that is no ARRAY. -/
def State.ob (s : State) (key : Nat) : Nat := s.obe key 0

/-- Sets the committed value of an element. -/
def State.putObe (s : State) (key e v : Nat) : State :=
  { s with dict := { s.dict with vals := putIn s.fused s.dict.vals key e v } }

/-- Sets the committed value of an object that is no ARRAY. -/
def State.putOb (s : State) (key v : Nat) : State := s.putObe key 0 v

/-- Adds to a counter object of `w` bits. -/
def State.addObe (s : State) (key e n w : Nat) : State := s.putObe key e ((s.obe key e + n) % 2 ^ w)

/-- Adds to U64 field `i` of a RECORD of U64 counts. -/
def State.addRec (s : State) (key e i n : Nat) : State :=
  let v := s.obe key e
  s.putObe key e (setBits v (64 * i + 63) (64 * i) (bits v (64 * i + 63) (64 * i) + n))

/-- A physical tile. -/
def State.tile (s : State) (p : Nat) : Tile := Tbl.get {} s.tiles p

/-- Replaces a physical tile. -/
def State.setTile (s : State) (p : Nat) (t : Tile) : State := { s with tiles := s.tiles.put {} p t }

/-- A tile as new, but for its interface, its order of operations and the links that it carries for others (R136). -/
def Tile.blank (t : Tile) : Tile := { ({} : Tile) with ni := t.ni, stamp := t.stamp, relays := t.relays }

/-- Changes a physical tile. -/
def State.modTile (s : State) (p : Nat) (f : Tile → Tile) : State := s.setTile p (f (s.tile p))

/-- A router. -/
def State.router (s : State) (p : Nat) : Router := Tbl.get {} s.routers p

/-- Changes a router. -/
def State.modRouter (s : State) (p : Nat) (f : Router → Router) : State :=
  { s with routers := s.routers.put {} p (f (s.router p)) }

/-- A port die. -/
def State.die (s : State) (d : Nat) : DieState := Tbl.get {} s.dies d

/-- Changes a port die. -/
def State.modDie (s : State) (d : Nat) (f : DieState → DieState) : State :=
  { s with dies := s.dies.put {} d (f (s.die d)) }

/-- A meadow's job. -/
def State.job (s : State) (g : Nat) : JobSt := Tbl.get {} s.jobs g

/-- Changes a meadow's job. -/
def State.modJob (s : State) (g : Nat) (f : JobSt → JobSt) : State :=
  { s with jobs := s.jobs.put {} g (f (s.job g)) }

/-- A migration. -/
def State.mig (s : State) (m : Nat) : Migration := Tbl.get {} s.migs m

/-- Changes a migration. -/
def State.modMig (s : State) (m : Nat) (f : Migration → Migration) : State :=
  { s with migs := s.migs.put {} m (f (s.mig m)) }

/-- The packet of a number. -/
def State.pkt (s : State) (n : Nat) : Option Packet := Tbl.get none s.net n

/-- Replaces a packet. -/
def State.setPkt (s : State) (n : Nat) (k : Packet) : State := { s with net := s.net.put none n (some k) }

/-- Takes a packet off the plane. -/
def State.dropPkt (s : State) (n : Nat) : State := { s with net := s.net.put none n none }

/-- Puts a new packet on the plane under the next number. -/
def State.newPkt (s : State) (k : Packet) : State :=
  { s with net := s.net.put none s.nextPkt (some k), nextPkt := s.nextPkt + 1 }

/-- A byte of host memory; a byte that nothing has written or given is a free value (log entry 4). -/
def State.hostByte (s : State) (a : Nat) : Byte :=
  match Tbl.get none s.host.mem a with
  | some b => b
  | none => Config.hostByte a

/-- Bytes of host memory. -/
def State.hostBytes (s : State) (a n : Nat) : Bytes := (List.range n).map fun i => s.hostByte (a + i)

/-- Writes bytes of host memory, one posted write. -/
def State.hostWrite (s : State) (a : Nat) (bs : Bytes) : State :=
  { s with host := { s.host with
      mem := (bs.zipIdx).foldl (fun m bi => Tbl.put none m (a + bi.2) (some bi.1)) s.host.mem } }

/-- The next free value, of `w` bits (log entry 2). -/
def State.freeVal (s : State) (w : Nat) : Nat := (Config.freeBits w s.free).toNat

/-- Counts a free value as drawn. -/
def State.drew (s : State) : State := { s with free := s.free + 1 }

/-- The physical tile of a logical id under the committed map; 0xFFFF where it is unplaced (R303). -/
def State.physOf (s : State) (l : Nat) : Nat := s.obe Ob.map l

/-- The physical tile of a logical id under the map of an epoch bit (R15, R186): while the previous epoch is not retired
its map is kept. -/
def State.physAt (s : State) (ep : Bool) (l : Nat) : Nat :=
  if b2n ep = s.ob Ob.route_epoch then s.physOf l
  else match Tbl.get none s.txn.oldMap l with
    | some p => p
    | none => s.physOf l

/-- The variant (R1). -/
def State.variant (s : State) : Nat := s.fused.variant

/-- The steward serves requests: it runs, neither off, booting, restarting nor in recovery mode. -/
def State.stewardUp (s : State) : Bool := s.boot.steward == .running

/-- A unit's `held` error reports while the steward restarts (R326). -/
def heldOf (q : List Report) (r : Report) : Nat :=
  (q.filter fun x => x.phys == r.phys && x.unitClass == r.unitClass).length

/-- Sends an error report of a job and step to the steward (R324, R326): the time, the die's temperature and the rail voltage, which
the manual leaves open, are filled in. -/
def State.raiseFor (s : State) (job step : Nat) (r : Report) : State :=
  let r := { r with
    time := s.now
    job := job
    step := step
    temp := s.obe Ob.die_temp (if r.unitClass = 4 then 4 + r.phys % 2 else dieOf r.phys)
    volt := s.freeVal 16 }
  let s := s.drew
  if s.boot.steward = .restarting ∧ 256 ≤ heldOf s.errs.queue r then s.addRec Ob.errlog_lost 0 0 1
  else { s with errs := { s.errs with queue := s.errs.queue ++ [r] } }

/-- Sends an error report for the job and the step of its meadow. -/
def State.raise (s : State) (r : Report) : State :=
  if r.meadow < 256 then s.raiseFor (s.obe Ob.job_number r.meadow) (s.obe Ob.step_number r.meadow) r else s.raiseFor 0 0 r

/-- A report of a tile (R324). -/
def Tile.report (t : Tile) (p kind : Nat) : Report :=
  { kind, phys := p, logical := t.logical.getD 0xFFF, meadow := t.meadow.getD 0xFF, slot := t.stream.slot }

/-- Sends a tile's error report. -/
def State.raiseTile (s : State) (p kind detail : Nat) : State :=
  s.raise { (s.tile p).report p kind with detail }

/-- Sends a port die's error report. -/
def State.raiseDie (s : State) (d kind detail : Nat) : State :=
  s.raise { kind, phys := d, unitClass := 4, detail }

/-- Sets a cause bit of alert_cause (R270). -/
def State.alert (s : State) (k : Nat) : State :=
  s.putOb Ob.alert_cause (s.ob Ob.alert_cause ||| 1 <<< k)

/-- The module is commissioned (R313): it holds a record for the slot that it stands in. The record's serial is its own. -/
def State.commissioned (s : State) : Bool := s.ob Ob.commission_slot != 0xFF && s.ob Ob.commission_slot == s.boot.slotId

/-- ALERT_N is asserted (R270). -/
def State.alertAsserted (s : State) : Bool := (s.ob Ob.alert_cause &&& s.ob Ob.alert_mask) != 0

/-- Every logical tile of a meadow, in increasing order (R311); none before a commit of bring-up stage 6 or later (R256). -/
def State.members (s : State) (g : Nat) : List Nat :=
  if s.boot.meadowsUp then (List.range (logicalTiles s.variant)).filter fun l => s.obe Ob.tile_meadow l == g else []

/-- The physical tiles of a meadow's members. -/
def State.memberTiles (s : State) (g : Nat) : List Nat := (s.members g).map s.physOf

/-- The port die's unit number as a packet target: 4,608 W, 4,609 E; 4,610 is the steward. -/
def dieTarget (d : Nat) : Nat := 4608 + d

/-- The clock of a unit's router branch in MHz (R18, R19): the die's, or the tile's own wake clock, which lies within 10 % of 750 MHz; 1,500
MHz at a port die, and on a field die whose clock has not been set. -/
def State.clockOf (s : State) (u : Nat) : Nat :=
  if 4608 ≤ u then 1500
  else if (s.tile u).power.sourceNow then 675 + Config.freeNat "wake clock" u % 151
  else if s.obe Ob.die_clock (dieOf u) = 0 then 1500
  else s.obe Ob.die_clock (dieOf u)

/-- `n` cycles of a unit's clock in ns. -/
def State.cycles (s : State) (u n : Nat) : Nat := ceilDiv (n * 1000) (s.clockOf u)

/-- Cycles of a unit's clock in `n` ns. -/
def State.cyclesIn (s : State) (u n : Nat) : Nat := n * s.clockOf u / 1000

/-- The double-buffered table that an object belongs to (R273): each map, meadow or hedge object, the fences, the windows. -/
def tableOf (key : Nat) : Option Nat :=
  if 0x300000 ≤ key ∧ key ≤ 0x3EFFFF then some key
  else if key = Ob.link_fence then some key
  else if Ob.win_kind ≤ key ∧ key ≤ Ob.win_notify then some Ob.win_kind
  else none

/-- The tables that a commit's values belong to (R273). -/
def tablesOf (vals : Tbl (Option Nat)) : List Nat := (vals.filterMap fun x => tableOf (x.1 / 65536)).eraseDups

/-- The holder of a table that the steward's own transaction holds (R273). -/
def ownHolder : Nat := 6

/-- A transaction of the steward's ends: its tables are released (R273). -/
def State.releaseOwn (s : State) (vals : Tbl (Option Nat)) : State :=
  { s with txn := { s.txn with holder := s.txn.holder.filter fun h => !(h.2 == ownHolder && (tablesOf vals).contains h.1) } }

/-- An event whose conditions do not hold has not happened: the state as it was (log entry 8). -/
def State.noEvent (s : State) : Out := .next s

end Sys2Proof.Machine
end

