-- ==== Sys2Proof/Machine/DefectList.lean ====
section
/-! DEFINITION. The defect list (R300 to R302) and the lines that need correction again and again (R101, R104). -/

namespace Sys2Proof.Machine

/-! Defect records (R300, R301). -/

/-- Two records are of one defect (R301). -/
def Defect.same (x y : Defect) : Bool := x.kind == y.kind && x.unit == y.unit && x.sub == y.sub && x.index == y.index

/-- Bits 0 to 223 of a record. -/
def Defect.body (x : Defect) : Nat :=
  x.kind % 256 + fld (x.source % 16) 8 + fld (x.disposition % 16) 12 + fld (x.unit % 8192) 16 + fld (x.sub % 256) 32 +
    fld (x.index % 4096) 40 + fld (b2n x.unsync) 63 + fld (x.firstSeen % 2 ^ 64) 64 + fld (sat 32 x.count) 128

/-- The 32 B record with its check (R300). -/
def Defect.word (x : Defect) : Nat := x.body + fld (Config.crc32 (toLE 28 x.body)).toNat 224

/-- A new occurrence raises the count, and may raise the disposition (R301). -/
def Defect.again (x y : Defect) : Defect :=
  { x with count := sat 32 (x.count + 1), disposition := max x.disposition y.disposition }

/-- Fabric time runs free: no die's PTP clock is locked (R237). -/
def State.runsFree (s : State) : Bool := !(s.die 0).ptp.locked && !(s.die 1).ptp.locked

/-- Records an occurrence of a defect (R301, R302): journalled now, due in the NOR copy within 1 s; a record beyond 8,192 is not
stored and reported. -/
def State.recordDefect (s : State) (kind source disposition unit sub index : Nat) : State :=
  let x : Defect := { kind, source, disposition, unit, sub, index, unsync := s.runsFree, firstSeen := s.now }
  let due := match s.defects.norDue with
    | some t => some t
    | none => some s.now
  if s.defects.list.any x.same then
    { s with defects := { s.defects with
        list := s.defects.list.map fun y => if x.same y then y.again x else y, norDue := due } }
  else if s.defects.list.length < 8192 then
    { s with defects := { s.defects with list := s.defects.list ++ [x], norDue := due } }
  else
    ({ s with defects := { s.defects with extra := if s.defects.extra.any x.same then s.defects.extra else s.defects.extra ++ [x] } }).raise
      { kind := 0x0601, unitClass := 5 }

/-- The defects that are acted on: the list, and what it could not hold (R302). -/
def State.allDefects (s : State) : List Defect := s.defects.list ++ s.defects.extra

/-- The union of two copies of the list, counts and dispositions at their maxima (R301). -/
def unionDefects (a b : List Defect) : List Defect :=
  a.map (fun x => match b.find? x.same with
    | some y => { x with count := max x.count y.count, disposition := max x.disposition y.disposition }
    | none => x) ++ b.filter fun y => !a.any y.same

/-! Lines corrected repeatedly (R101, R104). -/

/-- Enabled banks of a cistern (R101). -/
def banks (variant : Nat) : Nat := if variant = 1 then 16 else 20

/-- Lines of a cistern; in bank-row order they are the lines in order (R101). -/
def cisternLines (variant : Nat) : Nat := cisternBytes variant / 64

/-- A line has needed correction: the third time within 24 h it is recorded with source "runtime error", its bank and bank row
(R104). -/
def State.lineCorrected (s : State) (p line : Nat) : State :=
  let e := (s.tile p).ecc
  let times := (Tbl.get [] e.lineTimes line).filter (fun t => s.now - t < sec 86400) ++ [s.now]
  let again := 3 ≤ times.length
  let s := s.modTile p fun t => { t with ecc := { t.ecc with lineTimes := e.lineTimes.put [] line (if again then [] else times) } }
  if again then s.recordDefect 0x0D 3 6 p (line % banks s.variant) (line / banks s.variant) else s

end Sys2Proof.Machine
end

