-- ==== Sys2Proof/Machine/Operands.lean ====
section
/-! DEFINITION. Operand forms: the effective address of loads and stores (R62), fabric address forms (R106), the spread
hash (R107), well address operands (R66). -/

namespace Sys2Proof.Machine

/-- The local offset that a load's or store's effective address reaches, or the fault its form takes (R62). `own` is the
tile's logical id. -/
def localOffset (own : Nat) (a : Nat) : Except Nat Nat :=
  let code := bits a 63 60
  if code = 0xF then
    if bits a 59 23 = 0 then .ok (bits a 22 0) else .error 0x03
  else if code = 0x0 then
    if bits a 59 48 = 0 ∧ bits a 35 23 = 0 ∧ bits a 47 36 = own then .ok (bits a 22 0) else .error 0x03
  else if code ≤ 4 then .error 0x03
  else .error 0x04

/-- A fabric address by its form (R106). -/
inductive FabAddr where
  | loc (tile off : Nat)
  | spread (y : Nat)
  | window (gen index off : Nat)
  | host (a : Nat)
  | die (d off : Nat)
  | this (off : Nat)
  deriving DecidableEq, Repr

/-- The form of a fabric address; none where R106 refuses it: a reserved code, a bit marked zero that is set, or a row of
48 to 63 on Q9-3072F. -/
def parseFab (variant a : Nat) : Option FabAddr :=
  let code := bits a 63 60
  if code = 0x0 then
    if bits a 59 48 = 0 ∧ bits a 35 23 = 0 ∧ ¬(variant = 1 ∧ 48 ≤ bits a 47 42) then
      some (.loc (bits a 47 36) (bits a 22 0)) else none
  else if code = 0x1 then if bits a 59 40 = 0 then some (.spread (bits a 39 0)) else none
  else if code = 0x2 then
    if bits a 59 56 = 0 then some (.window (bits a 55 52) (bits a 51 40) (bits a 39 0)) else none
  else if code = 0x3 then if bits a 59 48 = 0 then some (.host (bits a 47 0)) else none
  else if code = 0x4 then if bits a 59 49 = 0 then some (.die (bits a 48 48) (bits a 47 0)) else none
  else if code = 0xF then if bits a 59 23 = 0 then some (.this (bits a 22 0)) else none
  else none

/-- A local-form fabric address. -/
def mkLoc (tile off : Nat) : Nat := fld tile 36 + off

/-- The tile and cistern offset of a spread offset (R107), given the meadow's members in increasing logical id; none where
the row is G or more, or the meadow has no member. -/
def spreadAt (members : List Nat) (base granules seed y : Nat) : Option (Nat × Nat) :=
  let n := members.length
  if n = 0 then none
  else
    let g := y >>> 12
    let row := g / n
    let pos := g % n
    let x := ((row + seed) * 0x9E3779B97F4A7C15) % 2 ^ 64
    let t := (pos + ((x >>> 32) % n)) % n
    if granules ≤ row then none
    else some (members.getD t 0, base + row * 4096 + y % 4096)

/-- The spread space of a meadow (R107). -/
def State.spread (s : State) (g y : Nat) : Option (Nat × Nat) :=
  spreadAt (s.members g) (s.obe Ob.spread_base g) (s.obe Ob.spread_granules g) (s.obe Ob.spread_seed g) y

/-- The tile and offset of a local-form or spread-form address in a meadow; none for another form, or where the address is
refused. -/
def State.resolve (s : State) (g a : Nat) : Option (Nat × Nat) :=
  match parseFab s.variant a with
  | some (.loc t off) => some (t, off)
  | some (.spread y) => s.spread g y
  | _ => none

/-- The well address operand of SEND and SENDT is well formed: reserved bits zero (R66). -/
def wellOperandOk (a : Nat) : Bool := bits a 15 15 = 0 && bits a 63 24 = 0

/-- Distinct 4 KiB pieces of an extent from an address: (offset in the extent, length) (R118, R224). -/
def pieces (addr len : Nat) : List (Nat × Nat) :=
  let first := min len (4096 - addr % 4096)
  let rest := len - first
  (if first = 0 then [] else [(0, first)]) ++
    (List.range (ceilDiv rest 4096)).map fun i => (first + 4096 * i, min 4096 (rest - 4096 * i))

end Sys2Proof.Machine
end

