-- ==== Sys2Proof/Machine/Frames.lean ====
section
/-! DEFINITION. Page frames in the port dies' tables (R241, R246, R251), and the page program that a cache-role tile is given (R239). -/

namespace Sys2Proof.Machine

/-! Page frames (R241, R251). -/

/-- The half of the logical mesh, and so the port die, that a logical tile's frames belong to (R241). -/
def pageDie (l : Nat) : Nat := if lCol l < 32 then 0 else 1

/-- The key of a frame in its die's page table. -/
def frameKey (l f : Nat) : Nat := l * 1024 + f

/-- A frame becomes Free: the generation goes from 2^24 − 1 to 1 (R241). -/
def PageFrame.freed (x : PageFrame) : PageFrame :=
  { state := .free, gen := if x.gen = 2 ^ 24 - 1 then 1 else x.gen + 1 }

/-- A frame. -/
def State.frame (s : State) (d key : Nat) : PageFrame := Tbl.get {} (s.die d).pages key

/-- Changes a frame. -/
def State.modFrame (s : State) (d key : Nat) (f : PageFrame → PageFrame) : State :=
  s.modDie d fun x => { x with pages := x.pages.mod {} key f }

/-- The frames of a tile that are not Free. -/
def State.framesOn (s : State) (l : Nat) : List Nat :=
  ((s.die (pageDie l)).pages.filter fun x => x.1 / 1024 == l && x.2.state != .free).map (·.1)

/-- A tile's cistern contents are lost: its frames are freed and reported (R251). -/
def State.pagesLost (s : State) (l p : Nat) : State :=
  let fs := s.framesOn l
  if fs = [] then s
  else
    let s := fs.foldl (fun s k => s.modFrame (pageDie l) k PageFrame.freed) s
    let s := s.addRec Ob.page_counts ((s.tile p).meadow.getD (s.obe Ob.tile_meadow l)) 3 fs.length
    s.raise { (s.tile p).report p 0x0502 with detail := fs.length }

/-- An operation on a frame has ended: a FREE that waited takes effect. -/
def State.frameDone (s : State) (d key : Nat) : State :=
  s.modFrame d key fun f =>
    let f := { f with pendingOps := f.pendingOps - 1 }
    if f.freeing ∧ f.pendingOps = 0 then f.freed else f

/-! The page program (R239). -/

/-- The boot record in force: the copy with the higher sequence number (R376). -/
def FwState.record (f : FwState) : BootRec := if f.recA.seq < f.recB.seq then f.recB else f.recA

/-- A firmware slot. -/
def FwState.slot (f : FwState) (n : Nat) : FwSlot := Tbl.get {} f.slots n

/-- A component's image in a slot; one that no update has written is as shipped. -/
def FwSlot.comp (x : FwSlot) (c : Nat) : CompImage :=
  match Tbl.get none x.comps c with
  | some i => i
  | none => { bytes := Config.shipped c, toHash := Config.sha384 (Config.shipped c), version := Config.shippedVersion c % 2 ^ 32 }

/-- The page program stands in a tile's instruction memory: it is part of the steward firmware in the active slot; where, the spec does
not say (log entry 32). -/
def State.pageProgram (s : State) (p : Nat) : State :=
  let image := ((s.fw.slot s.fw.record.active).comp 0).bytes
  s.modTile p fun t => { t with imem := Mem.writeBytes [] 0 ((Config.pageProgram image).take 65536), ecc := { t.ecc with imem := [] } }

end Sys2Proof.Machine
end

