-- ==== Sys2Proof/Machine/TilePower.lean ====
section
/-! DEFINITION. Region records (R344) and the entry of a tile into T2 or T3 (R365, R366). -/

namespace Sys2Proof.Machine

/-- A tile has changed: where it has left T0, the time since which tiles may be idle begins anew (R371). -/
def State.leftRun (s : State) (old : Tile) (p : Nat) : State :=
  if old.power.state = .t0 ∧ (s.tile p).power.state ≠ .t0 then { s with power := { s.power with idleSince := s.now } } else s

/-- The region records of a meadow that are in use (R344). -/
def State.regions (s : State) (g : Nat) : List (Nat × Nat) :=
  ((List.range 64).map fun r => (r, s.obe Ob.region_table (g * 64 + r))).filter fun x => bits x.2 2 0 != 0

/-- A precious region's kind (R344). -/
def regionPrecious (r : Nat) : Bool := 2 ≤ bits r 2 0 && bits r 2 0 ≤ 4

/-- A logical tile holds a copy of a precious region of its meadow (R344, R366). -/
def State.holdsPrecious (s : State) (g l : Nat) : Bool :=
  (s.regions g).any fun x => regionPrecious x.2 &&
    (bits x.2 15 4 == l || (bit x.2 3 && bits x.2 27 16 == l))

/-- A pump has a descriptor in progress or a completion held (R366). -/
def Pump.busy (u : Pump) : Bool := u.jobs.any (·.started) || u.held != []

/-- A unit has an operation in flight or a completion held (R366). -/
def OpUnit.busy (u : OpUnit) : Bool := u.exec.isSome || u.waiting.isSome || u.held.isSome

/-- The steward has work on a physical tile: it is migrating, under rotation or holds a shadow assignment (R366). -/
def State.stewardHolds (s : State) (p : Nat) : Bool :=
  (s.migs.any fun m => m.2.step != 0 && (m.2.oldPhys == p || m.2.spare == p)) ||
    (s.test.slots.any fun r => r.2.step != 0 && r.2.phys == p) || (s.tile p).shadow.assigned.isSome

/-- A tile's page program holds ATTENDs, or its port die does for it (R246): its vector unit works for them. -/
def State.attending (s : State) (p : Nat) : Bool :=
  match (s.tile p).logical with
  | some l => let q : AttendQ := Tbl.get {} (s.die (pageDie l)).attends l
    q.held != [] || q.queued != []
  | none => false

/-- Counter emissions or a fold pending (R366). -/
def Tile.streamBusy (t : Tile) : Bool := (t.counters.any fun c => c.2.pending != 0) || t.stream.folds != []

/-- The first refuser of an entry into `depth` (R366): 0 none. -/
def State.refuser (s : State) (p depth : Nat) : Nat :=
  let t := s.tile p
  match (List.range 8).find? fun n => (Tbl.get {} t.pumps n : Pump).busy with
  | some n => n + 1
  | none =>
    if t.tensor.busy then 9
    else if t.vector.busy || s.attending p then 10
    else if t.streamBusy then 11
    else if depth = 2 && (match t.meadow, t.logical with
        | some g, some l => s.holdsPrecious g l
        | _, _ => false) then 12
    else if s.stewardHolds p then 13
    else if t.ni.c4head.isSome || t.ni.owed != [] || t.ni.dups != [] then 14
    else 0

/-- What T3 loses (R363): everything but the router, the network interface and t_timer; the tasks' WAIT masks stand until
the wake that the timer or a maintenance request brings. -/
def Tile.darken (t : Tile) : Tile :=
  { t with cistern := [], imem := [], slots := [], ranges := [], ecc := {},
           tensor := {}, vector := {}, pumps := [], power := { t.power with state := .t3 } }

/-- An entry is refused at step 2 (R366): the tile stays in T1, the refuser is recorded, the refusal counted. -/
def State.refuseEntry (s : State) (p r : Nat) : State :=
  let s := s.modTile p fun t => { t with power := { t.power with
    state := .t1, refused := true, entering := none, lastDepth := 1, lastRefuser := r, refusals := (t.power.refusals + 1) % 256 } }
  match (s.tile p).logical with
  | some l =>
    let v := s.obe Ob.power_refusals l
    s.putObe Ob.power_refusals l (setBits v (16 * r + 15) (16 * r) (bits v (16 * r + 15) (16 * r) + 1))
  | none => s

/-- Step 8 of an entry (R365): the tile is in T2 (`depth` 1) or T3 (`depth` 2). -/
def State.entered (s : State) (p depth : Nat) : State :=
  let s := match depth, (s.tile p).logical with
    | 2, some l => s.pagesLost l p
    | _, _ => s
  s.modTile p fun t =>
  let t := if depth = 2 then t.darken else { t with power := { t.power with state := .t2 } }
  { t with power := { t.power with refused := false, partWoken := false, entering := none, lastDepth := depth + 1 } }

/-- Steps 2 to 8 at once, for an entry by command (R370): wake events but maintenance requests do not count there (log entry 15). -/
def State.enterNow (s : State) (p depth : Nat) : State :=
  if s.refuser p depth = 0 then s.entered p depth else s.refuseEntry p (s.refuser p depth)

/-- Step 2 of the entry by WAIT (R365) for a tile in T1: the refusal check; then steps 3 to 7 are under way. -/
def State.enterPower (s : State) (p depth : Nat) : State :=
  if s.refuser p depth = 0 then
    s.modTile p fun t => { t with power := { t.power with refused := false, entering := some (depth, s.now) } }
  else s.refuseEntry p (s.refuser p depth)

/-- How long steps 3 to 7 take, in ns: the copy of 64 cycles, then 1 µs (R365). -/
def State.entryTime (s : State) (p : Nat) : Nat := s.cycles p 64 + us 1

/-- Entries whose last abort point has passed end (R365). -/
def State.entriesEnd (s : State) : State :=
  s.tiles.foldl (fun s x => match x.2.power.entering with
    | some (depth, since) =>
      if s.now - since < s.entryTime x.1 then s
      else if x.2.power.state = .t0 then s.modTile x.1 fun t => { t with power := { t.power with entering := none } }
      else s.entered x.1 depth
    | none => s) s

/-- The abort point that finds a wake event which comes now, of an entry under way since `since` (R365). -/
def State.abortPoint (s : State) (p since : Nat) : Nat :=
  if s.now ≤ since then 1 else if s.now - since < s.cycles p 64 then 2 else 3

/-- A wake event during the entry of a tile aborts it (R365): counted; the tile is as in T1, from which the woken task's WAIT
completes. -/
def State.abortEntry (s : State) (p : Nat) : State :=
  match (s.tile p).power.entering with
  | some (_, since) =>
    let a := s.abortPoint p since
    let s := s.modTile p fun t => { t with power := { t.power with
      state := .t1, partWoken := false, entering := none, lastDepth := 1, lastAbort := a, aborts := (t.power.aborts + 1) % 256 } }
    match (s.tile p).logical with
    | some l =>
      let v := s.obe Ob.power_aborts l
      s.putObe Ob.power_aborts l (setBits v (16 * a - 1) (16 * a - 16) (bits v (16 * a - 1) (16 * a - 16) + 1))
    | none => s
  | none => s

/-! Entry of a meadow by command (R370, R371). -/

/-- A meadow's power command. -/
def State.powerCmd (s : State) (g : Nat) : PowerCmd := Tbl.get {} s.power.cmds g

/-- Sets it. -/
def State.setPowerCmd (s : State) (g : Nat) (c : PowerCmd) : State :=
  { s with power := { s.power with cmds := s.power.cmds.put {} g c } }

/-- One tile of a commanded entry: its run bit is cleared and kept, and it goes through steps 2 to 8 of R365. -/
def State.powerTile (s : State) (depth p : Nat) : State :=
  let old := s.tile p
  let s := s.modTile p fun t => { t with
    seq := { t.seq with run := false }
    power := { t.power with commanded := some depth, runSaved := if t.power.commanded.isSome then t.power.runSaved else t.seq.run } }
  if old.power.state = .t3 ∨ (old.power.state = .t2 ∧ depth = 1) then s else (s.enterNow p depth).leftRun old p

/-- The entry of the module into M2 or M3 ends when that of every meadow has (R371): all tiles entered, or the module stays in its
state and reports how many are not. -/
def State.moduleEntered (s : State) : State :=
  match s.power.entering with
  | some m =>
    if s.power.cmds.any fun c => c.2.busy then s
    else
      let left := (s.power.cmds.map fun c => c.2.notEntered).foldl (· + ·) 0
      let s := { s with power := { s.power with entering := none } }
      if left = 0 then s.putOb Ob.module_state m else s.raise { kind := 0x0905, unitClass := 5, detail := left }
  | none => s

/-- The drain of a meadow under a power command has ended: its tiles enter, the command completes, and tiles not entered are
reported (R370). -/
def State.powerDrained (s : State) (g : Nat) : State :=
  let c := s.powerCmd g
  if !c.busy then s
  else
    let ps := (s.memberTiles g).filter (· < 4608)
    let s := ps.foldl (fun (s : State) p => s.powerTile c.depth p) (s.modJob g fun j => { j with drained := false })
    let left := (ps.filter fun p => !((s.tile p).power.state == .t3 || ((s.tile p).power.state == .t2 && c.depth == 1))).length
    let s := s.setPowerCmd g { depth := c.depth, notEntered := left }
    let s := s.putObe Ob.meadow_power_status g (if left = 0 then c.depth + 1 else 0)
    let s := if left = 0 ∨ s.power.entering.isSome then s
      else s.raise { kind := 0x0905, unitClass := 6, meadow := g, detail := left }
    s.moduleEntered

/-- A meadow's power command ends without its entry: its tiles are reset. -/
def State.powerDropped (s : State) (g : Nat) : State :=
  let c := s.powerCmd g
  let s := (s.setPowerCmd g { notEntered := if c.busy then (s.members g).length else 0 }).putObe Ob.meadow_power_status g 0
  if c.busy then s.moduleEntered else s

end Sys2Proof.Machine
end

