-- ==== Sys2Proof/Machine/Seq.lean ====
section
/-! DEFINITION. The tile sequencer (R53 to R59, R71, R74, R75): task contexts, the scheduler, the encodings of instruction
words, issuing an instruction, faulting, stalling, waking. A command of a sequencer row is the issue of that instruction by
the tile's Running task; nothing happens where the tile has no task that may issue (log entry 8). -/

namespace Sys2Proof.Machine

/-- A task context. -/
def Tile.task (t : Tile) (k : Nat) : Task := Tbl.get {} t.seq.tasks k

/-- Changes a task context. -/
def Tile.modTask (t : Tile) (k : Nat) (f : Task → Task) : Tile :=
  { t with seq := { t.seq with tasks := t.seq.tasks.put {} k (f (t.task k)) } }

/-- A register: g0 reads as zero (R53). -/
def Task.reg (x : Task) (r : Reg) : Word := if r = 0 then 0 else Tbl.get 0 x.regs r.toNat

/-- Writes a register: a write to g0 is discarded (R53). The written value has good parity. -/
def Task.setReg (x : Task) (r : Reg) (v : Word) : Task :=
  if r = 0 then x else { x with regs := x.regs.put 0 r.toNat v, parity := x.parity.filter (· != r.toNat) }

/-- Task states that live tasks have: neither Idle nor Faulted (R58, R71). -/
def TaskState.live : TaskState → Bool
  | .idle => false
  | .ready => true
  | .running => true
  | .stalled => true
  | .waiting => true
  | .faulted => false

/-- The tile may issue: run bit set, compute branch running, and neither frozen (R285) nor in reset. -/
def Tile.mayIssue (t : Tile) : Bool := t.seq.run && t.power.state == .t0 && !t.frozen

/-- The Running task, where the tile may issue. -/
def Tile.runner (t : Tile) : Option Nat :=
  if t.mayIssue && (t.task t.seq.cur).state == .running then some t.seq.cur else none

/-- Task numbers in rotation after the last task that ran (R55). -/
def Tile.rotation (t : Tile) : List Nat := (List.range 16).map fun i => (t.seq.cur + 1 + i) % 16

/-- The task that the scheduler takes next: the highest priority among Ready tasks, and within it the first after the last
task that ran (R55). -/
def Tile.nextReady (t : Tile) : Option Nat :=
  let ready := t.rotation.filter fun k => (t.task k).state == .ready
  let top := ready.foldl (fun m k => max m (t.task k).prio) 0
  ready.find? fun k => (t.task k).prio == top

/-- Makes task `k` Running (R55). -/
def Tile.run (t : Tile) (k : Nat) : Tile :=
  let t' := t.modTask k fun x => { x with state := .running, stall := none }
  { t' with seq := { t'.seq with cur := k, switches := t'.seq.switches + b2n (t.seq.cur != k) } }

/-- The scheduler at an instruction boundary (R55): the Running task goes on unless a Ready task of higher priority
exists. -/
def Tile.schedule (t : Tile) : Tile :=
  if !t.seq.run || t.frozen then t
  else match t.nextReady with
    | none => t
    | some n =>
      if (t.task t.seq.cur).state == .running then
        if (t.task t.seq.cur).prio < (t.task n).prio then
          (t.modTask t.seq.cur fun x => { x with state := .ready }).run n
        else t
      else t.run n

/-- Tasks in a given state. -/
def Tile.anyTask (t : Tile) (f : Task → Bool) : Bool := (List.range 16).any fun k => f (t.task k)

/-- Every task that is not Idle or Faulted is Waiting, and there is one (R58). -/
def Tile.allWaiting (t : Tile) : Bool :=
  t.anyTask (fun x => x.state == .waiting) && !t.anyTask fun x => x.state.live && x.state != .waiting

/-- The clock of the compute branch after a change of the tasks (R58): T1 with no task Ready or Running, else T0. A tile in
T2 or T3 stays there; leaving them is a wake (R368). -/
def Tile.clock (t : Tile) : Tile :=
  match t.power.state with
  | .t0 | .t1 =>
    let st := if t.anyTask fun x => x.state == .ready || x.state == .running then TPower.t0 else .t1
    { t with power := { t.power with state := st, entering := if t.power.state = .t0 ∧ st = .t1 then none else t.power.entering } }
  | .t2 => t
  | .t3 => t

/-- Scheduling and clock gating after a change of the tasks. -/
def Tile.settle (t : Tile) : Tile := t.clock.schedule.clock

/-- Scheduling and clock gating of a tile; with every live task Waiting, the entry that t_power's depth selects (R58, R365).
A tile already in T2 or T3, one refused before, or one in reset does not begin an entry here. -/
def State.settle (s : State) (p : Nat) : State :=
  let s := (s.modTile p Tile.settle).leftRun (s.tile p) p
  let t := s.tile p
  if t.allWaiting && t.power.state == .t1 && !t.frozen && !t.power.refused then
    if t.power.entering.isSome then s
    else if t.power.depth = 1 || t.power.depth = 2 then s.enterPower p t.power.depth
    else s.modTile p fun t => { t with power := { t.power with lastDepth := 1 } }
  else s

/-! Encodings of instruction words (R59). -/

/-- Format A. -/
def encA (op : Nat) (d a b : Reg) (func : Nat) : Nat :=
  fld op 26 + fld d.toNat 21 + fld a.toNat 16 + fld b.toNat 11 + func

/-- Formats I and S: the field at bits [25:21] is d or b. -/
def encI (op : Nat) (d a : Reg) (imm : Imm16) : Nat := fld op 26 + fld d.toNat 21 + fld a.toNat 16 + imm.toNat

/-- Format B. -/
def encB (op : Nat) (a b : Reg) (off : Imm16) : Nat := fld op 26 + fld a.toNat 21 + fld b.toNat 16 + off.toNat

/-- Formats U and J. -/
def encU (op : Nat) (d : Reg) (imm : Imm21) : Nat := fld op 26 + fld d.toNat 21 + imm.toNat

/-- What an instruction does when it issues: it retires with its effects made, jumps, faults with a code and a detail word,
stalls without effect, waits, or has begun an action whose completion retires it later. -/
inductive Issue where
  | retire (s : State)
  | jump (s : State) (target : Word)
  | fault (code : Nat) (detail : Word)
  | stall (why : Stall)
  | begun (s : State) (why : Stall)
  | wait (s : State)

/-- A task that has faulted: its state and fault record (R75). -/
def Task.fault (x : Task) (code word : Nat) (detail : Word) : Task :=
  { x with state := .faulted, stall := none, credit := none, faultCode := code, faultPc := x.pc, faultInstr := BitVec.ofNat 32 word, faultDetail := detail }

/-- The silent-error detection under which a fault is reported besides (R75, R325); 0 none. -/
def detectionKind (code : Nat) : Nat := if code = 0x15 then 0x0102 else if code = 0x09 then 0x0103 else if code = 0x0A then 0x0104 else 0

/-- Task `k` of tile `p` faults (R75): the task becomes Faulted, its fault record is written, an error report is sent, and
under policy 0 the run bit is cleared. Register parity errors and codes 0x09 and 0x0A are also reported as silent-error detections (R75,
R325). -/
def State.taskFault (s : State) (p k : Nat) (code : Nat) (word : Nat) (detail : Word) : State :=
  let s := s.modTile p fun t =>
    let t := t.modTask k fun x => x.fault code word detail
    { t with seq := { t.seq with run := t.seq.run && t.seq.policy } }
  let s := if code = 0x09 ∨ code = 0x0A then s.addObe Ob.ecc_uncorrectable p 1 64 else s
  let s := s.raise { (s.tile p).report p 0x0200 with task := k, detail := code, detail2 := detail.toNat }
  if detectionKind code = 0 then s
  else s.raise { (s.tile p).report p (detectionKind code) with
    task := k, detail2 := detail.toNat,
    subUnit := if code = 0x0A then (detail.toNat % 2 ^ 23 / 64) % (if s.variant = 1 then 16 else 20) else 0 }

/-- The pc after an instruction that is not a taken branch (R61): executing past the last word faults on the fetch that
would follow, and the instruction's own effects stand. -/
def State.advance (s : State) (p k : Nat) (word : Nat) : State :=
  if ((s.tile p).task k).pc = 0xFFFC#16 then s.taskFault p k 0x13 word 0x10000#64
  else s.modTile p fun t => t.modTask k fun x => { x with pc := x.pc + 4 }

/-- A taken branch or jump (R61): alignment is checked first, then the range of instruction memory. -/
def State.jumpTo (s : State) (p k : Nat) (target : Word) : Option State :=
  if target.toNat % 4 ≠ 0 then none
  else if 0x10000 ≤ target.toNat then none
  else some (s.modTile p fun t => t.modTask k fun x => { x with pc := target.setWidth 16 })

/-- What a taken branch or jump whose target is refused faults with (R61). -/
def jumpFault (target : Word) : Nat := if target.toNat % 4 ≠ 0 then 0x02 else 0x13

/-- Task `k` of tile `p` stalls with a reason (R57). -/
def State.stallTask (s : State) (p k : Nat) (why : Stall) : State :=
  s.modTile p fun t =>
    let t := t.modTask k fun x => { x with state := .stalled, stall := some why }
    { t with seq := { t.seq with stalls := t.seq.stalls + 1 } }

/-- Carries an issue through to the task's next state; `s0` is the state before the instruction, which a fault keeps. -/
def State.finish (s0 : State) (p k : Nat) (word : Nat) : Issue → State
  | .retire s => s.advance p k word
  | .jump s target =>
    match s.jumpTo p k target with
    | some s' => s'
    | none => s0.taskFault p k (jumpFault target) word target
  | .fault code detail => s0.taskFault p k code word detail
  | .stall why => s0.stallTask p k why
  | .begun s why => s.stallTask p k why
  | .wait s => s.modTile p fun t => { (t.modTask k fun x => { x with state := .waiting }) with
      power := { t.power with refused := false } }

/-- The error of the instruction word at the pc (R75): a single-bit one is corrected and counted, 2 an uncorrectable one. -/
def Tile.fetchPoison (t : Tile) (k : Nat) : Nat := Tbl.get 0 t.ecc.imem ((t.task k).pc.toNat / 4)

/-- Counts an issue, and a corrected instruction word (R75). -/
def Tile.countIssue (t : Tile) (k : Nat) : Tile :=
  let n := t.fetchPoison k
  { t with seq := { t.seq with issues := t.seq.issues + 1, ecc := t.seq.ecc + b2n (n == 1) },
           ecc := if n = 1 then { t.ecc with imem := t.ecc.imem.put 0 ((t.task k).pc.toNat / 4) 0 } else t.ecc }

/-- Reports and counts a corrected instruction word (R75, R325). -/
def State.fetched (s : State) (p k : Nat) : State :=
  let one := (s.tile p).fetchPoison k == 1
  let s := s.modTile p fun t => t.countIssue k
  if one then (s.addObe Ob.ecc_corrected p 1 64).raiseTile p 0x0111 0 else s

/-- The func codes of opcode 0x00 that R60 lists. -/
def aluFunc (f : Nat) : Bool := f ≤ 0x09 || (0x10 ≤ f && f ≤ 0x12) || (0x18 ≤ f && f ≤ 0x1B)

/-- A word with a reserved major opcode, or a reserved func code of opcode 0x00 (R59, R60). -/
def reservedWord (w : Nat) : Bool :=
  let op := bits w 31 26
  op == 0x0B || op == 0x12 || op == 0x13 || op == 0x1B || (0x20 ≤ op && op ≤ 0x2F) || op == 0x3E || op == 0x3F ||
    (op == 0x00 && !aluFunc (bits w 10 0))

/-- The registers that an instruction word reads, by its format (R59): a and b of formats A and B, a of I, b and a of S. -/
def wordReads (w : Nat) : List Nat :=
  let op := bits w 31 26
  let x := bits w 25 21
  let y := bits w 20 16
  let z := bits w 15 11
  if op = 0x08 ∨ op = 0x09 then []
  else if op = 0x00 ∨ 0x30 ≤ op then [y, z]
  else if (0x0C ≤ op ∧ op ≤ 0x11) ∨ (0x1C ≤ op ∧ op ≤ 0x1F) then [x, y]
  else [y]

/-- The instruction word that stands at a task's pc. -/
def Tile.wordAt (t : Tile) (k : Nat) : Nat := t.imem.readLE (t.task k).pc.toNat 4

/-- The fault that keeps the Running task from carrying out the instruction it fetches, with the word it records and its detail: an
uncorrectable word (R75), a reserved one in instruction memory (R59; log entry 49), a parity error of a register it reads (R75). -/
def Tile.fetchFault (t : Tile) (k word : Nat) : Option (Nat × Nat × Nat) :=
  if 2 ≤ t.fetchPoison k then some (0x09, word, (t.task k).pc.toNat)
  else if reservedWord (t.wordAt k) then some (0x01, t.wordAt k, 0)
  else ((wordReads word).find? fun r => r != 0 && (t.task k).parity.contains r).map fun r => (0x15, word, r)

/-- The tile's Running task issues an instruction whose word is `word` and whose effect is `f`; then the scheduler acts.
Nothing happens where no task may issue (log entry 8). -/
def issue (p : Nat) (word : Nat) (f : State → Nat → Issue) (s : State) : Out :=
  match (s.tile p).runner with
  | none => s.noEvent
  | some k =>
    let s1 := s.fetched p k
    let s2 := match (s.tile p).fetchFault k word with
      | some x => s1.taskFault p k x.1 x.2.1 (BitVec.ofNat 64 x.2.2)
      | none => s1.finish p k word (f s1 k)
    .next (s2.settle p)

/-- A register of the issuing task. -/
def State.reg (s : State) (p k : Nat) (r : Reg) : Word := ((s.tile p).task k).reg r

/-- Writes a register of the issuing task. -/
def State.setReg (s : State) (p k : Nat) (r : Reg) (v : Word) : State :=
  s.modTile p fun t => t.modTask k fun x => x.setReg r v

/-- An instruction of format A that writes g_d from g_a and g_b. -/
def aluR (p : Nat) (func : Nat) (f : Word → Word → Word) (d a b : Reg) (s : State) : Out :=
  issue p (encA 0x00 d a b func) (fun s k => .retire (s.setReg p k d (f (s.reg p k a) (s.reg p k b)))) s

/-- An instruction of format I that writes g_d from g_a and its immediate. -/
def aluI (p : Nat) (op : Nat) (f : Word → Word) (d a : Reg) (imm : Imm16) (s : State) : Out :=
  issue p (encI op d a imm) (fun s k => .retire (s.setReg p k d (f (s.reg p k a)))) s

/-- A conditional branch (R60, R61). -/
def branch (p : Nat) (op : Nat) (c : Word → Word → Bool) (a b : Reg) (off : Imm16) (s : State) : Out :=
  issue p (encB op a b off) (fun s k =>
    if c (s.reg p k a) (s.reg p k b) then
      .jump s (((s.tile p).task k).pc.setWidth 64 + sext16 off * 4)
    else .retire s) s

/-! Waking (R57, R71). -/

/-- The levels of WAIT's events [7:0]: well w is Open, bound to the sequencer and holds a whole message (R71, R199). -/
def Tile.wellLevels (t : Tile) : Nat :=
  (List.range 8).foldl (fun m w =>
    let x := Tbl.get {} t.wells w
    if x.state = .opened ∧ x.binding = 0 ∧ x.msgs ≠ [] then m + 2 ^ w else m) 0

/-- The events pending for a task: its latched bits [13:8] and the levels [7:0] (R71). -/
def Tile.pendingOf (t : Tile) (k : Nat) : Nat := ((t.task k).pend &&& 0x3F00) ||| t.wellLevels

/-- The events of a WAIT mask that a tile in its power state honours: in T3 only [10] and [13] (R367). -/
def Tile.honoured (t : Tile) (mask : Nat) : Nat := if t.power.state = .t3 then mask &&& 0x2400 else mask

/-- What a WAIT of task `k` with `mask` returns now: the pending events the mask names, and [13] whatever the mask; none
where it goes on waiting (R71). -/
def Tile.waitResult (t : Tile) (k mask : Nat) : Option Nat :=
  let r := t.pendingOf k &&& (t.honoured mask ||| 0x2000)
  if r = 0 then none else some r

/-- Task `k`'s WAIT returns events `r` (R71): written to g_d, the latched bits returned are cleared; the watchdog period
restarts when it leaves Waiting (R74). -/
def State.endWait (s : State) (p k : Nat) (d : Reg) (r : Nat) (word : Nat) : State :=
  let s := s.modTile p fun t => t.modTask k fun x =>
    { (x.setReg d (BitVec.ofNat 64 r)) with
      state := .ready, pend := x.pend - (x.pend &&& r), wdSince := s.now }
  s.advance p k word

/-- The word of the WAIT that a Waiting task executed. -/
def waitWord (t : Tile) (k : Nat) : Nat := t.wordAt k

/-- A tile in T2 that a task's wake event reaches wakes fully, onto its WCLK (R367, R368). -/
def Tile.wakeFull (t : Tile) : Tile :=
  match t.power.state with
  | .t2 =>
    if t.anyTask fun x => x.state == .ready then
      { t with power := { t.power with state := .t0, sourceNow := true, source := true, partWoken := false } }
    else t
  | .t0 => t
  | .t1 => t
  | .t3 => t

/-- A task's wake event reaches a tile: an entry under way is aborted (R365), a tile in T2 wakes fully (R367). -/
def State.wakePower (s : State) (p : Nat) : State :=
  if (s.tile p).anyTask fun x => x.state == .ready then (s.abortEntry p).modTile p Tile.wakeFull else s

/-- Every Waiting task whose events have come becomes Ready (R71). -/
def State.wakeTasks (s : State) (p : Nat) : State :=
  ((List.range 16).foldl (fun s k =>
    let t := s.tile p
    let x := t.task k
    if x.state = .waiting then
      match t.waitResult k x.waitMask.toNat with
      | some r => s.endWait p k x.waitD r (waitWord t k)
      | none => s
    else s) s).wakePower p

/-- Latches events in every task that is not Idle (R71). -/
def Tile.latch (t : Tile) (events : Nat) : Tile :=
  (List.range 16).foldl (fun t k =>
    if (t.task k).state = .idle then t else t.modTask k fun x => { x with pend := x.pend ||| events }) t

/-- A stalled task whose condition has cleared becomes Ready and issues its instruction again (R57). -/
def Tile.unstall (t : Tile) (k : Nat) : Tile := t.modTask k fun x => { x with state := .ready, stall := none }

end Sys2Proof.Machine
end

