-- ==== Sys2Proof/Machine/Cistern.lean ====
section
/-! DEFINITION. The cistern and its scoreboard (R103, R109 to R114, R122, R345): the state of a range, the rules of an access,
reads and writes of a cistern with their ECC, dirty granules (R284) and duplicates into buddy copies. -/

namespace Sys2Proof.Machine

/-- The state of a range (R109); the numbers are t_range's codes. -/
inductive RState where
  | free | empty | filling | full | draining | void
  deriving DecidableEq, Repr

/-- The state of a range, derived in the order of R109. -/
def Range.state (r : Range) : RState :=
  if !r.claimed then .free
  else if r.voidAt.isSome then .void
  else if r.fills ≠ [] then .filling
  else if r.drains ≠ [] then .draining
  else if r.full then .full
  else .empty

/-- t_range's code of a state. -/
def RState.code : RState → Nat
  | .free => 0 | .empty => 1 | .filling => 2 | .full => 3 | .draining => 4 | .void => 5

/-- A scoreboard entry. -/
def Tile.range (t : Tile) (r : Nat) : Range := Tbl.get {} t.ranges r

/-- Changes a scoreboard entry. -/
def Tile.modRange (t : Tile) (r : Nat) (f : Range → Range) : Tile :=
  { t with ranges := t.ranges.put {} r (f (t.range r)) }

/-- An extent overlaps a claimed range. -/
def Range.overlaps (r : Range) (off len : Nat) : Bool :=
  r.claimed && off < (r.start + r.len) * 256 && r.start * 256 < off + len

/-- The claimed ranges that an extent overlaps. -/
def Tile.rangesAt (t : Tile) (off len : Nat) : List Nat :=
  (List.range 64).filter fun r => (t.range r).overlaps off len

/-- Some range of an extent stands in a state. -/
def Tile.anyRange (t : Tile) (off len : Nat) (x : RState) : Bool :=
  (t.rangesAt off len).any fun r => (t.range r).state == x

/-- A trough pair. -/
def Tile.trough (t : Tile) (n : Nat) : Trough := Tbl.get {} t.troughs n

/-- Changes a trough pair. -/
def Tile.modTrough (t : Tile) (n : Nat) (f : Trough → Trough) : Tile :=
  { t with troughs := t.troughs.put {} n (f (t.trough n)) }

/-- The producer half's range id: 0 B, 1 A (t_trough's role bit). -/
def Trough.producer (x : Trough) : Nat := if x.role then x.rangeA else x.rangeB

/-- The consumer half's range id. -/
def Trough.consumer (x : Trough) : Nat := if x.role then x.rangeB else x.rangeA

/-- An extent leaves neither part of it outside one range. -/
def Range.holds (r : Range) (off len : Nat) : Bool :=
  r.claimed && r.start * 256 ≤ off && off + len ≤ (r.start + r.len) * 256

/-- Where a byte `x` stands in a range, the range's end; else `x`. -/
def Range.skip (r : Range) (x : Nat) : Nat :=
  if r.claimed ∧ r.start * 256 ≤ x ∧ x < (r.start + r.len) * 256 then (r.start + r.len) * 256 else x

/-- Some byte of an access falls in a configured pair's declared region and outside both of its ranges (R114). -/
def Tile.strictHit (t : Tile) (off len : Nat) : Bool :=
  (List.range 16).any fun n =>
    let x := t.trough n
    let a := t.range x.rangeA
    let b := t.range x.rangeB
    let lo := max off (x.regionBase * 4096)
    x.configured && a.skip (b.skip (a.skip lo)) < min (off + len) ((x.regionBase + x.regionLen) * 4096)

/-- The meadow of a tile has strict mode set, and the access breaks it (R114). -/
def State.strictFault (s : State) (t : Tile) (off len : Nat) : Bool :=
  match t.meadow with
  | some g => s.obe Ob.meadow_strict g == 1 && t.strictHit off len
  | none => false

/-- The worst poison of the 8 B words of an extent: 0 none, 1 a single-bit error, 2 a double-bit error (R103). -/
def Tile.poison (t : Tile) (off len : Nat) : Nat :=
  (t.ecc.cistern.filter fun e => off < 8 * e.1 + 8 && 8 * e.1 < off + len).foldl (fun m e => max m e.2) 0

/-- The offset of the first 8 B word of an extent with a double-bit error; the extent's own where there is none. -/
def Tile.badWord (t : Tile) (off len : Nat) : Nat :=
  match t.ecc.cistern.find? fun e => e.2 == 2 && off < 8 * e.1 + 8 && 8 * e.1 < off + len with
  | some e => 8 * e.1
  | none => off

/-- A read of a cistern extent has met single-bit errors: they are corrected, counted and put up for write-back (R103, R104). -/
def State.corrected (s : State) (p off len : Nat) : State :=
  let words := ((s.tile p).ecc.cistern.filter fun e =>
    e.2 == 1 && off < 8 * e.1 + 8 && 8 * e.1 < off + len).map (·.1)
  let words := words.filter fun w => !(s.tile p).ecc.writeBack.contains w
  if words = [] then s
  else
    let s := s.modTile p fun t => { t with
      seq := { t.seq with ecc := t.seq.ecc + words.length }
      ecc := { t.ecc with writeBack := t.ecc.writeBack ++ words } }
    let s := ((words.map (· / 8)).eraseDups).foldl (fun (s : State) l => s.lineCorrected p l) s
    (s.addObe Ob.ecc_corrected p words.length 64).raiseTile p 0x0110 0

/-- An uncorrectable cistern error is counted and reported (R103). -/
def State.uncorrectable (s : State) (p off : Nat) : State :=
  (s.addObe Ob.ecc_uncorrectable p 1 64).raise
    { (s.tile p).report p 0x0104 with detail2 := off, subUnit := (off / 64) % (if s.variant = 1 then 16 else 20) }

/-- Bytes of a tile's cistern. -/
def State.cisternRead (s : State) (p off len : Nat) : Bytes := (s.tile p).cistern.readBytes off len

/-- The 4 KiB granules an extent touches. -/
def granules (off len : Nat) : List Nat :=
  if len = 0 then [] else (List.range ((off + len - 1) / 4096 - off / 4096 + 1)).map (· + off / 4096)

/-- Writes bytes into a tile's cistern: fully written words lose their ECC errors, and granules are marked dirty while the
tile is precopied (R284). -/
def Tile.cisternPut (t : Tile) (off : Nat) (bs : Bytes) : Tile :=
  { t with
    cistern := t.cistern.writeBytes off bs
    ecc := { t.ecc with cistern := t.ecc.cistern.filter fun e => !(off ≤ 8 * e.1 && 8 * e.1 + 8 ≤ off + bs.length) }
    dirty := if t.trackDirty then
      (granules off bs.length).foldl (fun d g => if d.contains g then d else d ++ [g]) t.dirty else t.dirty }

/-- An extent lies partly in another: its first byte in it, and how many bytes. -/
def overlap (off len base size : Nat) : Nat × Nat :=
  let lo := max off base
  (lo, min (off + len) (base + size) - lo)

/-- The duplicates that a write into a tile's buddied regions makes (R345): (buddy tile, offset, bytes). -/
def State.duplicates (s : State) (g l off : Nat) (bs : Bytes) : List (Nat × Nat × Bytes) :=
  (s.regions g).filterMap fun x =>
    let r := x.2
    let (lo, n) := overlap off bs.length (bits r 54 32) (bits r 127 96)
    if regionPrecious r && bit r 3 && bits r 15 4 == l && bits r 192 192 == 0 && 0 < n then
      some (bits r 27 16, bits r 86 64 + (lo - bits r 54 32), (bs.drop (lo - off)).take n)
    else none

/-- Moves the append position of the append regions a write reaches (R344): the highest byte written plus 1. -/
def State.moveAppend (s : State) (g l off len : Nat) : State :=
  (s.regions g).foldl (fun s x =>
    let r := x.2
    let (lo, n) := overlap off len (bits r 54 32) (bits r 127 96)
    if bits r 2 0 = 2 ∧ bits r 15 4 = l ∧ 0 < n then
      s.putObe Ob.region_table (g * 64 + x.1)
        (setBits r 191 160 (max (bits r 191 160) (lo + n - bits r 54 32)))
    else s) s

/-- The extent lies in the buddy copy that a tile holds of another tile's region: the tile's own writes are refused (R345). -/
def State.inBuddyCopy (s : State) (t : Tile) (off len : Nat) : Bool :=
  match t.meadow, t.logical with
  | some g, some l => (s.regions g).any fun x =>
      regionPrecious x.2 && bit x.2 3 && bits x.2 27 16 == l &&
        0 < (overlap off len (bits x.2 86 64) (bits x.2 127 96)).2
  | _, _ => false

/-- The next sequence number of a flow of a tile (R177), taken. -/
def State.takeSeq (s : State) (p flow : Nat) : Nat × State :=
  let n := Tbl.get 0 (s.tile p).ni.seqs flow
  (n, s.modTile p fun t => { t with ni := { t.ni with seqs := t.ni.seqs.put 0 flow ((n + 1) % 65536) } })

/-- The deadline of a packet without one of its own: the clamp at issue makes it the latest that R128 allows then (R127). -/
def lastDeadline : Nat := 2 ^ 64

/-- The deadline field of a deadline, clamped at issue (R128). -/
def deadlineField (now d : Nat) : Nat :=
  let lo := now - 16384 * 64
  let hi := now + 16383 * 64
  ((max lo (min hi d)) >>> 6) % 65536

/-- A request that a tile's network interface is given to send, waiting there (R174): the header but for what issue fills in
(epoch, route, intermediate). -/
def State.tileRequest (s : State) (p cls op flow dst dstKind addr arg0 arg1 tag deadline : Nat) (data : Bytes) :
    State :=
  let t := s.tile p
  let (n, s) := s.takeSeq p flow
  s.newPkt {
    h := { cls, op, flow, dst, dstKind, addr, arg0, arg1, tag, seq := n, src := t.logical.getD 0xFFF,
           meadow := t.meadow.getD 0xFF, length := ceilDiv data.length 64 }
    data, since := s.now, issuer := p, deadlineFull := deadline }

/-- The flow of the duplicates that a network interface sends (log entry 17). -/
def dupFlow : Nat := 0x0F

/-- Writes bytes into a tile's cistern, whatever their source: the write itself, the append positions it moves, and a C0
WRITE for each duplicate it owes (R344, R345). -/
def State.cisternWrite (s : State) (p off : Nat) (bs : Bytes) : State :=
  let s := s.modTile p fun t => t.cisternPut off bs
  match (s.tile p).meadow, (s.tile p).logical with
  | some g, some l =>
    let ds := s.duplicates g l off bs
    let s := s.moveAppend g l off bs.length
    ds.foldl (fun s d =>
      (pieces d.2.1 d.2.2.length).foldl (fun s pc =>
        let n := s.nextPkt
        let s := s.modTile p fun t => { t with ni := { t.ni with dups := t.ni.dups ++ [n] } }
        let s := s.tileRequest p 0 0x02 dupFlow d.1 0 (mkLoc d.1 (d.2.1 + pc.1)) pc.2 0 n lastDeadline
          ((d.2.2.drop pc.1).take pc.2)
        match s.pkt n with
        | some k => s.setPkt n { k with landing := d.2.1 + pc.1 }
        | none => s) s) s
  | _, _ => s

end Sys2Proof.Machine
end

