-- ==== Sys2Proof/Machine/TObj.lean ====
section
/-! DEFINITION. The t_ control objects of a tile (R76 to R78): what a load of each word reads, and what a store of each word
does or faults with. -/

namespace Sys2Proof.Machine

/-- A well. -/
def Tile.well (t : Tile) (w : Nat) : Well := Tbl.get {} t.wells w

/-- Changes a well. -/
def Tile.modWell (t : Tile) (w : Nat) (f : Well → Well) : Tile :=
  { t with wells := t.wells.put {} w (f (t.well w)) }

/-- A pump. -/
def Tile.pump (t : Tile) (n : Nat) : Pump := Tbl.get {} t.pumps n

/-- Changes a pump. -/
def Tile.modPump (t : Tile) (n : Nat) (f : Pump → Pump) : Tile :=
  { t with pumps := t.pumps.put {} n (f (t.pump n)) }

/-- A counter. -/
def Tile.counter (t : Tile) (n : Nat) : Counter := Tbl.get {} t.counters n

/-- Changes a counter. -/
def Tile.modCounter (t : Tile) (n : Nat) (f : Counter → Counter) : Tile :=
  { t with counters := t.counters.put {} n (f (t.counter n)) }

/-- A barrier. -/
def Tile.barrier (t : Tile) (b : Nat) : TBarrier := Tbl.get {} t.barriers b

/-- Changes a barrier. -/
def Tile.modBarrier (t : Tile) (b : Nat) (f : TBarrier → TBarrier) : Tile :=
  { t with barriers := t.barriers.put {} b (f (t.barrier b)) }

/-- t_task's state code (R54). -/
def TaskState.code : TaskState → Nat
  | .idle => 0 | .ready => 1 | .running => 2 | .stalled => 3 | .waiting => 4 | .faulted => 5

/-- t_task's stall reason (R57). -/
def Stall.code : Stall → Nat
  | .load _ _ => 1 | .store _ _ => 2 | .pump _ _ => 3 | .send _ _ => 4 | .waitany _ => 5 | .fold _ => 6 | .token _ => 7
  | .credit _ _ => 8 | .barrier _ _ => 9 | .release _ => 10 | .swap _ => 11

/-- t_task[n] (R77). -/
def Task.word (x : Task) : Nat :=
  x.pc.toNat + fld x.state.code 16 + fld x.prio 20 + fld (b2n x.wdEnable) 22 +
    fld (match x.state, x.stall with | .stalled, some r => r.code | _, _ => 0) 24

/-- t_seq_ctrl (R77). -/
def Tile.seqCtrl (t : Tile) : Nat :=
  b2n t.seq.run + fld (b2n t.seq.policy) 1 + fld (b2n t.seq.hang) 2 +
    fld (b2n (t.anyTask fun x => x.state == .faulted)) 3 + fld t.seq.cur 4 + fld t.seq.wdPeriod 16 +
    fld t.seq.sendDefault 32

/-- t_id (R78). -/
def Tile.id (t : Tile) (p variant : Nat) : Nat :=
  t.logical.getD 0 + fld p 12 + fld (t.meadow.getD 0) 32 + fld variant 40

/-- The words of t_range[n] (R109). -/
def Range.word (r : Range) (i : Nat) : Nat :=
  if i = 0 then r.start + fld (if r.claimed then r.len else 0) 16 + fld r.state.code 32 +
    fld (b2n (r.groups != [])) 35 + fld r.fills.length 36 + fld r.drains.length 44
  else r.fillsDone % 2 ^ 32 + fld r.lastAbort 32

/-- The words of t_pump[n] (R120). -/
def Pump.word (u : Pump) (i : Nat) : Nat :=
  match i with
  | 0 => u.ringBase + fld u.ringLen 24
  | 1 => u.head + fld u.tail 16 + fld (u.jobs.filter (·.started)).length 32
  | 2 => b2n u.error + fld u.lastErr 8 + fld u.lastErrSlot 16
  | 3 => u.bytesMoved % 2 ^ 64
  | 4 => u.sluiceWait % 2 ^ 64
  | 5 => u.scoreWait % 2 ^ 64
  | _ => 0

/-- t_trough[p] (R123). -/
def Trough.word (x : Trough) : Nat :=
  b2n x.configured + fld (b2n x.role) 1 + fld (b2n x.statePair) 2 + fld x.rangeA 4 + fld x.rangeB 10 +
    fld x.regionBase 16 + fld x.regionLen 27 + fld (x.swaps % 65536) 48

/-- Entries of a well in use (R190). -/
def Well.entries (w : Well) : Nat := (w.msgs.map fun m => m.descs.length).foldl (· + ·) 0

/-- t_well's state code (R191). -/
def WellState.code : WellState → Nat
  | .closed => 0 | .opened => 1 | .resetting => 2

/-- The words of t_well[w] (R191). -/
def Well.word (w : Well) (i : Nat) : Nat :=
  if i = 0 then w.state.code + fld w.binding 2 + fld w.gen 8 + fld w.entries 16 + fld w.msgs.length 21 +
    fld (w.placed % 65536) 32 + fld (w.refused % 65536) 48
  else w.discarded % 65536 + fld (w.expired % 65536) 16 + fld (w.lost % 65536) 32

/-- The words of t_counter[n] (R144). -/
def Counter.word (c : Counter) (i : Nat) : Nat :=
  if i = 0 then c.count + fld c.terminal 32
  else c.opcode + fld c.arg 8 + fld c.tapMode 24 + fld (b2n c.reload) 26 + fld (b2n c.wake) 27 + fld c.matchOp 32 +
    fld c.tapClass 40 + fld c.tapIndex 43 + fld c.pending 48 + fld (b2n c.overflow) 56

/-- t_barrier[b] (R278). -/
def TBarrier.word (b : TBarrier) : Nat :=
  b2n b.enable + fld b.gen 8 + fld b.expected 16 + fld (b.arrivals % 65536) 32 + fld (b.completed % 65536) 48

/-- t_power (R364). -/
def TilePower.word (x : TilePower) : Nat :=
  x.depth + fld (b2n x.source) 2 + fld (b2n x.sourceNow) 3 + fld x.lastDepth 8 + fld x.lastAbort 10 +
    fld x.lastRefuser 12 + fld (x.refusals % 256) 16 + fld (x.aborts % 256) 24 + fld (b2n x.wokeDark) 32

/-- The credit capacity of a tile (R373). -/
def State.creditCapacity (s : State) (t : Tile) : Nat :=
  match t.meadow with
  | some g => s.obe Ob.credit_capacity g
  | none => 32768

/-- t_credit (R373). -/
def State.creditWord (s : State) (t : Tile) : Nat :=
  t.power.balance + fld (s.creditCapacity t) 32 + fld (t.power.grants % 256) 48

/-- The words of t_fault[n] (R77). -/
def Task.faultWord (x : Task) (i : Nat) : Nat :=
  if i = 0 then x.faultCode + fld x.faultPc.toNat 8 + fld x.faultInstr.toNat 32 else x.faultDetail.toNat

/-- The well status record's words (R200). -/
def Well.statusWord (w : Well) (i : Nat) : Nat :=
  match i with
  | 0 => w.word 0
  | 1 => match w.msgs with
    | [] => 0
    | m :: _ => m.sender + fld (m.descs.length - 1) 12 + fld 1 14
  | 2 => w.lastPlaced
  | 3 => w.lastTaken
  | _ => 0

/-- The 8 B word of the t_ objects at a local offset (R76); none at a reserved offset (fault 0x06). -/
def State.tWord (s : State) (p off : Nat) : Option Nat :=
  let t := s.tile p
  let o := off - 0x600000
  if o = 0x00 then some (t.id p s.variant)
  else if o = 0x08 then some t.seqCtrl
  else if o = 0x10 then some t.seq.timer
  else if o = 0x18 then some s.now
  else if 0x100 ≤ o ∧ o < 0x180 then some (t.task ((o - 0x100) / 8)).word
  else if 0x200 ≤ o ∧ o < 0x300 then some ((t.task ((o - 0x200) / 16)).faultWord ((o / 8) % 2))
  else if 0x300 ≤ o ∧ o < 0x340 then some (Tbl.get 0 t.seq.sendStat ((o - 0x300) / 8))
  else if 0x340 ≤ o ∧ o < 0x400 then
    some (Config.perfWord ((o - 0x340) / 8) [t.seq.issues, t.seq.stalls, t.seq.switches, t.seq.ecc]).toNat
  else if 0x400 ≤ o ∧ o < 0x800 then some ((t.range ((o - 0x400) / 16)).word ((o / 8) % 2))
  else if 0x800 ≤ o ∧ o < 0xA00 then some ((t.pump ((o - 0x800) / 64)).word ((o / 8) % 8))
  else if 0xA00 ≤ o ∧ o < 0xA80 then some (t.trough ((o - 0xA00) / 8)).word
  else if 0xB00 ≤ o ∧ o < 0xB80 then some ((t.well ((o - 0xB00) / 16)).word ((o / 8) % 2))
  else if 0xC00 ≤ o ∧ o < 0xD00 then some ((t.counter ((o - 0xC00) / 16)).word ((o / 8) % 2))
  else if 0xD00 ≤ o ∧ o < 0xD80 then some (t.barrier ((o - 0xD00) / 8)).word
  else if o = 0xE00 then some t.power.word
  else if o = 0xE08 then some (s.creditWord t)
  else none

/-- What a store of a t_ word does: the tile after it, or the fault it takes and its detail word. -/
abbrev TStore := Except (Nat × Nat) Tile

/-- A store to t_seq_ctrl (R77). -/
def Tile.storeSeqCtrl (t : Tile) (v : Nat) : TStore :=
  .ok { t with seq := { t.seq with
    run := bit v 0, policy := bit v 1, hang := t.seq.hang && !bit v 2, wdPeriod := bits v 31 16,
    sendDefault := if bits v 47 32 = 0 then 500 else bits v 47 32 } }

/-- The folds that a stopped task leaves (R69, R77): its own is withdrawn, or where its switch is under way goes on without it. -/
def Stream.dropFolds (x : Stream) (k : Nat) : List FoldReq :=
  let mine (f : FoldReq) : Bool := match f.task with
    | some (j, _) => j == k
    | none => false
  match x.folds with
  | f :: fs => (if mine f then (if x.folding then [{ f with task := none }] else []) else [f]) ++ fs.filter fun g => !mine g
  | [] => []

/-- A store to t_task[k] (R77): the pc, the priority, the watchdog enable and a command. Where several faults apply, the reserved command
comes first, then the pc's alignment, then the wrong state, an order the spec does not state [DESIGN CHOICE, log entry 46]. -/
def Tile.storeTask (now : Nat) (t : Tile) (k v : Nat) : TStore :=
  let x := t.task k
  let cmd := bits v 31 28
  let pcChanges := bits v 15 0 != x.pc.toNat
  if 4 ≤ cmd then .error (0x16, v)
  else if pcChanges && bits v 1 0 != 0 then .error (0x02, bits v 15 0)
  else if pcChanges && x.state != .idle then .error (0x14, v)
  else if cmd = 1 ∧ x.state ≠ .idle then .error (0x14, v)
  else if cmd = 3 ∧ x.state ≠ .faulted then .error (0x14, v)
  else
    let x1 := { x with
      pc := BitVec.ofNat 16 v, prio := bits v 21 20, wdEnable := bit v 22,
      wdSince := if bit v 22 && !x.wdEnable then now else x.wdSince }
    let x2 :=
      if cmd = 1 then
        { x1 with regs := [], parity := [], state := .ready, stall := none, credit := none, pend := 0, wdSince := now }
      else if cmd = 2 then
        if x.state.live then { x1 with state := .idle, stall := none, credit := none } else x1
      else if cmd = 3 then { x1 with state := .idle, credit := none }
      else x1
    let t := t.modTask k fun _ => x2
    .ok (if cmd = 2 then { t with stream := { t.stream with folds := t.stream.dropFolds k } } else t)

/-- Slots of the ring in use: posted and not yet passed by the head (R118, R120). -/
def Pump.ringUsed (u : Pump) : Nat := (u.jobs.filter fun j => j.slot != 0xFFFF).length + u.doneSlots.length

/-- The pump's ring is empty (R77, R120). -/
def Pump.ringEmpty (u : Pump) : Bool := u.ringUsed == 0

/-- A store to word `i` of t_pump[n] (R120). -/
def Tile.storePump (cistern : Nat) (t : Tile) (n i v : Nat) : TStore :=
  let u := t.pump n
  if i = 0 then
    let base := bits v 22 0
    let len := bits v 39 24
    if base = u.ringBase ∧ len = u.ringLen then .ok t
    else if !u.ringEmpty then .error (0x0B, 0x600800 + 64 * n)
    else if base % 64 ≠ 0 then .error (0x02, base)
    else if cistern < base + 64 * len then .error (0x06, base)
    else .ok (t.modPump n fun u => { u with ringBase := base, ringLen := len, head := 0, tail := 0 })
  else if i = 2 then .ok (t.modPump n fun u => { u with error := u.error && !bit v 0 })
  else .error (0x0B, 0x600800 + 64 * n + 8 * i)

/-- A store to t_trough[n] (R123). -/
def Tile.storeTrough (t : Tile) (n v : Nat) : TStore :=
  let x := t.trough n
  let y : Trough := { x with
    configured := bit v 0, statePair := bit v 2, rangeA := bits v 9 4, rangeB := bits v 15 10,
    regionBase := bits v 26 16, regionLen := bits v 37 27 }
  if x.configured && { y with configured := true } != x then .error (0x0B, 0x600A00 + 8 * n)
  else if bit v 0 && !(t.range y.rangeA).claimed then .error (0x0C, y.rangeA)
  else if bit v 0 && !(t.range y.rangeB).claimed then .error (0x0C, y.rangeB)
  else .ok (t.modTrough n fun _ => y)

/-- A well enters Resetting (R194): it discards every message it holds. -/
def Well.discard (w : Well) : Well :=
  { w with state := .resetting, discarded := (w.discarded + w.msgs.length) % 65536, msgs := [] }

/-- A well's transition into Open (R193). -/
def Well.toOpen (w : Well) : Well := { w with state := .opened, gen := (w.gen + 1) % 256 }

/-- A store to word 0 of t_well[w] (R191 to R193). -/
def Tile.storeWell (variant : Nat) (t : Tile) (w v : Nat) : TStore :=
  let x := t.well w
  let cmd := bits v 7 4
  let bind := bits v 3 2
  if 4 ≤ cmd then .error (0x16, v)
  else if bind ≠ x.binding ∧ x.state ≠ .closed then .error (0x0B, 0x600B00 + 16 * w)
  else if variant = 2 ∧ bind = 1 then .error (0x16, v)
  else if cmd = 1 ∧ x.state ≠ .closed then .error (0x14, v)
  else if 2 ≤ cmd ∧ x.state ≠ .opened then .error (0x14, v)
  else
    let x1 := { x with binding := bind }
    .ok (t.modWell w fun _ =>
      if cmd = 1 then x1.toOpen
      else if cmd = 2 then { x1.discard with reopen := false }
      else if cmd = 3 then { x1.discard with reopen := true }
      else x1)

/-- A store to word `i` of t_counter[n] (R144, R145): the RW fields of that half; pending is cleared; a stopped counter
counts again. A terminal reached before takes its effects first (`State.takeTerminals`). -/
def Tile.storeCounter (t : Tile) (n i v : Nat) : TStore :=
  if i = 0 then
    .ok (t.modCounter n fun c =>
      { c with count := bits v 31 0, terminal := bits v 63 32, pending := 0, stopped := false })
  else if 0x08 ≤ bits v 7 0 ∧ bits v 7 0 ≤ 0xBF then .error (0x16, v)
  else
    .ok (t.modCounter n fun c =>
      { c with opcode := bits v 7 0, arg := bits v 23 8, tapMode := bits v 25 24, reload := bit v 26, wake := bit v 27,
               matchOp := bits v 39 32, tapClass := bits v 42 40, tapIndex := bits v 47 43, pending := 0,
               overflow := c.overflow && !bit v 56, stopped := false })

/-- A store to t_barrier[b] (R278). -/
def Tile.storeBarrier (t : Tile) (b v : Nat) : TStore :=
  let x := t.barrier b
  if bits v 31 16 ≠ x.expected ∧ x.enable then .error (0x0B, 0x600D00 + 8 * b)
  else .ok (t.modBarrier b fun x => { x with enable := bit v 0, expected := bits v 31 16 })

/-- A store to t_power (R364). -/
def Tile.storePower (t : Tile) (v : Nat) : TStore :=
  if bits v 1 0 = 3 then .error (0x16, v)
  else .ok { t with power := { t.power with depth := bits v 1 0, source := bit v 2 } }

/-- A store of the 8 B word at a local offset of the t_ objects (R77): the tile after it, or the fault and its detail. A store of t_timer
arms its event once; where fabric time has passed the value already, the event comes at once, a case the spec does not state [DESIGN CHOICE,
log entry 46]. -/
def State.tStore (s : State) (p off v : Nat) : TStore :=
  let t := s.tile p
  let o := off - 0x600000
  if (s.tWord p off).isNone then .error (0x06, off)
  else if o = 0x08 then t.storeSeqCtrl v
  else if o = 0x10 then .ok { t with seq := { t.seq with timer := v, timerArmed := true } }
  else if 0x100 ≤ o ∧ o < 0x180 then t.storeTask s.now ((o - 0x100) / 8) v
  else if 0x800 ≤ o ∧ o < 0xA00 then t.storePump (cisternBytes s.variant) ((o - 0x800) / 64) ((o / 8) % 8) v
  else if 0xA00 ≤ o ∧ o < 0xA80 then t.storeTrough ((o - 0xA00) / 8) v
  else if 0xB00 ≤ o ∧ o < 0xB80 ∧ (o / 8) % 2 = 0 then t.storeWell s.variant ((o - 0xB00) / 16) v
  else if 0xC00 ≤ o ∧ o < 0xD00 then t.storeCounter ((o - 0xC00) / 16) ((o / 8) % 2) v
  else if 0xD00 ≤ o ∧ o < 0xD80 then t.storeBarrier ((o - 0xD00) / 8) v
  else if o = 0xE00 then t.storePower v
  else .error (0x0B, off)

end Sys2Proof.Machine
end

