-- ==== Sys2Proof/Machine/StreamOps.lean ====
section
/-! DEFINITION. The stream switch's operations (R132 to R160): configuration slots and their entries, queues and credit,
passing words on, counters, tokens at sinks, quiet. -/

namespace Sys2Proof.Machine

/-! The configuration slot (R137). -/

/-- A 32-bit field of the slot in force. -/
def Tile.slotWord (t : Tile) (off n : Nat) : Nat := t.slots.readLE (4096 * t.stream.slot + off) n

/-- A slot is marked loaded (R137). -/
def Tile.slotLoaded (t : Tile) (n : Nat) : Bool := bit (t.slots.readLE (4096 * n) 4) 8

/-- The route entry of number `e` (R137, R138, R159). -/
def Tile.entry (t : Tile) (e : Nat) : Nat := t.slotWord (0x40 + 4 * e) 4

/-- An entry is in use. -/
def entryOn (r : Nat) : Bool := bit r 0

/-- Lanes of an entry's gang (R138). -/
def entryGang (r : Nat) : Nat := 2 ^ bits r 10 9

/-- The key of an input class and index. -/
def inKey (cls idx : Nat) : Nat := cls * 32 + idx

/-- The input lane `k` of an entry's gang. A bypass input's index holds its direction in [1:0] and its lane in [2]; the
lanes of a ganged local source are keyed 256 apart. -/
def entryInput (r k : Nat) : Nat :=
  if bits r 3 1 = 4 then inKey 4 (bits r 8 4 + 4 * k)
  else if bits r 3 1 = 5 then inKey 5 (bits r 8 4) + 256 * k
  else inKey (bits r 3 1) (bits r 8 4 + k)

/-- The entries that an input feeds, with the lane of their gang (R158). -/
def Tile.fed (t : Tile) (key : Nat) : List (Nat × Nat) :=
  (List.range 72).filterMap fun e =>
    let r := t.entry e
    if entryOn r then
      ((List.range (entryGang r)).find? fun k => entryInput r k == key).map fun k => (e, k)
    else none

/-- Capacity of the slack queue of an entry in words (R138). -/
def entrySlack (r : Nat) : Nat := 8 * bits r 17 11

/-- A local source's options (R139). -/
def Tile.sourceOpt (t : Tile) (n : Nat) : Nat := t.slotWord (0x160 + n) 1

/-- A local source is a graph source. -/
def Tile.graphSource (t : Tile) (n : Nat) : Bool := bit (t.sourceOpt n) 0

/-- A local source feeds an entry of the slot in force. -/
def Tile.sourceUsed (t : Tile) (n : Nat) : Bool := t.fed (inKey 5 n) != []

/-! Queues (R133, R138). -/

/-- Words of elastic credit at a hop; also of a local source's and a sink's queue (log entry 18). -/
def hopCredit : Nat := 4

/-- An input queue. -/
def Tile.inQueue (t : Tile) (key : Nat) : List StreamWord := Tbl.get [] t.stream.inQ key

/-- Sets an input queue. -/
def Tile.setIn (t : Tile) (key : Nat) (q : List StreamWord) : Tile :=
  { t with stream := { t.stream with inQ := t.stream.inQ.put [] key q } }

/-- A slack queue. -/
def Tile.slackQueue (t : Tile) (key : Nat) : List StreamWord := Tbl.get [] t.stream.slackQ key

/-- Sets a slack queue. -/
def Tile.setSlack (t : Tile) (key : Nat) (q : List StreamWord) : Tile :=
  { t with stream := { t.stream with slackQ := t.stream.slackQ.put [] key q } }

/-- A sink's queue. -/
def Tile.sinkQueue (t : Tile) (key : Nat) : List StreamWord := Tbl.get [] t.stream.sinkQ key

/-- Sets a sink's queue. -/
def Tile.setSink (t : Tile) (key : Nat) (q : List StreamWord) : Tile :=
  { t with stream := { t.stream with sinkQ := t.stream.sinkQ.put [] key q } }

/-- Lanes of the stream that a local source feeds: the widest gang of its entries. -/
def Tile.sourceGang (t : Tile) (n : Nat) : Nat :=
  (t.fed (inKey 5 n)).foldl (fun m e => max m (entryGang (t.entry e.1))) 1

/-- A local source has a credit on each lane. -/
def Tile.sourceCredit (t : Tile) (n : Nat) : Bool :=
  (List.range (t.sourceGang n)).all fun k => (t.inQueue (inKey 5 n + 256 * k)).length < hopCredit

/-- A data word. -/
def StreamWord.isData : StreamWord → Bool
  | .data _ => true
  | .token _ _ => false
  | .endWord _ => false

/-- A local source emits a word on the next lane of its gang, the lowest lane carrying the earliest word (R132). The lane's data words are
counted, and an end word is given the count of the lane that it enters (R140, R142). -/
def Tile.emit (t : Tile) (n : Nat) (w : StreamWord) : Tile :=
  let lane := Tbl.get 0 t.stream.sourcePos n % t.sourceGang n
  let key := inKey 5 n + 256 * lane
  let c := Tbl.get 0 t.stream.laneCount key
  let w' := match w with
    | .endWord _ => .endWord (c % 2 ^ 32)
    | w => w
  let c' := match w with
    | .data _ => c + 1
    | .token _ _ => c
    | .endWord _ => 0
  let t := t.setIn key (t.inQueue key ++ [w'])
  { t with stream := { t.stream with
    laneCount := t.stream.laneCount.put 0 key c'
    sourcePos := t.stream.sourcePos.put 0 n ((lane + 1) % t.sourceGang n) } }

/-- A local source may emit: it has a credit on each lane, and no drain or fold has stopped it (R133, R152). -/
def Tile.sourceReady (t : Tile) (n : Nat) : Bool := t.sourceCredit n && !t.stream.stopped.contains n

/-! Tokens (R141). -/

/-- Structural token opcodes (R141). -/
def structural (op : Nat) : Bool := op == 3 || op == 5 || op == 6 || op == 7

/-- Opcodes that R141 reserves. -/
def tokenReserved (op : Nat) : Bool := op == 0 || (8 ≤ op && op ≤ 0xBF)

/-- A structural token or an end word (R143, R149). -/
def StreamWord.isStructural : StreamWord → Bool
  | .data _ => false
  | .token op _ => structural op
  | .endWord _ => true

/-! Counters (R144, R145). -/

/-- What follows when a counter has reached its terminal count (R145). -/
def Counter.terminate (c : Counter) : Counter :=
  { c with
    reached := false
    pending := if c.opcode = 0 ∨ c.pending = 255 then c.pending else c.pending + 1
    overflow := c.overflow || (c.opcode != 0 && c.pending == 255)
    count := if c.reload then 0 else c.count
    stopped := !c.reload }

/-- The terminal of counter `n`: the emission, wake event [9], the report of an emission lost (R145). -/
def State.counterTerminal (s : State) (p n : Nat) : State :=
  let c := (s.tile p).counter n
  let s := s.modTile p fun t =>
    let t := t.modCounter n Counter.terminate
    if c.wake then t.latch 0x200 else t
  let s := if c.opcode ≠ 0 ∧ c.pending = 255 then s.raiseTile p 0x0205 n else s
  if c.wake then s.wakeTasks p else s

/-- A counter counts one: a terminal still to come is taken first; a stopped counter counts nothing (R145). -/
def State.countUp (s : State) (p n : Nat) : State :=
  let s := if ((s.tile p).counter n).reached then s.counterTerminal p n else s
  s.modTile p fun t => t.modCounter n fun c =>
    if c.stopped then c
    else
      let v := (c.count + 1) % 2 ^ 32
      { c with count := v, reached := decide (v = c.terminal ∧ c.terminal ≠ 0) }

/-- A counter taps an input (R144). -/
def Counter.taps (c : Counter) (key : Nat) : Bool := c.tapMode != 0 && inKey c.tapClass c.tapIndex == key

/-- A word matches a counter's tap mode (R144). -/
def Counter.counts (c : Counter) (w : StreamWord) : Bool :=
  match w with
  | .data _ => c.tapMode == 1
  | .token op _ => c.tapMode == 2 && c.matchOp == op
  | .endWord _ => c.tapMode == 3

/-- The counters that a word of an input counts (R145). -/
def Tile.tapped (t : Tile) (key : Nat) (w : StreamWord) : List Nat :=
  (List.range 16).filter fun n => (t.counter n).taps key && (t.counter n).counts w

/-- Emissions of a counter not yet sent, that of a terminal whose effects are still to come among them (R145). -/
def Counter.unsent (c : Counter) : Nat := c.pending + b2n (c.reached && c.opcode != 0)

/-- An input is held: a counter that taps it has 255 emissions pending (R145). -/
def Tile.tapHeld (t : Tile) (key : Nat) : Bool :=
  (List.range 16).any fun n => (t.counter n).taps key && 255 ≤ (t.counter n).unsent

/-- The terminals that counters have reached and whose effects are still to come take effect (R145): before a store, a slot or a flush
changes the counters. -/
def State.takeTerminals (s : State) (p : Nat) : State :=
  (List.range 16).foldl (fun s n => if ((s.tile p).counter n).reached then s.counterTerminal p n else s) s

/-! Sinks (R139, R142, R143, R148, R152). -/

/-- The step number of a tile's meadow (R279). -/
def State.stepOf (s : State) (p : Nat) : Nat :=
  match (s.tile p).meadow with
  | some g => s.obe Ob.step_number g
  | none => 0

/-- The stream port that an address field names (R85). -/
def streamPort (a : Nat) : Option Nat := if bit a 23 then some (a % 4) else none

/-- The address fields A, B, C of an operation descriptor and D of its extension (R83, R84). -/
def UnitOp.addrs (o : UnitOp) : List Nat :=
  [bits o.desc 215 192, bits o.desc 263 240, bits (o.ext.getD 0) 183 160]

/-- The stream ports that an operation reads (R85): A, B and D. -/
def UnitOp.readPorts (o : UnitOp) : List Nat := o.addrs.filterMap streamPort

/-- The stream port that an operation writes: C's (R85). -/
def UnitOp.writePort (o : UnitOp) : Option Nat := streamPort (bits o.desc 311 288)

/-- An operation of a unit reads or writes a stream port. -/
def UnitOp.streams (o : UnitOp) : Bool := o.readPorts != [] || o.writePort.isSome

/-- A sink has consumed a structural token or an end word: `how` 1 END_STEP, 2 DRAIN, 3 an end word (R142, R152, R153). -/
def Tile.sinkTook (t : Tile) (sink how : Nat) : Tile :=
  { t with stream := { t.stream with sinkEnd := t.stream.sinkEnd.put 0 sink how } }

/-- A sink consumes a structural token or end word: END_STEP's argument is checked against the step number, an end word's
count against the words taken (R142, R152). `key` is the sink's queue. -/
def State.sinkConsume (s : State) (p key : Nat) (w : StreamWord) : State :=
  let sink := key / 8
  match w with
  | .token op arg =>
    if op = 3 then
      let s := s.modTile p fun t => t.sinkTook sink 1
      if arg ≠ s.stepOf p % 65536 then s.raiseTile p 0x0209 arg else s
    else if op = 5 then s.modTile p fun t => t.sinkTook sink 2
    else s
  | .endWord n =>
    let c := Tbl.get 0 (s.tile p).stream.sinkCount key
    let s := s.modTile p fun t =>
      { (t.sinkTook sink 3) with stream := { (t.sinkTook sink 3).stream with sinkCount := t.stream.sinkCount.put 0 key 0 } }
    if bit ((s.tile p).entry (40 + sink)) 18 ∧ n ≠ c % 2 ^ 32 then s.raiseTile p 0x0206 n else s
  | .data _ => s

/-- A sink takes a data word into its queue. -/
def Tile.sinkData (t : Tile) (key : Nat) (w : StreamWord) : Tile :=
  let t := t.setSink key (t.sinkQueue key ++ [w])
  { t with stream := { t.stream with
    sinkCount := t.stream.sinkCount.put 0 key ((Tbl.get 0 t.stream.sinkCount key + 1) % 2 ^ 32) } }

/-- A sink is closed: it has consumed an end word in this slot and step (R142). -/
def Tile.sinkClosed (t : Tile) (sink : Nat) : Bool := Tbl.get 0 t.stream.sinkEnd sink == 3

/-- A sink can take a word now (R133, R142, R148). -/
def Tile.sinkRoom (t : Tile) (key : Nat) : Bool :=
  !t.sinkClosed (key / 8) && (t.sinkQueue key).length < hopCredit

/-- The control input of a steering unit (R139). -/
def isControl (sink : Nat) : Bool := sink == 6 || sink == 9 || sink == 12 || sink == 15

/-- A BARRIER arrival of a tile at a barrier (R278): the REDUCE to the meadow's entry at port die W, and the arrivals
field. -/
def State.barrierArrive (s : State) (p b : Nat) : State :=
  let t := s.tile p
  let x := t.barrier b
  let g := t.meadow.getD 0
  let s := s.modTile p fun t => t.modBarrier b fun x => { x with arrivals := (x.arrivals + 1) % 65536 }
  s.tileRequest p 3 0x04 dupFlow 0 1
    (fld 4 60 + fld 4 44 + fld (0xFFFFFF00 + g) 12 + 8 * (1 + b)) (1 + fld 8 32) (x.expected + fld x.gen 16) 0
    lastDeadline (toLE 8 1)

/-- A FOLD token is consumed at the fold sink (R150): a pending FOLD instruction names the slot, else the token; a token that
names an unloaded slot with no instruction pending is reported and does nothing. -/
def State.foldToken (s : State) (p arg : Nat) : State :=
  let t := s.tile p
  if t.stream.folds ≠ [] then s.modTile p fun t => { t with stream := { t.stream with folding := true } }
  else if t.slotLoaded (arg % 8) then
    s.modTile p fun t => { t with stream := { t.stream with
      folds := [{ slot := arg % 8, atQuiet := false, task := none }], folding := true } }
  else s.raiseTile p 0x0208 (arg % 8)

/-- A sink takes a word (R139, R142, R143, R148, R150). At an operand port it waits for its turn; a control input discards END_ROW,
END_BLOCK and user tokens and counts them; the fold and barrier sinks act at once. -/
def State.sinkTake (s : State) (p key : Nat) (w : StreamWord) : State :=
  let sink := key / 8
  if sink < 4 then
    match w with
    | .data _ => s.modTile p fun t => t.sinkData key w
    | .token _ _ => s.modTile p fun t => t.setSink key (t.sinkQueue key ++ [w])
    | .endWord _ => s.modTile p fun t => t.setSink key (t.sinkQueue key ++ [w])
  else if sink < 16 then
    match w with
    | .data _ => s.modTile p fun t => t.sinkData key w
    | .token op _ =>
      if isControl sink ∧ ¬structural op ∧ op ≠ 4 then
        match (s.tile p).logical with
        | some l => s.addObe Ob.steer_discard l 1 32
        | none => s
      else s.modTile p fun t => t.setSink key (t.sinkQueue key ++ [w])
    | .endWord _ => s.modTile p fun t => t.setSink key (t.sinkQueue key ++ [w])
  else
    let s := match w with
      | .data _ => s.modTile p fun t => { t with stream := { t.stream with
          sinkCount := t.stream.sinkCount.put 0 key ((Tbl.get 0 t.stream.sinkCount key + 1) % 2 ^ 32) } }
      | .token op arg =>
        if sink = 16 ∧ op = 6 then s.foldToken p arg
        else if sink = 17 ∧ op = 7 ∧ ((s.tile p).barrier (arg % 16)).enable then s.barrierArrive p (arg % 16)
        else s
      | .endWord _ => s
    s.sinkConsume p key w

/-! Passing words on (R133, R134, R158). -/

/-- The logical tile that an output entry reaches: the neighbour, or for a bypass output the tile two positions away (R134,
R136); none at the edge of the logical mesh. -/
def neighbour (variant l dir dist : Nat) : Option Nat :=
  let r := lRow l
  let c := lCol l
  let rows := if variant = 1 then 48 else 64
  if dir = 0 then (if dist ≤ r then some ((r - dist) * 64 + c) else none)
  else if dir = 1 then (if c + dist < 64 then some (r * 64 + c + dist) else none)
  else if dir = 2 then (if r + dist < rows then some ((r + dist) * 64 + c) else none)
  else (if dist ≤ c then some (r * 64 + c - dist) else none)

/-- The opposite direction. -/
def opposite (dir : Nat) : Nat := (dir + 2) % 4

/-- Where an output's lane, or an entry's lane, puts its words: another tile's input queue, a tile between that carries them (R136), or a
sink of this tile. -/
inductive StreamDest where
  | lane (phys key : Nat)
  | relay (phys link : Nat)
  | sink (key : Nat)
  | nowhere
  deriving DecidableEq, Repr

/-- The end of a logical link's lane: the input queue that its words reach, by logical tile and output (0 to 31 direction × 8 + lane, 32 to
39 bypass direction × 2 + lane). -/
def State.linkEnd (s : State) (l o : Nat) : StreamDest :=
  if o < 32 then
    match neighbour s.variant l (o / 8) 1 with
    | some m => .lane (s.physOf m) (inKey (opposite (o / 8)) (o % 8))
    | none => .nowhere
  else
    match neighbour s.variant l ((o - 32) / 2) 2 with
    | some m => .lane (s.physOf m) (inKey 4 (opposite ((o - 32) / 2) + 4 * (o % 2)))
    | none => .nowhere

/-- The destination of a tile's output lane: the link's end, or the first tile between. -/
def State.outDest (s : State) (p o : Nat) : StreamDest :=
  match (s.tile p).logical, Tbl.get 0 (s.tile p).stream.via o with
  | none, _ => .nowhere
  | some l, 0 => s.linkEnd l o
  | some l, q + 1 => .relay q (8192 * l + o)

/-- The destination of entry `e`, lane `k` of its gang. The words of a ganged steering input form one queue. -/
def State.destOf (s : State) (p e k : Nat) : StreamDest :=
  if e < 40 then s.outDest p (e + k)
  else if 4 ≤ e - 40 ∧ e - 40 < 16 then .sink (8 * (e - 40))
  else .sink (8 * (e - 40) + k)

/-- A tile's entry for a link's lane. -/
def Tile.relay (t : Tile) (link : Nat) : Option Relay := t.relays.find? fun r => r.link == link

/-- Changes a tile's entry for a link's lane. -/
def Tile.modRelay (t : Tile) (link : Nat) (f : Relay → Relay) : Tile :=
  { t with relays := t.relays.map fun r => if r.link = link then f r else r }

/-- A destination has room for a word (R133); a frozen tile takes none (R285). -/
def State.destRoom (s : State) (p : Nat) : StreamDest → Bool
  | .lane q key => q < 4608 && !(s.tile q).frozen && ((s.tile q).inQueue key).length < hopCredit
  | .relay q link => match (s.tile q).relay link with
    | some r => r.words.length < hopCredit
    | none => false
  | .sink key => (s.tile p).sinkRoom key
  | .nowhere => false

/-- Puts a word at a destination. -/
def State.destPut (s : State) (p : Nat) (w : StreamWord) : StreamDest → State
  | .lane q key => s.modTile q fun t => t.setIn key (t.inQueue key ++ [w])
  | .relay q link => s.modTile q fun t => t.modRelay link fun r => { r with words := r.words ++ [w] }
  | .sink key => s.sinkTake p key w
  | .nowhere => s

/-- Moves the words of one slack queue on while the destination has room. -/
def State.flowSlack (s : State) (p e k : Nat) : Nat → State
  | 0 => s
  | n + 1 =>
    match (s.tile p).slackQueue (8 * e + k) with
    | [] => s
    | w :: q =>
      let d := s.destOf p e k
      if s.destRoom p d then
        ((s.modTile p fun t => t.setSlack (8 * e + k) q).destPut p w d).flowSlack p e k n
      else s

/-! Tiles between, and standpipes (R136, R160). -/

/-- Where an entry of the steward puts a link's words next: the tile after it, or the link's end. -/
def State.relayDest (s : State) (r : Relay) : StreamDest :=
  if r.next < 4608 ∧ ((s.tile r.next).relay r.link).isSome then .relay r.next r.link
  else s.linkEnd (r.link / 8192) (r.link % 8192)

/-- Moves the words that a tile carries for a link on while there is room. -/
def State.flowRelay (s : State) (q link : Nat) : Nat → State
  | 0 => s
  | n + 1 =>
    match (s.tile q).relay link with
    | none => s
    | some r => match r.words with
      | [] => s
      | w :: ws =>
        if s.destRoom q (s.relayDest r) then
          ((s.modTile q fun t => t.modRelay link fun r => { r with words := ws }).destPut q w (s.relayDest r)).flowRelay q link n
        else s

/-- Moves all words that tiles between carry on, as far as there is room: each entry once for every entry that a word may still pass. -/
def State.relaysGo (s : State) : State :=
  let all := s.tiles.flatMap fun x => x.2.relays.map fun r => (x.1, r.link)
  (all.flatMap fun _ => all).foldl (fun s x => s.flowRelay x.1 x.2 hopCredit) s

/-- The number of a lane of a migration's standpipe. -/
def migLink (m lane : Nat) : Nat := 2 ^ 26 + 8 * m + lane

/-- A migration's standpipe is taken down. -/
def State.dropPipe (s : State) (m : Nat) : State :=
  s.tiles.foldl (fun s x => s.modTile x.1 fun t => { t with relays := t.relays.filter fun r => r.link != migLink m 6 && r.link != migLink m 7 }) s

/-- A standpipe entry of the slot in force (R160). -/
def Tile.pipe (t : Tile) (i : Nat) : Nat := t.slotWord (0x2C0 + 16 * i) 16

/-- Lanes of a standpipe's gang. -/
def pipeGang (e : Nat) : Nat := 2 ^ bits e 9 8

/-- Moves the words of the packets at a standpipe's head onto its lanes, in turn, while there is credit; a flit is 8 words. -/
def State.flowPipe (s : State) (p i : Nat) : Nat → State
  | 0 => s
  | n + 1 =>
    let e := (s.tile p).pipe i
    match Tbl.get [] (s.tile p).stream.pipeOut i with
    | [] => s
    | w :: ws =>
      let lane := bits e 7 5 + (pipeGang e - (ws.length + 1) % pipeGang e) % pipeGang e
      let d := s.outDest p (8 * bits e 4 2 + lane)
      if s.destRoom p d then
        ((s.modTile p fun t => { t with stream := { t.stream with pipeOut := t.stream.pipeOut.put [] i ws } }).destPut p (.data w) d).flowPipe
          p i n
      else s

/-- Moves the words of every slack queue and standpipe head of a tile on. -/
def State.flow (s : State) (p : Nat) : State :=
  let s1 := (s.tile p).stream.slackQ.foldl (fun s x => s.flowSlack p (x.1 / 8) (x.1 % 8) x.2.length) s
  (s1.tile p).stream.pipeOut.foldl (fun s x => s.flowPipe p x.1 x.2.length) s1

/-! Beats (R132, R158). -/

/-- The lanes that move as one beat with an input: those of the gang of an entry that it feeds (R132). -/
def Tile.beat (t : Tile) (key : Nat) : List Nat :=
  match t.fed key with
  | e :: _ => (List.range (entryGang (t.entry e.1))).map (entryInput (t.entry e.1))
  | [] => [key]

/-- Words that wait in the slack queue of an entry: the lanes of its gang share the depth (R138). -/
def Tile.slackUsed (t : Tile) (e : Nat) : Nat :=
  ((List.range 8).map fun k => (t.slackQueue (8 * e + k)).length).foldl (· + ·) 0

/-- An entry takes a beat, its words by lane of the gang: at once where its slack queue is empty and each lane has room, else into its
slack queue; none where it can take none now. -/
def State.entryTake (s : State) (p e : Nat) (ws : List (Nat × StreamWord)) : Option State :=
  let used := (s.tile p).slackUsed e
  if used = 0 ∧ ws.all fun x => s.destRoom p (s.destOf p e x.1) then
    some (ws.foldl (fun s x => s.destPut p x.2 (s.destOf p e x.1)) s)
  else if used + ws.length ≤ entrySlack ((s.tile p).entry e) then
    some (s.modTile p fun t => ws.foldl (fun t x => t.setSlack (8 * e + x.1) (t.slackQueue (8 * e + x.1) ++ [x.2])) t)
  else none

/-- The fan-out stall of an entry begins, where it does not run already (R158). -/
def Stream.stallFrom (x : Stream) (now e : Nat) : Stream :=
  if Tbl.get 0 x.stallSince e = 0 then { x with stallSince := x.stallSince.put 0 e (now + 1) } else x

/-- The fan-out stall of an entry ends: its cycles are counted (R158, R159). -/
def State.stallTo (s : State) (p e : Nat) : State :=
  match Tbl.get 0 (s.tile p).stream.stallSince e with
  | 0 => s
  | b + 1 => s.modTile p fun t => { t with stream := { t.stream with
      stallSince := t.stream.stallSince.put 0 e 0
      stallCycles := t.stream.stallCycles.put 0 e (Tbl.get 0 t.stream.stallCycles e + s.cyclesIn p (s.now - b)) } }

/-- The words of a beat that an entry takes, by lane of its gang. -/
def Tile.beatFor (t : Tile) (e : Nat) (ws : List (Nat × StreamWord)) : List (Nat × StreamWord) :=
  ws.filterMap fun x =>
    ((List.range (entryGang (t.entry e))).find? fun k => entryInput (t.entry e) k == x.1).map fun k => (k, x.2)

/-- A beat, its words by input key, is offered to every entry it feeds that has not taken it yet (R158). Where every entry has it, the words
leave the input and are counted by the counters that tap it; an entry that has not, beside one that has, stalls (R158, R159). A beat on an
input that no entry takes waits (R151); so does one whose tap is held (R145). -/
def State.offerBeat (s : State) (p : Nat) (ws : List (Nat × StreamWord)) : State :=
  let t := s.tile p
  let lead := (ws.headD (0, .data 0)).1
  let es := (ws.flatMap fun x => (t.fed x.1).map (·.1)).eraseDups
  if es = [] ∨ ws.any fun x => t.tapHeld x.1 then s
  else
    let todo := es.filter fun e => !t.stream.taken.contains (128 * lead + e)
    let r := todo.foldl (fun (acc : State × List Nat) e =>
      match acc.1.entryTake p e (t.beatFor e ws) with
      | some s' => ((s'.stallTo p e).modTile p fun t =>
          { t with stream := { t.stream with taken := t.stream.taken ++ [128 * lead + e] } }, acc.2)
      | none => (acc.1, acc.2 ++ [e])) (s, [])
    let s1 := r.1
    if r.2 = [] then
      let s2 := s1.modTile p fun t =>
        let t := ws.foldl (fun t x => t.setIn x.1 ((t.inQueue x.1).drop 1)) t
        { t with stream := { t.stream with taken := t.stream.taken.filter fun x => x / 128 != lead } }
      ws.foldl (fun s x => ((t.tapped x.1 x.2).foldl (fun s n => s.countUp p n) s)) s2
    else if r.2.length < es.length then
      s1.modTile p fun t => { t with stream := r.2.foldl (fun x e => x.stallFrom s.now e) t.stream }
    else s1

/-- The operations a unit holds. -/
def OpUnit.ops (u : OpUnit) : List UnitOp := u.exec.toList ++ u.waiting.toList

/-- A unit operation in flight reads stream port `n` (R143). -/
def OpUnit.reads (u : OpUnit) (n : Nat) : Bool := u.ops.any fun o => o.readPorts.contains n

/-- Some unit operation in flight reads port `n`. -/
def Tile.portRead (t : Tile) (n : Nat) : Bool := t.tensor.reads n || t.vector.reads n

/-- Lanes of a unit operand port. -/
def Tile.portGang (t : Tile) (port : Nat) : Nat := entryGang (t.entry (40 + port))

/-- The queue from which a unit operand port's next word comes (R132). -/
def Tile.portKey (t : Tile) (port : Nat) : Nat := 8 * port + Tbl.get 0 t.stream.sinkPos port % t.portGang port

/-- A unit operand port's next word has been taken. -/
def Tile.portPop (t : Tile) (port : Nat) : Tile :=
  let t' := t.setSink (t.portKey port) ((t.sinkQueue (t.portKey port)).drop 1)
  { t' with stream := { t'.stream with
    sinkPos := t'.stream.sinkPos.put 0 port ((Tbl.get 0 t.stream.sinkPos port + 1) % t.portGang port) } }

/-- At a unit operand port END_ROW, END_BLOCK, SELECT and user tokens are discarded as their turn comes, and the stream switch consumes a
structural token or end word once no operation reads the port (R143). -/
def State.drainPort (s : State) (p port : Nat) : Nat → State
  | 0 => s
  | n + 1 =>
    match (s.tile p).sinkQueue ((s.tile p).portKey port) with
    | [] => s
    | w :: _ =>
      if w.isStructural then
        if (s.tile p).portRead port then s
        else ((s.modTile p fun t => t.portPop port).sinkConsume p ((s.tile p).portKey port) w).drainPort p port n
      else match w with
        | .token _ _ => (s.modTile p fun t => t.portPop port).drainPort p port n
        | _ => s

/-- The four operand ports. -/
def State.drainPorts (s : State) (p : Nat) : State :=
  (List.range 4).foldl (fun s port => s.drainPort p port (hopCredit * (s.tile p).portGang port)) s

/-! Quiet (R153). -/

/-- Every lane routed in the slot has empty credit and slack queues (R153). -/
def Tile.lanesEmpty (t : Tile) : Bool :=
  (t.stream.inQ.all fun x => x.2 == [] || t.fed x.1 == []) && t.stream.slackQ.all fun x => x.2 == []

/-- Every enabled sink has consumed END_STEP, DRAIN or an end word (R153). -/
def Tile.sinksEnded (t : Tile) : Bool :=
  (List.range 32).all fun n => !entryOn (t.entry (40 + n)) || Tbl.get 0 t.stream.sinkEnd n != 0

/-- Every steering unit is idle (R153). -/
def Tile.steeringIdle (t : Tile) : Bool :=
  (t.stream.rows.all fun x => x.2 == none) && t.stream.sinkQ.all fun x => x.1 / 8 < 4 || x.2 == []

/-- An operation in flight of a unit reads or writes a stream port; one whose completion is held is in flight (R82, R153). -/
def OpUnit.streams (u : OpUnit) : Bool := u.ops.any UnitOp.streams || (u.held.isSome && u.heldStreams)

/-- A tile is quiet (R153). -/
def Tile.quiet (t : Tile) : Bool :=
  t.lanesEmpty && t.sinksEnded && t.steeringIdle && (t.counters.all fun c => c.2.unsent == 0) &&
    !t.tensor.streams && !t.vector.streams

/-- The gates open at a step's beginning (R142, R152): stopped sources and closed sinks reopen. -/
def Tile.openGates (t : Tile) : Tile :=
  { t with stream := { t.stream with drainTok := none, stopped := [], sinkEnd := [], quietSent := false } }

/-- The gates open as the steward resumes a meadow (R152): no step begins, so a sink that an end word has closed stays closed (R142). -/
def Tile.resumeGates (t : Tile) : Tile :=
  { t with stream := { t.stream with
    drainTok := none, stopped := [], sinkEnd := t.stream.sinkEnd.filter fun x => x.2 == 3, quietSent := false } }

/-- What follows every change of a tile's stream plane: slack queues and the tiles between flow, and operand ports are cleared of tokens. -/
def State.streamSettle (s : State) (p : Nat) : State := ((s.flow p).relaysGo).drainPorts p

end Sys2Proof.Machine
end

