-- ==== Sys2Proof/Machine/LoadStore.lean ====
section
/-! DEFINITION. Loads and stores of the sequencer (R60, R62, R76, R77, R103, R110, R111, R114). -/

namespace Sys2Proof.Machine

/-- A region of the local offset space as the sequencer sees it (R76). -/
inductive LocalRegion where
  | cistern | control | imem | slots | msgBuf | wellStatus | absent
  deriving DecidableEq, Repr

/-- The region of a local offset (R76). -/
def localRegion (variant off : Nat) : LocalRegion :=
  if off < cisternBytes variant then .cistern
  else if off < 0x600000 then .absent
  else if off < 0x700000 then .control
  else if off < 0x710000 then .imem
  else if off < 0x718000 then .slots
  else if off < 0x720000 then .absent
  else if off < 0x721000 then .msgBuf
  else if off < 0x721200 then .wellStatus
  else .absent

/-- The bytes of a local offset extent outside the t_ objects and absent offsets. -/
def State.localBytes (s : State) (p off n : Nat) : Bytes :=
  let t := s.tile p
  match localRegion s.variant off with
  | .cistern => t.cistern.readBytes off n
  | .imem => t.imem.readBytes (off - 0x700000) n
  | .slots => t.slots.readBytes (off - 0x710000) n
  | .msgBuf => (List.range n).map fun i =>
      (t.task ((off + i - 0x720000) / 256)).msgBuf.read ((off + i - 0x720000) % 256)
  | .wellStatus => (List.range n).map fun i =>
      (toLE 8 ((t.well ((off + i - 0x721000) / 64)).statusWord (((off + i - 0x721000) / 8) % 8))).getD ((off + i) % 8) 0
  | .control => []
  | .absent => []

/-- The worst poison that a load of an extent meets (R75, R103). -/
def State.loadPoison (s : State) (p off n : Nat) : Nat :=
  match localRegion s.variant off with
  | .cistern => (s.tile p).poison off n
  | .imem => ((s.tile p).ecc.imem.filter fun e =>
      off - 0x700000 < 4 * e.1 + 4 && 4 * e.1 < off - 0x700000 + n).foldl (fun m e => max m e.2) 0
  | _ => 0

/-- A read of instruction memory as data has met single-bit errors: they are corrected, counted and reported (R75). -/
def State.imemCorrected (s : State) (p off n : Nat) : State :=
  let words := ((s.tile p).ecc.imem.filter fun e => e.2 == 1 && off < 4 * e.1 + 4 && 4 * e.1 < off + n).map (·.1)
  if words = [] then s
  else
    let s := s.modTile p fun t => { t with
      seq := { t.seq with ecc := t.seq.ecc + words.length }
      ecc := { t.ecc with imem := words.foldl (fun m w => m.put 0 w 0) t.ecc.imem } }
    (s.addObe Ob.ecc_corrected p words.length 64).raiseTile p 0x0111 0

/-- A read of a local extent has met single-bit errors of the memory it lies in (R75, R103). -/
def State.localCorrected (s : State) (p off n : Nat) : State :=
  match localRegion s.variant off with
  | .cistern => s.corrected p off n
  | .imem => s.imemCorrected p (off - 0x700000) n
  | _ => s

/-- A loaded value: `n` bytes, sign-extended or zero-extended (R60). -/
def extend (n : Nat) (sgn : Bool) (v : Nat) : Word :=
  if sgn then (BitVec.ofNat (8 * n) v).signExtend 64 else BitVec.ofNat 64 v

/-- A load of `n` bytes at an effective address into g_d: the form of the address, its alignment, and then the rules of the
region it reaches. -/
def State.load (s : State) (p k : Nat) (d : Reg) (addr : Word) (n : Nat) (sgn : Bool) : Issue :=
  let t := s.tile p
  match localOffset (t.logical.getD 0) addr.toNat with
  | .error c => .fault c addr
  | .ok off =>
    if off % n ≠ 0 then .fault 0x02 addr
    else match localRegion s.variant off with
    | .absent => .fault 0x06 addr
    | .control =>
      if n ≠ 8 then .fault 0x02 addr
      else match s.tWord p off with
        | none => .fault 0x06 addr
        | some v => .retire (s.setReg p k d (BitVec.ofNat 64 v))
    | .cistern =>
      if s.strictFault t off n then .fault 0x08 addr
      else if t.anyRange off n .void then .fault 0x07 addr
      else if t.anyRange off n .filling then .stall (.load off n)
      else if 2 ≤ t.poison off n then .fault 0x0A addr
      else .retire ((s.corrected p off n).setReg p k d (extend n sgn (leNat (s.localBytes p off n))))
    | .imem =>
      if 2 ≤ s.loadPoison p off n then .fault 0x0A addr
      else .retire ((s.imemCorrected p (off - 0x700000) n).setReg p k d (extend n sgn (leNat (s.localBytes p off n))))
    | .slots => .retire (s.setReg p k d (extend n sgn (leNat (s.localBytes p off n))))
    | .msgBuf => .retire (s.setReg p k d (extend n sgn (leNat (s.localBytes p off n))))
    | .wellStatus => .retire (s.setReg p k d (extend n sgn (leNat (s.localBytes p off n))))

/-- What comes before a store to the t_ objects: the terminals that counters have reached take effect before a store to one (R145). -/
def State.beforeTStore (s : State) (p off : Nat) : State :=
  if 0x600C00 ≤ off ∧ off < 0x600D00 then s.takeTerminals p else s

/-- What a store to the t_ objects brings about beside the object itself: a wait whose events a store raises, by opening or
re-binding a well, ends. -/
def State.afterTStore (s : State) (p : Nat) : State := s.wakeTasks p

/-- A store of the low `n` bytes of `v` at an effective address. -/
def State.store (s : State) (p : Nat) (addr : Word) (n : Nat) (v : Word) : Issue :=
  let t := s.tile p
  match localOffset (t.logical.getD 0) addr.toNat with
  | .error c => .fault c addr
  | .ok off =>
    if off % n ≠ 0 then .fault 0x02 addr
    else match localRegion s.variant off with
    | .absent => .fault 0x06 addr
    | .control =>
      if n ≠ 8 then .fault 0x02 addr
      else match (s.beforeTStore p off).tStore p off v.toNat with
        | .error e => .fault e.1 (if e.1 = 0x0B ∨ e.1 = 0x06 ∧ (s.tWord p off).isNone then addr else BitVec.ofNat 64 e.2)
        | .ok t' => .retire (((s.beforeTStore p off).setTile p t').afterTStore p)
    | .cistern =>
      if s.strictFault t off n then .fault 0x08 addr
      else if s.inBuddyCopy t off n then .fault 0x0B addr
      else if t.anyRange off n .draining then .stall (.store off n)
      else if n < 8 ∧ 2 ≤ t.poison off n then .fault 0x0A addr
      else .retire ((if n < 8 then s.corrected p off n else s).cisternWrite p off (toLE n v.toNat))
    | .imem => .fault 0x0B addr
    | .slots => .fault 0x0B addr
    | .msgBuf => .fault 0x0B addr
    | .wellStatus => .fault 0x0B addr

/-- Issues a load instruction. -/
def loadI (p op n : Nat) (sgn : Bool) (d a : Reg) (imm : Imm16) (s : State) : Out :=
  issue p (encI op d a imm) (fun s k => s.load p k d (s.reg p k a + sext16 imm) n sgn) s

/-- Issues a store instruction. -/
def storeI (p op n : Nat) (b a : Reg) (imm : Imm16) (s : State) : Out :=
  issue p (encI op b a imm) (fun s k => s.store p (s.reg p k a + sext16 imm) n (s.reg p k b)) s

/-- A store of a row of its own (R77): the steward's store of the word at offset `off` where `accept` holds of the value, a
store that would fault when the program writes it being refused without effect; or the running task's SD to that word. -/
def storeRow (p off : Nat) (accept : Nat → Bool) (fr : StoreFrom) (s : State) : Out :=
  match fr with
  | .steward v =>
    if !accept v.toNat then s.noEvent
    else match (s.beforeTStore p off).tStore p off v.toNat with
      | .error _ => s.noEvent
      | .ok t' => .next ((((s.beforeTStore p off).setTile p t').afterTStore p).settle p)
  | .sd b a imm =>
    match (s.tile p).runner with
    | none => s.noEvent
    | some k =>
      let addr := s.reg p k a + sext16 imm
      match localOffset ((s.tile p).logical.getD 0) addr.toNat with
      | .error _ => s.noEvent
      | .ok o => if o = off ∧ accept (s.reg p k b).toNat then storeI p 0x1F 8 b a imm s else s.noEvent

def execLb (p : Phys) (d a : Reg) (imm : Imm16) (s : State) : Out := loadI p 0x14 1 true d a imm s

def execLh (p : Phys) (d a : Reg) (imm : Imm16) (s : State) : Out := loadI p 0x15 2 true d a imm s

def execLw (p : Phys) (d a : Reg) (imm : Imm16) (s : State) : Out := loadI p 0x16 4 true d a imm s

def execLd (p : Phys) (d a : Reg) (imm : Imm16) (s : State) : Out := loadI p 0x17 8 true d a imm s

def execLbu (p : Phys) (d a : Reg) (imm : Imm16) (s : State) : Out := loadI p 0x18 1 false d a imm s

def execLhu (p : Phys) (d a : Reg) (imm : Imm16) (s : State) : Out := loadI p 0x19 2 false d a imm s

def execLwu (p : Phys) (d a : Reg) (imm : Imm16) (s : State) : Out := loadI p 0x1A 4 false d a imm s

def execSb (p : Phys) (b a : Reg) (imm : Imm16) (s : State) : Out := storeI p 0x1C 1 b a imm s

def execSh (p : Phys) (b a : Reg) (imm : Imm16) (s : State) : Out := storeI p 0x1D 2 b a imm s

def execSw (p : Phys) (b a : Reg) (imm : Imm16) (s : State) : Out := storeI p 0x1E 4 b a imm s

/-- SD, to t_ objects too (R77). -/
def execSd (p : Phys) (b a : Reg) (imm : Imm16) (s : State) : Out := storeI p 0x1F 8 b a imm s

end Sys2Proof.Machine
end

