-- ==== Sys2Proof/Machine/Completion.lean ====
section
/-! DEFINITION. Posting a completion (R94, R120, R197): a counter's count and a message in a local well. -/

namespace Sys2Proof.Machine

/-- Entries of a well (R190). -/
def wellEntries : Nat := 16

/-- Places a whole message in a well (R190, R195, R197). -/
def Well.place (w : Well) (now sender : Nat) (descs : List Nat) : Well :=
  { w with msgs := w.msgs ++ [{ sender, descs }], placed := (w.placed + 1) % 65536, lastPlaced := now }

/-- Takes the oldest message of a well (R199). -/
def Well.take (w : Well) (now : Nat) : Well := { w with msgs := w.msgs.drop 1, lastTaken := now }

/-- Posts a completion; none while its well is full, when it is held (R94, R120). A completion that meets a well that is not
Open, or is bound to another port than the sequencer, is discarded, counted and reported. -/
def State.postCompletion (s : State) (p : Nat) (c : Completion) : Option State :=
  let counted := match c.counter with
    | some n => s.countUp p n
    | none => s
  match c.well with
  | none => some counted
  | some w =>
    let x := (s.tile p).well w
    if x.state = .opened ∧ x.binding = 0 then
      if x.entries < wellEntries then
        some ((counted.modTile p fun t =>
          t.modWell w fun x => x.place s.now (t.logical.getD 0xFFF) [c.msg]).wakeTasks p)
      else none
    else
      some ((counted.modTile p fun t => t.modWell w fun x =>
        { x with lost := (x.lost + 1) % 65536 }).raiseTile p 0x0204 w)

/-- The tile's units work: its arrays have power, and it is neither frozen (R285) nor in reset. R19 gates the whole compute branch in T1,
while R366 has pumps and units become idle in T1 and R71 wakes a tile in T1 on their completions: in the model a clock-gated tile's pumps and
units go on with what they have, and only its sequencer stands still [DESIGN CHOICE, log entry 47]. -/
def Tile.works (t : Tile) : Bool :=
  (t.power.state == .t0 || t.power.state == .t1) && !t.frozen

end Sys2Proof.Machine
end

