-- ==== Sys2Proof/Machine/Flags.lean ====
section
/-! DEFINITION. What a status becomes on its way: reply status to pump error, SENDT status and NACK reason (R66, R180, R226),
and the order among failures (R119, R224). -/

namespace Sys2Proof.Machine

/-- The pump error of a reply status (R180); a status the table gives none is 0x03 for a refused operation. -/
def pumpErrOf : Nat → Nat
  | 0x00 => 0x00 | 0x01 => 0x03 | 0x02 => 0x04 | 0x03 => 0x05 | 0x07 => 0x03 | 0x08 => 0x03
  | 0x09 => 0x06 | 0x0A => 0x07 | 0x0B => 0x08 | 0x0C => 0x03 | _ => 0x03

/-- The SENDT status of a SEND_DONE status (R66, R180). -/
def sendStatusOf : Nat → Nat
  | 0x00 => 0 | 0x02 => 5 | 0x04 => 2 | 0x05 => 3 | 0x06 => 4 | 0x07 => 2 | 0x08 => 2 | 0x0C => 2 | 0x0F => 1 | _ => 2

/-- The NACK reason of a mesh status (R226). -/
def reasonOf : Nat → Nat
  | 0x00 => 0x00 | 0x01 => 0x03 | 0x02 => 0x0C | 0x03 => 0x0F | 0x04 => 0x09 | 0x05 => 0x0A | 0x06 => 0x0B
  | 0x07 => 0x06 | 0x08 => 0x06 | 0x0B => 0x0D | 0x0C => 0x06 | 0x0F => 0x12 | _ => 0x06

/-- The lower nonzero of two codes (R119, R224). -/
def lowest (a b : Nat) : Nat := if a = 0 then b else if b = 0 then a else min a b

/-- A received NACK reason: a reserved one is treated as 0x11 (R226, R250). -/
def knownReason (r : Nat) : Nat := if r ≤ 0x1A then r else 0x11

end Sys2Proof.Machine
end

