-- ==== Sys2Proof/Machine/PumpOps.lean ====
section
/-! DEFINITION. Pump descriptors and what pumps do with them (R109, R110, R113 to R121, R127, R181, R232). -/

namespace Sys2Proof.Machine

/-! Descriptor fields (R115). -/

def dSrc (d : Nat) : Nat := bits d 63 0
def dDst (d : Nat) : Nat := bits d 127 64
def dRun (d : Nat) : Nat := bits d 151 128
def dN1 (d : Nat) : Nat := bits d 167 152
def dN2 (d : Nat) : Nat := bits d 183 168
def dN3 (d : Nat) : Nat := bits d 199 184
def dMode (d : Nat) : Nat := bits d 345 344
def dSrcOn (d : Nat) : Bool := bit d 346
def dSrcRange (d : Nat) : Nat := bits d 352 347
def dDstOn (d : Nat) : Bool := bit d 353
def dDstRange (d : Nat) : Nat := bits d 359 354
def dConsume (d : Nat) : Bool := bit d 360
def dTroughOn (d : Nat) : Bool := bit d 361
def dTrough (d : Nat) : Nat := bits d 365 362
def dRate (d : Nat) : Nat := bits d 381 366
def dGroupOn (d : Nat) : Bool := bit d 391
def dGroup (d : Nat) : Nat := bits d 423 392
def dTag (d : Nat) : Nat := bits d 439 424

/-- Source stride `i` of 1 to 3, and destination stride. -/
def dSs (d i : Nat) : Int := signed 24 (bits d (24 * i + 199) (24 * i + 176))
def dDs (d i : Nat) : Int := signed 24 (bits d (24 * i + 271) (24 * i + 248))

/-- Bytes that a descriptor moves (R116). -/
def dTotal (d : Nat) : Nat := dRun d * dN1 d * dN2 d * dN3 d

/-- The runs' displacements from the source and the destination, in the order of R116. -/
def dRuns (d : Nat) : List (Int × Int) :=
  (List.range (dN3 d)).flatMap fun (i3 : Nat) => (List.range (dN2 d)).flatMap fun (i2 : Nat) =>
    (List.range (dN1 d)).map fun (i1 : Nat) =>
      ((i1 : Int) * dSs d 1 + (i2 : Int) * dSs d 2 + (i3 : Int) * dSs d 3,
       (i1 : Int) * dDs d 1 + (i2 : Int) * dDs d 2 + (i3 : Int) * dDs d 3)

/-- The least and the greatest displacement under one side's strides. -/
def spanOf (st : Nat → Int) (d : Nat) : Int × Int :=
  let f (n : Nat) (x : Int) : Int × Int := let y := ((n - 1 : Nat) : Int) * x; (min 0 y, max 0 y)
  let a := f (dN1 d) (st 1)
  let b := f (dN2 d) (st 2)
  let c := f (dN3 d) (st 3)
  (a.1 + b.1 + c.1, a.2 + b.2 + c.2)

/-! Sides (R116). -/

/-- The offset part of an address, by its form, and the width of that field; none for a refused form. -/
def fabOffset : FabAddr → Nat × Nat
  | .loc _ off => (off, 23)
  | .spread y => (y, 40)
  | .window _ _ off => (off, 40)
  | .host a => (a, 48)
  | .die _ off => (off, 48)
  | .this off => (off, 23)

/-- The local offset of a side that is local to the tile of logical id `own` (R116). -/
def localSide (own : Nat) : FabAddr → Option Nat
  | .this off => some off
  | .loc t off => if t = own then some off else none
  | _ => none

/-- Every byte of a side lies within the offset field of its form (R106). -/
def sideInField (a : FabAddr) (span : Int × Int) (run : Nat) : Bool :=
  let o := fabOffset a
  decide (0 ≤ (o.1 : Int) + span.1) && decide ((o.1 : Int) + span.2 + run ≤ (2 ^ o.2 : Nat))

/-- The side's logical tiles lie in the meadow (R21): only a local-form address names a tile. -/
def State.inHedge (s : State) (g : Option Nat) (own : Nat) : FabAddr → Bool
  | .loc t _ => t == own || (match g with | some g => s.obe Ob.tile_meadow t == g | none => false)
  | _ => true

/-- A spread side lies within the meadow's spread space (R107). -/
def State.spreadOk (s : State) (g : Option Nat) (span : Int × Int) (run : Nat) : FabAddr → Bool
  | .spread y => match g with
    | some g =>
      decide ((y : Int) + span.2 + run ≤ ((s.members g).length * s.obe Ob.spread_granules g * 4096 : Nat))
    | none => false
  | _ => true

/-- A port-die object offset that a pump may write, with the extent it asks for (R181, R232, R249). -/
def dieObjectOk (off : Nat) (d : Nat) : Bool :=
  let kind := bits off 47 44
  let total := dTotal d
  let one := dN1 d == 1 && dN2 d == 1 && dN3 d == 1
  if kind = 1 then bits off 11 0 == 0 && total == 64 && one
  else if 2 ≤ kind ∧ kind ≤ 4 then
    let el := if kind = 2 then 32 else if kind = 3 then 4 else 8
    bits off 43 12 < 0xFFFFFE00 && bits off 11 0 % el == 0 && dRun d % el == 0 &&
      (dRuns d).all fun r => decide (0 ≤ (bits off 11 0 : Int) + r.2) &&
        decide ((bits off 11 0 : Int) + r.2 + dRun d ≤ 4096) && decide (r.2 % (el : Int) = 0)
  else if kind = 5 then bits off 8 0 == 0 && one && 64 ≤ total && total ≤ 256 && total % 64 == 0
  else if kind = 6 then bits off 43 0 == 0 && total == 64 && one
  else if kind = 7 then bits off 43 0 == 0 && total == 64 && one
  else false

/-- The destination of a trough fill: counted from the start of the producer half as it stands (R123). -/
def Tile.troughBase (t : Tile) (n : Nat) : Nat := (t.range (t.trough n).producer).start * 256

/-- The local runs of a side, as (offset, length), from its first byte. -/
def localRuns (d base : Nat) (dst : Bool) : List (Nat × Nat) :=
  (dRuns d).map fun r => (((base : Int) + (if dst then r.2 else r.1)).toNat, dRun d)

/-! Validation (R65, R117). -/

/-- What a descriptor is refused with: the fault and its detail; the detail of 0x0D, a ring index, is left to the caller. -/
abbrev DescFault := Option (Nat × Nat)

/-- Check 1: reserved bits, mode, counts, run and total; a trough fill's range fields are zero (R117, R123). -/
def descShapeOk (d : Nat) : Bool :=
  bits d 511 440 == 0 && dMode d < 2 && dRun d != 0 && dN1 d != 0 && dN2 d != 0 && dN3 d != 0 &&
    dTotal d ≤ 2 ^ 32 - 1 && (!dTroughOn d || (!dDstOn d && dDstRange d == 0))

/-- Check 2: the address forms (R106, R107, R116, R117, R181, R227, R232). -/
def State.descFormsOk (s : State) (t : Tile) (d : Nat) : Bool :=
  let own := t.logical.getD 0xFFF
  let ss := spanOf (dSs d) d
  let ds := spanOf (dDs d) d
  match parseFab s.variant (dDst d) with
  | none => false
  | some dst =>
    (dTroughOn d || sideInField dst ds (dRun d)) && s.spreadOk t.meadow ds (dRun d) dst &&
    (!dTroughOn d || (localSide own dst).isSome) &&
    (!dGroupOn d || (match dst with | .window _ _ _ => dGroup d != 0 | _ => false)) &&
    (match dst with | .die _ off => dieObjectOk off d | _ => true) &&
    (if dMode d = 1 then dSrc d == 0
     else match parseFab s.variant (dSrc d) with
       | none => false
       | some src =>
         sideInField src ss (dRun d) && s.spreadOk t.meadow ss (dRun d) src &&
         ((localSide own src).isSome || (localSide own dst).isSome) &&
         (match src with | .die _ _ => false | _ => true))

/-- Check 3: the hedge (R21), the destination's or the source's address as detail. -/
def State.descHedge (s : State) (t : Tile) (d : Nat) : Option Nat :=
  let own := t.logical.getD 0xFFF
  let bad (a : Nat) : Bool := match parseFab s.variant a with
    | some x => !s.inHedge t.meadow own x
    | none => false
  if dMode d = 0 && bad (dSrc d) then some (dSrc d) else if bad (dDst d) then some (dDst d) else none

/-- Check 4: range ids and the trough pair; the unclaimed id as detail. -/
def Tile.descIds (t : Tile) (d : Nat) : Option Nat :=
  if dSrcOn d && !(t.range (dSrcRange d)).claimed then some (dSrcRange d)
  else if dDstOn d && !(t.range (dDstRange d)).claimed then some (dDstRange d)
  else if dTroughOn d && !(t.trough (dTrough d)).configured then some (dTrough d)
  else none

/-- The range that a descriptor's fill mark goes on, and the one its drain mark goes on. -/
def Tile.fillRange (t : Tile) (d : Nat) : Option Nat :=
  if dTroughOn d then some (t.trough (dTrough d)).producer else if dDstOn d then some (dDstRange d) else none

def drainRange (d : Nat) : Option Nat := if dSrcOn d then some (dSrcRange d) else none

/-- The local destination offset of a descriptor, a trough fill's counted from the producer half. -/
def Tile.dstOffset (t : Tile) (variant d : Nat) : Option Nat :=
  match parseFab variant (dDst d) with
  | some a => (localSide (t.logical.getD 0xFFF) a).map fun off =>
      if dTroughOn d then t.troughBase (dTrough d) + off else off
  | none => none

/-- The local source offset. -/
def Tile.srcOffset (t : Tile) (variant d : Nat) : Option Nat :=
  if dMode d = 1 then none
  else match parseFab variant (dSrc d) with
    | some a => localSide (t.logical.getD 0xFFF) a
    | none => none

/-- A local footprint lies in the cistern, in its named range, outside buddy copies, and keeps to strict mode (R114, R117,
R345). -/
def State.footprintOk (s : State) (t : Tile) (d off : Nat) (dst : Bool) (r : Option Nat) : Bool :=
  let span := spanOf (if dst then dDs d else dSs d) d
  let lo := (off : Int) + span.1
  let hi := (off : Int) + span.2 + dRun d
  decide (0 ≤ lo) && decide (hi ≤ (cisternBytes s.variant : Nat)) &&
  (match r with
    | some n => decide ((((t.range n).start * 256 : Nat) : Int) ≤ lo) &&
        decide (hi ≤ (((t.range n).start + (t.range n).len) * 256 : Nat))
    | none => true) &&
  (localRuns d off dst).all fun x => !s.strictFault t x.1 x.2 && !(dst && s.inBuddyCopy t x.1 x.2)

/-- Check 5: footprints, named ranges and trough halves, mark counts, strict mode. `fills` and `drains` are the ranges that
earlier descriptors of the same posting mark. -/
def State.descPlaceOk (s : State) (t : Tile) (d : Nat) (fills drains : List Nat) : Bool :=
  let src := t.srcOffset s.variant d
  let dst := t.dstOffset s.variant d
  (match src with
    | some off => s.footprintOk t d off false (drainRange d)
    | none => !dSrcOn d) &&
  (match dst with
    | some off => s.footprintOk t d off true (t.fillRange d)
    | none => !dDstOn d) &&
  (match t.fillRange d with
    | some r => (t.range r).fills.length + (fills.filter (· == r)).length < 255
    | none => true) &&
  (match drainRange d with
    | some r => (t.range r).drains.length + (drains.filter (· == r)).length < 255
    | none => true)

/-- The checks of R117 in order, on a descriptor of a tile. -/
def State.descFault (s : State) (t : Tile) (d : Nat) (fills drains : List Nat) : DescFault :=
  if !descShapeOk d then some (0x0D, 0)
  else if !s.descFormsOk t d then some (0x0D, 0)
  else match s.descHedge t d with
    | some a => some (0x05, a)
    | none => match t.descIds d with
      | some n => some (0x0C, n)
      | none => if !s.descPlaceOk t d fills drains then some (0x0D, 0) else none

/-- The first pass over descriptors in ring order: the first that is refused, its place and its fault (R65, R117). -/
def State.firstPass (s : State) (t : Tile) : List Nat → Nat → List Nat → List Nat → Option (Nat × Nat × Nat)
  | [], _, _, _ => none
  | d :: ds, i, fills, drains =>
    match s.descFault t d fills drains with
    | some f => some (i, f.1, f.2)
    | none => s.firstPass t ds (i + 1) ((t.fillRange d).toList ++ fills) ((drainRange d).toList ++ drains)

/-! Posting (R65, R109, R110, R121). -/

/-- Posts a descriptor: the next stamp, its marks, and its place in the pump's order. -/
def Tile.post (t : Tile) (variant n d slot : Nat) : Tile :=
  let stamp := t.stamp + 1
  let fr := t.fillRange d
  let dr := drainRange d
  let job : PumpJob := { desc := d, slot, stamp, dst := (t.dstOffset variant d).getD 0, dstRange := fr, srcRange := dr }
  let t := { t with stamp }
  let t := match fr with
    | some r => t.modRange r fun x => { x with fills := x.fills ++ [stamp] }
    | none => t
  let t := match dr with
    | some r => t.modRange r fun x => { x with drains := x.drains ++ [stamp] }
    | none => t
  t.modPump n fun u => { u with jobs := u.jobs ++ [job] }

/-- The descriptor in slot `i` of a pump's ring. -/
def Tile.ringDesc (t : Tile) (n i : Nat) : Nat := t.cistern.readLE ((t.pump n).ringBase + 64 * i) 64

/-! Marks (R109, R113). -/

/-- Removes a fill mark whose descriptor, posted at `stamp`, has completed with error `err` (0 none): Full, or Void. Nothing
happens to a range released since (R113). -/
def Range.endFill (r : Range) (stamp err : Nat) : Range :=
  if !r.claimed || stamp < r.claimedAt || !r.fills.contains stamp then r
  else
    let r := { r with fills := r.fills.filter (· != stamp) }
    if err = 0 then
      let r := { r with fillsDone := (r.fillsDone + 1) % 2 ^ 32, lastGood := max r.lastGood stamp }
      match r.voidAt with
      | some v => if v < stamp then { r with voidAt := none, full := true } else r
      | none => { r with full := true }
    else if stamp < r.lastGood then r
    else { r with lastAbort := err, voidAt := some (max stamp (r.voidAt.getD 0)) }

/-- Removes a drain mark. -/
def Range.endDrain (r : Range) (stamp : Nat) : Range := { r with drains := r.drains.filter (· != stamp) }

/-- A drain with the consume flag has completed without error: Empty (R109). -/
def Range.consumed (r : Range) (stamp : Nat) : Range :=
  if r.claimed && r.claimedAt < stamp then { r with full := false } else r

/-- An extent overlaps a claimed range with a mark posted before `stamp`. -/
def Tile.heldBy (t : Tile) (f : Range → List Nat) (xs : List (Nat × Nat)) (stamp : Nat) : Bool :=
  xs.any fun x => (t.rangesAt x.1 x.2).any fun r => (f (t.range r)).any fun m => m < stamp

/-- A descriptor waits for marks posted before it on any range its local footprint overlaps (R110). -/
def Tile.marksHold (t : Tile) (variant : Nat) (j : PumpJob) : Bool :=
  (match t.srcOffset variant j.desc with
    | some off => t.heldBy (·.fills) (localRuns j.desc off false) j.stamp
    | none => false) ||
  (match t.dstOffset variant j.desc with
    | some _ => t.heldBy (·.drains) (localRuns j.desc j.dst true) j.stamp
    | none => false)

/-! Deadlines (R127). -/

/-- The deadline of the packet that covers bytes x to x + n − 1 of a descriptor (R127). -/
def State.pumpDeadline (s : State) (t : Tile) (j : PumpJob) (x n : Nat) : Nat :=
  let rate := dRate j.desc
  if rate = 0 then lastDeadline
  else if dTroughOn j.desc then
    let pr := t.trough (dTrough j.desc)
    (pr.lastSwap.getD s.now) + ((t.range pr.consumer).len * 256 / rate) * 64
  else s.now + ((x + n) / rate) * 64

/-! Carrying out a descriptor. -/

/-- Where one packet of a remote side goes: class, operation's target and address. -/
structure Target where
  cls : Nat
  dst : Nat
  dstKind : Nat
  addr : Nat
  reduce : Bool := false
  deriving DecidableEq, Repr

/-- The home die of an outbound window's peer (R209, R222). -/
def State.windowHome (s : State) (index : Nat) : Nat :=
  s.obe Ob.peer_home (bits (s.obe Ob.win_remote index) 11 0) % 2

/-- The target of a packet at a remote address displaced by `x` (R106 to R108, R181); none where the meadow no longer holds the tile or the
granule, and the network interface refuses the packet (R21, R107). -/
def State.target (s : State) (t : Tile) (a : FabAddr) (x : Int) : Option Target :=
  let at_ (off : Nat) : Nat := ((off : Int) + x).toNat
  match a with
  | .loc l off =>
    if s.inHedge t.meadow (t.logical.getD 0xFFF) a then some { cls := 0, dst := l, dstKind := 0, addr := mkLoc l (at_ off) } else none
  | .spread y => (s.spread (t.meadow.getD 0) (at_ y)).map fun x => { cls := 0, dst := x.1, dstKind := 0, addr := mkLoc x.1 x.2 }
  | .window gen index off => some {
    cls := 0, dst := 0, dstKind := 1 + s.windowHome index
    addr := fld 2 60 + fld gen 52 + fld index 40 + at_ off }
  | .host h => some { cls := 0, dst := 0, dstKind := 1, addr := fld 3 60 + at_ h }
  | .die d off =>
    let red := 2 ≤ bits off 47 44 && bits off 47 44 ≤ 4
    some { cls := if red then 3 else 0, dst := 0, dstKind := 1 + d, addr := fld 4 60 + fld d 48 + at_ off, reduce := red }
  | .this off => some { cls := 0, dst := t.logical.getD 0xFFF, dstKind := 0, addr := mkLoc (t.logical.getD 0xFFF) (at_ off) }

/-- Sends one packet of a descriptor to its target, waiting at the network interface; its number joins the descriptor's outstanding
ones. -/
def State.pumpPacket (s : State) (p n : Nat) (j : PumpJob) (k : Target) (pos len : Nat) (data : Option Bytes) : State × Nat :=
  let t := s.tile p
  let num := s.nextPkt
  let d := s.pumpDeadline t j pos len
  let op := if k.reduce then 0x04 else if data.isSome then 0x02 else 0x01
  let arg0 := if k.reduce then 1 + fld len 32 else len
  let arg1 := if dGroupOn j.desc then dGroup j.desc + fld 1 32 else 0
  (s.tileRequest p k.cls op n k.dst k.dstKind k.addr arg0 arg1 num d (data.getD []), num)

/-- Notes where the data of a read is to land, and its bytes; of a write, its bytes in the first. -/
def State.landAt (s : State) (num land want : Nat) : State :=
  match s.pkt num with
  | some k => s.setPkt num { k with landing := land, want }
  | none => s

/-- Why a local read fails: Void, or an uncorrectable word (R103, R110, R119). -/
def Tile.pumpReadError (t : Tile) (off len : Nat) : Nat :=
  if 2 ≤ t.poison off len then 0x01 else if t.anyRange off len .void then 0x02 else 0

/-- The 64 B lines of an extent, as the cistern is read (R102): (offset in the extent, length). -/
def lineReads (off len : Nat) : List (Nat × Nat) :=
  (List.range ((off + len + 63) / 64 - off / 64)).map fun i =>
    let a := max off (64 * (off / 64 + i))
    (a - off, min (off + len) (64 * (off / 64 + i + 1)) - a)

/-- How many bytes of a local extent are read before its first failing line, and that line's error; all of them and 0 where none
fails. -/
def Tile.goodPart (t : Tile) (off len : Nat) : Nat × Nat :=
  if t.pumpReadError off len = 0 then (len, 0)
  else match (lineReads off len).find? fun l => t.pumpReadError (off + l.1) l.2 != 0 with
    | some l => (l.1, t.pumpReadError (off + l.1) l.2)
    | none => (len, 0)

/-- How far a descriptor's start has come: its packets and error, the bytes already moved, the position in it. -/
structure PumpRun where
  s : State
  out : List Nat := []
  err : Nat := 0
  ok : Nat := 0
  pos : Nat := 0

/-- The pieces of a remote side's run: cut where the remote-side address crosses a 4 KiB boundary (R118). -/
def remotePieces (a : FabAddr) (x : Int) (run : Nat) : List (Nat × Nat) := pieces (((fabOffset a).1 : Int) + x).toNat run

/-- One packet of a descriptor at the remote address displaced by `x`, of `len` bytes from position `pos` of the run on: given to the network
interface, or refused there, which ends the descriptor with error 0x03 (R21; log entry 48). -/
def PumpRun.packet (v : PumpRun) (p n : Nat) (j : PumpJob) (a : FabAddr) (x : Int) (pos len land want : Nat) (data : Option Bytes) : PumpRun :=
  if v.err ≠ 0 then v
  else match v.s.target (v.s.tile p) a x with
    | none => { v with err := 0x03 }
    | some k =>
      let y := v.s.pumpPacket p n j k (v.pos + pos) len data
      { v with s := y.1.landAt y.2 land want, out := v.out ++ [y.2], ok := if k.reduce then v.ok + len else v.ok }

/-- One run of a descriptor, from the local source `src` or the remote one, to the local destination `dst` or the remote one
(R116, R118). A run whose local source fails is carried out as far as its reads succeed (R119). -/
def PumpRun.step (v : PumpRun) (p n : Nat) (j : PumpJob) (src dst : Option Nat) (sa da : Option FabAddr)
    (r : Int × Int) : PumpRun :=
  if v.err ≠ 0 then v
  else
    let run := dRun j.desc
    let so := ((src.getD 0 : Nat) + r.1 : Int).toNat
    let g : Nat × Nat := if src.isSome then (v.s.tile p).goodPart so run else (run, 0)
    let s := if src.isSome then v.s.corrected p so g.1 else v.s
    let data : Option Bytes :=
      if src.isSome then some (s.cisternRead p so g.1)
      else if dMode j.desc = 1 then some (List.replicate run 0) else none
    let w : PumpRun := match dst, data with
      | some off, some bs =>
        let before := (s.tile p).ni.dups.length
        let s := s.cisternWrite p ((off : Int) + r.2).toNat bs
        { v with s, ok := v.ok + g.1, out := v.out ++ (s.tile p).ni.dups.drop before }
      | some off, none =>
        match sa with
        | some a =>
          (remotePieces a r.1 run).foldl (fun v pc =>
            v.packet p n j a (r.1 + pc.1) pc.1 pc.2 ((off : Int) + r.2 + pc.1).toNat pc.2 none) { v with s }
        | none => v
      | none, some bs =>
        match da with
        | some a =>
          ((remotePieces a r.2 run).filter fun pc => pc.1 + pc.2 ≤ g.1).foldl (fun v pc =>
            v.packet p n j a (r.2 + pc.1) pc.1 pc.2 pc.2 0 (some ((bs.drop pc.1).take pc.2))) { v with s }
        | none => v
      | none, none => v
    let w : PumpRun := { w with pos := v.pos + run }
    if w.err ≠ 0 ∨ g.2 = 0 then w
    else { w with err := g.2, s := if g.2 = 1 then w.s.uncorrectable p ((w.s.tile p).badWord (so + g.1) (run - g.1)) else w.s }

/-- Changes the job that was posted at `stamp` of a pump. -/
def Tile.modJobAt (t : Tile) (n stamp : Nat) (f : PumpJob → PumpJob) : Tile :=
  t.modPump n fun u => { u with jobs := u.jobs.map fun j => if j.stamp = stamp then f j else j }

/-- The drain mark of a source that has been read goes (R109). -/
def Tile.dropDrain (t : Tile) (read : Bool) (r : Option Nat) (stamp : Nat) : Tile :=
  match r with
  | some r => if read then t.modRange r fun x => x.endDrain stamp else t
  | none => t

/-- A pump counts how long marks have held a descriptor back (R120). -/
def Tile.countWait (t : Tile) (n now : Nat) (since : Option Nat) : Tile :=
  match since with
  | some b => t.modPump n fun u => { u with scoreWait := (u.scoreWait + (now - b)) % 2 ^ 64 }
  | none => t

/-- A descriptor starts (R115, R116, R118): its local copies are made and its packets given to the network interface; its
source drain mark goes, every byte of the source having been read. -/
def State.pumpStart (s : State) (p n : Nat) (j : PumpJob) : State :=
  let t := s.tile p
  let src := t.srcOffset s.variant j.desc
  let dst := (t.dstOffset s.variant j.desc).map fun _ => j.dst
  let v := (dRuns j.desc).foldl (fun (v : PumpRun) r =>
    v.step p n j src dst (parseFab s.variant (dSrc j.desc)) (parseFab s.variant (dDst j.desc)) r) { s := s }
  v.s.modTile p fun t =>
    ((t.dropDrain src.isSome j.srcRange j.stamp).modJobAt n j.stamp fun k => { k with
      started := true, startTime := s.now, drained := src.isSome, err := lowest k.err v.err, okBytes := v.ok,
      stopped := v.err != 0, outstanding := v.out, blockedAt := none }).countWait n s.now j.blockedAt

/-! Completion (R118 to R120). -/

/-- A packet of a descriptor is done with: answered, or for a REDUCE, gone from the tile (R181). -/
def State.packetDone (s : State) (num : Nat) : Bool :=
  match s.pkt num with
  | none => true
  | some k => k.h.cls == 3 && k.loc != .ni

/-- The completion record of a descriptor (R120). -/
def pumpRecord (n : Nat) (j : PumpJob) (now : Nat) : Nat :=
  b2n (j.err != 0) + fld j.err 8 + fld j.slot 16 + fld (dTag j.desc) 32 + fld n 48 +
    fld (if j.err = 0x06 then j.nack else 0) 56 +
    fld (sat 32 j.okBytes) 64 + fld now 128

/-- The completion of a descriptor (R120). -/
def pumpCompletion (n : Nat) (j : PumpJob) (now : Nat) : Completion :=
  { msg := pumpRecord n j now
    counter := if bit j.desc 386 then some (bits j.desc 385 382) else none
    well := if bit j.desc 390 then some (bits j.desc 389 387) else none }

/-- Posts a pump's completion behind any that it holds (R120). -/
def State.pumpPost (s : State) (p n : Nat) (c : Completion) : State :=
  if ((s.tile p).pump n).held ≠ [] then s.modTile p fun t => t.modPump n fun u => { u with held := u.held ++ [c] }
  else match s.postCompletion p c with
    | some s' => s'
    | none => s.modTile p fun t => t.modPump n fun u => { u with held := [c] }

/-- The ring head passes over completed slots in ring order (R118). -/
def Pump.advanceHead (u : Pump) : Nat → Pump
  | 0 => u
  | k + 1 =>
    if u.doneSlots.contains u.head then
      ({ u with doneSlots := u.doneSlots.filter (· != u.head), head := if u.ringLen = 0 then 0 else (u.head + 1) % u.ringLen }).advanceHead k
    else u

/-- The marks of a completed descriptor go, and its ranges take their states (R109, R110). -/
def Tile.endMarks (t : Tile) (j : PumpJob) : Tile :=
  let t := match j.dstRange with
    | some r => t.modRange r fun x => x.endFill j.stamp j.err
    | none => t
  match j.srcRange with
  | some r => t.modRange r fun x =>
      let x := x.endDrain j.stamp
      if j.err = 0 ∧ dConsume j.desc then x.consumed j.stamp else x
  | none => t

/-- A pump completes a descriptor: its counts, its error record and its ring's head (R118, R119). -/
def Pump.complete (u : Pump) (j : PumpJob) : Pump :=
  ({ u with
    jobs := u.jobs.filter fun k => k.stamp != j.stamp
    error := u.error || j.err != 0
    lastErr := if j.err = 0 then u.lastErr else j.err
    lastErrSlot := if j.err = 0 then u.lastErrSlot else j.slot
    bytesMoved := (u.bytesMoved + j.okBytes) % 2 ^ 64
    doneSlots := if j.slot = 0xFFFF then u.doneSlots else u.doneSlots ++ [j.slot] }).advanceHead (u.doneSlots.length + 1)

/-- A descriptor completes: marks, range states, counts, the ring, an error's report, wake event [8], the completion (R109,
R118 to R120). -/
def State.pumpComplete (s : State) (p n : Nat) (j : PumpJob) : State :=
  let s := s.modTile p fun t => (t.endMarks j).modPump n fun u => u.complete j
  let s := if j.err = 0 then s
    else s.raise { (s.tile p).report p 0x0203 with
      opValid := true, desc := j.slot, tag := dTag j.desc, detail := j.err, detail2 := dDst j.desc }
  let s := if j.dstRange.isSome then (s.modTile p fun t => t.latch 0x100).wakeTasks p else s
  s.pumpPost p n (pumpCompletion n j s.now)

/-- The jobs of a pump in progress. -/
def Pump.inProgress (u : Pump) : List PumpJob := u.jobs.filter (·.started)

/-- The next descriptor that a pump may start: fewer than 4 in progress, no completion held, and every packet of the ones
started issued (R115, R120). -/
def State.nextJob (s : State) (p n : Nat) : Option PumpJob :=
  let u := (s.tile p).pump n
  if 4 ≤ u.inProgress.length ∨ u.held ≠ [] then none
  else if u.inProgress.any fun j => j.outstanding.any fun num =>
    match s.pkt num with
    | some k => k.loc == .ni && !(s.tile p).ni.dups.contains num
    | none => false then none
  else u.jobs.find? fun j => !j.started

end Sys2Proof.Machine
end

