-- ==== Sys2Proof/Machine/Pumps.lean ====
section
/-! DEFINITION. The commands of the pumps and of the stores to t_pump, t_trough and t_counter (R115 to R123, R145). -/

namespace Sys2Proof.Machine

/-- PUMP_DESCRIPTOR_START (R115): the pump's next descriptor starts; one that marks posted before it hold back waits, and how
long is counted. -/
def execPumpDescriptorStart (p : Phys) (n : Fin 8) (s : State) : Out :=
  let t := s.tile p
  match s.nextJob p n with
  | none => s.noEvent
  | some j =>
    if !t.works then s.noEvent
    else if t.marksHold s.variant j then
      .next (s.modTile p fun t => t.modJobAt n j.stamp fun k => { k with blockedAt := some (k.blockedAt.getD s.now) })
    else .next (s.pumpStart p n j)

/-- PUMP_DESCRIPTOR_COMPLETE (R118, R119): the started descriptor at place `j` of the pump's order, all of whose packets are
done with, completes. -/
def execPumpDescriptorComplete (p : Phys) (n : Fin 8) (j : Nat) (s : State) : Out :=
  match ((s.tile p).pump n).jobs[j]? with
  | some x =>
    if x.started && (x.outstanding.all fun k => s.packetDone k) then .next ((s.pumpComplete p n x).settle p) else s.noEvent
  | none => s.noEvent

/-- Posts the completions that a pump holds, in turn, until one has no room (R120). -/
def State.pumpFlush (s : State) (p n : Nat) : Nat → State
  | 0 => s
  | k + 1 =>
    match ((s.tile p).pump n).held with
    | [] => s
    | c :: cs => match s.postCompletion p c with
      | some s' => (s'.modTile p fun t => t.modPump n fun u => { u with held := cs }).pumpFlush p n k
      | none => s

/-- PUMP_COMPLETION_PLACED (R120). -/
def execPumpCompletionPlaced (p : Phys) (n : Fin 8) (s : State) : Out :=
  match ((s.tile p).pump n).held with
  | [] => s.noEvent
  | c :: cs => match s.postCompletion p c with
    | some _ => .next ((s.pumpFlush p n (cs.length + 1)).settle p)
    | none => s.noEvent

/-- The well that feeds pump 7: the lowest-numbered that is Open, bound to the pumps and holds a message (R121; log entry
20). -/
def Tile.pumpWell (t : Tile) : Option Nat :=
  (List.range 8).find? fun w => let x := t.well w; x.state == .opened && x.binding == 3 && x.msgs != []

/-- Posts one descriptor fed from a well, or completes it with error 0x03 (R121). -/
def State.feedDesc (s : State) (p : Nat) (d : Nat) : State :=
  match s.descFault (s.tile p) d [] [] with
  | none => s.modTile p fun t => t.post s.variant 7 d 0xFFFF
  | some _ =>
    let j : PumpJob := { desc := d, slot := 0xFFFF, stamp := 0, dst := 0, dstRange := none, srcRange := none, err := 0x03 }
    let s := s.modTile p fun t => t.modPump 7 fun u => { u with error := true, lastErr := 0x03, lastErrSlot := 0xFFFF }
    let s := s.raise { (s.tile p).report p 0x0203 with opValid := true, tag := dTag d, detail := 0x03 }
    let c := pumpCompletion 7 j s.now
    s.pumpPost p 7 { c with counter := none }

/-- WELL_FED_DESCRIPTOR (R121, R199): pump 7 takes a whole message, and validates and posts each of its descriptors. -/
def execWellFedDescriptor (p : Phys) (s : State) : Out :=
  let t := s.tile p
  match t.pumpWell with
  | none => s.noEvent
  | some w => match (t.well w).msgs with
    | [] => s.noEvent
    | m :: _ =>
      if !t.works then s.noEvent
      else
        let s1 := m.descs.foldl (fun s d => s.feedDesc p d) s
        .next ((s1.modTile p fun t => t.modWell w fun x => x.take s.now).settle p)

/-- PUMP_RING_STORE (R120): a store of t_pump[n]'s ring base and ring length. -/
def execPumpRingStore (p : Phys) (n : Fin 8) (fr : StoreFrom) (s : State) : Out :=
  storeRow p (0x600800 + 64 * n) (fun _ => true) fr s

/-- TROUGH_CONFIGURE (R123): a store that sets t_trough[n] configured. -/
def execTroughConfigure (p : Phys) (n : Fin 16) (fr : StoreFrom) (s : State) : Out :=
  storeRow p (0x600A00 + 8 * n) (fun v => bit v 0) fr s

/-- COUNTER_STORE (R145). -/
def execCounterStore (p : Phys) (n : Fin 16) (upper : Bool) (fr : StoreFrom) (s : State) : Out :=
  storeRow p (0x600C00 + 16 * n + 8 * b2n upper) (fun _ => true) fr s

end Sys2Proof.Machine
end

