-- ==== Sys2Proof/Machine/Room.lean ====
section
/-! DEFINITION. What a port die reserves for its requests to peers (R220): storage for what it may have to send again, space for the
data of replies. The spec gives neither a size (log entry 55). -/

namespace Sys2Proof.Machine

/-- Fields of a page command record (R249). -/
def pcOp (r : Nat) : Nat := bits r 3 0
def pcPeer (r : Nat) : Nat := bits r 19 8
def pcHandle (r : Nat) : Nat := bits r 127 64
def pcData (r : Nat) : Nat := bits r 191 128
def pcResult (r : Nat) : Nat := bits r 255 192
def pcPartial (r : Nat) : Nat := bits r 319 256
def pcQueries (r : Nat) : Nat := bits r 42 40 + 1

/-- Bytes of a page of a meadow (R241). -/
def State.pageSize (s : State) (g : Nat) : Nat := 8192 <<< s.obe Ob.page_size g

/-- Head width d of a meadow (R240). -/
def State.pageWidth (s : State) (g : Nat) : Nat := s.obe Ob.page_head_width g

/-- Bytes that a page command's requests take of the storage, with their headers, and of the space for replies (R249). -/
def State.cmdNeeds (s : State) (g r : Nat) : Nat × Nat :=
  let size := s.pageSize g
  if pcOp r = 1 then (size / 4096 * 4160 + 128, 0)
  else if pcOp r = 2 then (size / 4096 * 64, size)
  else if pcOp r = 3 then (64 + pcQueries r * s.pageWidth g, pcQueries r * (8 + 4 * s.pageWidth g))
  else (64, 0)

/-- Bytes of a port die's storage that are taken: the packets that wait or are not acknowledged, with their headers, and what page
commands have reserved. -/
def State.stored (s : State) (d : Nat) : Nat :=
  (s.die d).cmds.foldl (fun n c => match c.2 with
    | some c => n + c.room.1
    | none => n)
    ((s.die d).peers.foldl (fun n p => p.2.spaces.foldl (fun n y =>
      y.2.unacked.foldl (fun n u => n + 64 + u.frame.payload.length)
        (y.2.held.foldl (fun n f => n + 64 + f.payload.length) n)) n) 0)

/-- The storage has room for bytes more; an empty one has room for any. -/
def State.sendRoom (s : State) (d len : Nat) : Bool := s.stored d == 0 || decide (s.stored d + len ≤ Config.sendStore)

/-- Bytes of reply space that requests to peers have reserved. -/
def State.reserved (s : State) (d : Nat) : Nat :=
  (s.die d).cmds.foldl (fun n c => match c.2 with
    | some c => n + c.room.2
    | none => n) ((s.die d).outReqs.foldl (fun n r => n + r.want) 0)

/-- The reply space has room for bytes more; an empty one has room for any, and nothing always has. -/
def State.replyRoom (s : State) (d want : Nat) : Bool :=
  want == 0 || s.reserved d == 0 || decide (s.reserved d + want ≤ Config.replyStore)

/-- The peer of an outbound window (R221). -/
def State.windowPeer (s : State) (w : Nat) : Nat := bits (s.obe Ob.win_remote w) 11 0

/-- The peer that a packet at a port die's edge sends to, and the bytes that its requests take of the storage and of the reply space
(R220, R222, R228, R232, R249). -/
def State.needs (s : State) (k : Packet) : Option (Nat × Nat × Nat) :=
  let a := k.h.addr
  let r := leNat (k.data.take 64)
  if 1 < k.h.cls then none
  else if bits a 63 60 = 2 then
    some (s.windowPeer (bits a 51 40), if k.h.op = 1 then (64, bits k.h.arg0 12 0) else (64 + k.data.length, 0))
  else if bits a 63 60 ≠ 4 then none
  else if bits a 47 44 = 5 then some (bits a 43 32, 64 + k.data.length, 0)
  else if bits a 47 44 = 6 then some (pcPeer r, s.cmdNeeds k.h.meadow r)
  else if bits a 47 44 = 7 then some (s.windowPeer (bits r 11 0), 64, 0)
  else none

/-- A packet's requests find no room: it waits (R220). -/
def State.lacksRoom (s : State) (d : Nat) (k : Packet) : Bool :=
  match s.needs k with
  | some x => !s.sendRoom d x.2.1 || !s.replyRoom d x.2.2
  | none => false

/-- A packet for a peer waits at a port die for room: no more of that peer's are taken (R220). -/
def State.peerWaits (s : State) (d : Nat) (k : Packet) : Bool :=
  match s.needs k with
  | none => false
  | some x => s.net.any fun y => match y.2 with
    | some m => m.loc == .sink && m.target == 4608 + d && (match s.needs m with
        | some z => z.1 == x.1 && s.lacksRoom d m
        | none => false)
    | none => false

end Sys2Proof.Machine
end

