-- ==== Sys2Proof/Machine/Header.lean ====
section
/-! DEFINITION. The header flit of a packet as 64 bytes (R163), and packets as the words of a standpipe (R160). -/

namespace Sys2Proof.Machine

/-- The header flit's bits (R163); its reserved fields are zero. -/
def Header.word (h : Header) : Nat :=
  fld (h.cls % 8) 0 + fld (b2n h.epoch) 3 + fld (b2n h.phase) 4 + fld (b2n h.escaped) 5 + fld (h.length % 128) 8 +
    fld (h.op % 256) 16 + fld (h.meadow % 256) 24 + fld (h.deadline % 65536) 32 + fld (h.seq % 65536) 48 +
    fld (h.dst % 4096) 64 + fld (h.dstKind % 4) 76 + fld (h.src % 4096) 80 + fld (h.srcKind % 4) 92 +
    fld (h.routeRow % 64) 96 + fld (h.routeCol % 128) 102 + fld (h.interRow % 64) 112 + fld (h.interCol % 128) 118 +
    fld (h.flow % 256) 128 + fld (h.status % 256) 136 + fld (h.detail % 256) 144 + fld (h.addr % 2 ^ 64) 192 +
    fld (h.arg0 % 2 ^ 64) 256 + fld (h.arg1 % 2 ^ 64) 320 + fld (h.tag % 2 ^ 64) 384

/-- A flit's 64 bytes as 8 words. -/
def flitWords (v : Nat) : List Word := (List.range 8).map fun i => BitVec.ofNat 64 (v / 2 ^ (64 * i))

/-- A packet as the words of its flits: the header, then its data padded to whole flits (R160, R163). -/
def Packet.words (k : Packet) : List Word :=
  flitWords k.h.word ++ (List.range k.h.length).flatMap fun i => flitWords (leNat ((k.data.drop (64 * i)).take 64))

/-- The number that a flit's words spell. -/
def wordsNat (ws : List Word) : Nat := ws.foldr (fun w n => w.toNat + 2 ^ 64 * n) 0

/-- The length field of the header flit that words begin with. -/
def pipeLength (ws : List Word) : Nat := bits (wordsNat (ws.take 8)) 14 8

/-- The packet on a standpipe whose header flit words spell: its number and itself. -/
def State.onPipe (s : State) (ws : List Word) : Option (Nat × Packet) :=
  s.net.findSome? fun x => match x.2 with
    | some k => if k.loc = .pipe ∧ k.h.word = wordsNat (ws.take 8) then some (x.1, k) else none
    | none => none

/-- A packet whose last word has come to a standpipe's tail enters the network interface as if it had arrived on the packet plane (R160). -/
def State.pipeArrive (s : State) (p i : Nat) : State :=
  let ws := Tbl.get [] (s.tile p).stream.pipeIn i
  if ws.length < 8 ∨ ws.length < 8 * (1 + pipeLength ws) then s
  else
    let s1 := s.modTile p fun t => { t with stream := { t.stream with pipeIn := t.stream.pipeIn.put [] i [] } }
    match s.onPipe ws with
    | some x => s1.setPkt x.1 { x.2 with loc := .sink, target := p, since := s.now }
    | none => s1

/-- The head of a standpipe of the slot in force that leads to a logical tile for a class (R160). -/
def Tile.pipeHead (t : Tile) (peer cls : Nat) : Option Nat :=
  (List.range 4).find? fun i =>
    let e := t.pipe i
    bit e 0 && !bit e 1 && bits e 21 10 == peer && bit (bits e 27 22) cls

/-- A packet goes onto a standpipe, its words behind those that wait at the head (R160). -/
def State.ontoPipe (s : State) (p i n : Nat) (k : Packet) : State :=
  let s1 := s.setPkt n { k with loc := .pipe, since := s.now }
  let s2 := s1.modTile p fun t => { t with stream := { t.stream with
    pipeOut := t.stream.pipeOut.put [] i (Tbl.get [] t.stream.pipeOut i ++ k.words) } }
  s2.streamSettle p

end Sys2Proof.Machine
end

