-- ==== Sys2Proof/Machine/Mech.lean ====
section
/-! DEFINITION. The mechanism instructions (R63 to R74) and the task commands of R77. -/

namespace Sys2Proof.Machine

/-- An instruction of format A whose unused fields `rs` and unused func bits are zero, else fault 0x01 (R59); its effect. -/
def mech (p op : Nat) (d a b : Reg) (func : Func) (unusedOk : Bool) (f : State → Nat → Issue) (s : State) : Out :=
  issue p (encA op d a b func.toNat) (fun s k => if unusedOk then f s k else .fault 0x01 0) s

/-- A register operand as a number. -/
def State.regN (s : State) (p k : Nat) (r : Reg) : Nat := (s.reg p k r).toNat

/-! Scoreboard ranges (R64). -/

/-- The range that CLAIM allocates (R64). -/
def Range.allocate (r : Range) (start len : Nat) (full : Bool) (stamp : Nat) : Range :=
  { claimed := true, start := start / 256, len := len / 256, full, fillsDone := r.fillsDone, lastAbort := r.lastAbort,
    claimedAt := stamp }

/-- The free entries, in increasing order. -/
def Tile.freeRanges (t : Tile) : List Nat := (List.range 64).filter fun r => !(t.range r).claimed

/-- CLAIM's effect. Which free entry it takes is not stated: a free value (log entry 21). -/
def State.claimIssue (s : State) (p k : Nat) (d : Reg) (start len : Nat) (full : Bool) : Issue :=
  let t := s.tile p
  if start % 256 ≠ 0 ∨ len % 256 ≠ 0 then .fault 0x02 (BitVec.ofNat 64 start)
  else if len = 0 ∨ cisternBytes s.variant < start + len then .fault 0x06 (BitVec.ofNat 64 start)
  else if t.rangesAt start len ≠ [] then .retire (s.setReg p k d (BitVec.ofInt 64 (-2)))
  else
    let fs := t.freeRanges
    if fs = [] then .retire (s.setReg p k d (BitVec.ofInt 64 (-1)))
    else
      let id := fs.getD (s.freeVal 6 % fs.length) 0
      let s := s.drew.modTile p fun t =>
        { t.modRange id fun r => r.allocate start len full (t.stamp + 1) with stamp := t.stamp + 1 }
      .retire (s.setReg p k d (BitVec.ofNat 64 id))

/-- CLAIM (R64). -/
def execClaim (p : Phys) (d a b : Reg) (func : Func) (s : State) : Out :=
  mech p 0x30 d a b func (func.toNat < 2)
    (fun s k => s.claimIssue p k d (s.regN p k a) (s.regN p k b) (func.toNat == 1)) s

/-- A range is freed; troughs that use it lose their configured bit (R64, R113, R123). -/
def Tile.releaseRange (t : Tile) (id : Nat) : Tile :=
  let t := t.modRange id fun r => { start := r.start, fillsDone := r.fillsDone, lastAbort := r.lastAbort }
  { t with troughs := Tbl.mapVals {} t.troughs fun _ x =>
      if x.rangeA = id ∨ x.rangeB = id then { x with configured := false } else x }

/-- RELEASE (R64). -/
def execRelease (p : Phys) (d a b : Reg) (func : Func) (s : State) : Out :=
  mech p 0x31 d a b func (d = 0 ∧ b = 0 ∧ func = 0) (fun s k =>
    let id := s.regN p k a
    let r := (s.tile p).range id
    if 64 ≤ id || !r.claimed then .fault 0x0C (s.reg p k a)
    else if r.state = .filling ∨ r.state = .draining then .stall (.release id)
    else .retire (s.modTile p fun t => t.releaseRange id)) s

/-! Pumps and troughs (R65). -/

/-- The descriptors at a pump's ring tail. -/
def Tile.tailDescs (t : Tile) (n count : Nat) : List Nat :=
  (List.range count).map fun i => t.ringDesc n (((t.pump n).tail + i) % (t.pump n).ringLen)

/-- PUMP's effect: the count, room in the ring, the first pass, then the marks and the tail. The pass reads each descriptor through the
cistern's ECC (R103); one with a double-bit error faults as a load of it does (log entry 48). -/
def State.pumpIssue (s : State) (p k : Nat) (d : Reg) (n count : Nat) : Issue :=
  let t := s.tile p
  let u := t.pump n
  if count = 0 ∨ u.ringLen < count then .fault 0x0D (BitVec.ofNat 64 u.tail)
  else if u.ringLen - u.ringUsed < count then .stall (.pump n count)
  else
    let at_ (i : Nat) : Nat := u.ringBase + 64 * ((u.tail + i) % u.ringLen)
    let read := (List.range count).takeWhile fun i => t.poison (at_ i) 64 < 2
    let ds := (t.tailDescs n count).take read.length
    let s := read.foldl (fun s i => s.corrected p (at_ i) 64) s
    match s.firstPass t ds 0 [] [] with
    | some f => .fault f.2.1 (BitVec.ofNat 64 (if f.2.1 = 0x0D then (u.tail + f.1) % u.ringLen else f.2.2))
    | none => if read.length < count then .fault 0x0A (BitVec.ofNat 64 (t.badWord (at_ read.length) 64)) else
      let s := s.modTile p fun t =>
        let t := (ds.zipIdx).foldl (fun t di => t.post s.variant n di.1 ((u.tail + di.2) % u.ringLen)) t
        t.modPump n fun u => { u with tail := (u.tail + count) % u.ringLen }
      .retire (s.setReg p k d (BitVec.ofNat 64 ((u.tail + count) % u.ringLen)))

/-- PUMP (R65). -/
def execPump (p : Phys) (d a b : Reg) (func : Func) (s : State) : Out :=
  mech p 0x32 d a b func (func = 0) (fun s k =>
    if 8 ≤ s.regN p k a then .fault 0x16 (s.reg p k a)
    else s.pumpIssue p k d (s.regN p k a) (s.regN p k b)) s

/-- The pair flips (R65, R122). -/
def Trough.swap (x : Trough) (now : Nat) : Trough :=
  { x with role := !x.role, swaps := (x.swaps + 1) % 65536, lastSwap := some now }

/-- A half of a pair is Filling or Draining. -/
def Tile.troughBusy (t : Tile) (n : Nat) : Bool :=
  [(t.trough n).rangeA, (t.trough n).rangeB].any fun r =>
    (t.range r).state == .filling || (t.range r).state == .draining

/-- SWAP (R65, R280). -/
def execSwap (p : Phys) (d a b : Reg) (func : Func) (s : State) : Out :=
  mech p 0x33 d a b func (d = 0 ∧ b = 0 ∧ func = 0) (fun s k =>
    let n := s.regN p k a
    let t := s.tile p
    if 16 ≤ n || !(t.trough n).configured || (t.trough n).statePair then .fault 0x0C (s.reg p k a)
    else if t.troughBusy n then .stall (.swap n)
    else .retire (s.modTile p fun t => t.modTrough n fun x => x.swap s.now)) s

/-! Messages (R66 to R68). -/

/-- An extent of a message can be read from the local offset space: it lies in one of its memories. A message in the t_ control objects,
for which the spec names no fault, is refused like an absent offset [DESIGN CHOICE, log entry 46]. -/
def localReadable (variant off n : Nat) : Bool :=
  let r := localRegion variant off
  r != .absent && r != .control && localRegion variant (off + n - 1) == r

/-- The flow of a task's sends (R177). -/
def taskFlow (k : Nat) : Nat := 0x10 + k

/-- SEND's effect, with an expiry (R66, R67, R176). Checks: the operand's reserved bits, the offset, the hedge. -/
def State.sendIssue (s : State) (p k : Nat) (d : Option Reg) (well off count expiry : Nat) : Issue :=
  let t := s.tile p
  let dst := bits well 11 0
  if !wellOperandOk well then .fault 0x16 (BitVec.ofNat 64 well)
  else if off % 64 ≠ 0 then .fault 0x02 (BitVec.ofNat 64 off)
  else if !localReadable s.variant off (64 * count) then .fault 0x06 (BitVec.ofNat 64 off)
  else if !s.inHedge t.meadow (t.logical.getD 0xFFF) (.loc dst 0) then .fault 0x05 (BitVec.ofNat 64 well)
  else if 2 ≤ s.loadPoison p off (64 * count) then .fault 0x0A (BitVec.ofNat 64 off)
  else
    let s1 := s.localCorrected p off (64 * count)
    let seq := Tbl.get 0 (s1.tile p).ni.seqs (taskFlow k)
    .begun (s1.tileRequest p 4 0x03 (taskFlow k) dst 0 (mkLoc dst 0) well expiry s1.nextPkt lastDeadline
      (s1.localBytes p off (64 * count))) (.send seq d)

/-- No expiry (R165). -/
def noExpiry : Nat := 2 ^ 64 - 1

/-- SEND (R66). -/
def execSend (p : Phys) (d a b : Reg) (func : Func) (s : State) : Out :=
  mech p 0x34 d a b func (d = 0 ∧ func.toNat < 4)
    (fun s k => s.sendIssue p k none (s.regN p k a) (s.regN p k b) (func.toNat + 1) noExpiry) s

/-- SENDT (R67). -/
def execSendt (p : Phys) (d a b : Reg) (func : Func) (s : State) : Out :=
  mech p 0x35 d a b func true (fun s k =>
    let f := bits func.toNat 10 2
    let timeout := if f = 0 then us (s.tile p).seq.sendDefault else us (4 * f)
    s.sendIssue p k (some d) (s.regN p k a) (s.regN p k b) (func.toNat % 4 + 1) ((s.now + timeout) % 2 ^ 64)) s

/-- Wells of a mask. -/
def wellsOf (mask : Nat) : List Nat := (List.range 8).filter fun w => bit mask w

/-- The well WAITANY takes from: the lowest-numbered, or in rotation the first after the one this task took from last (R68); a task that
has taken from none begins at well 0, which the spec leaves open [DESIGN CHOICE, log entry 46]. -/
def Tile.waitanyWell (t : Tile) (k mask : Nat) (rotate : Bool) : Option Nat :=
  let order := if rotate then (List.range 8).map fun i => ((match (t.task k).lastWell with | some w => w | none => 7) + 1 + i) % 8
    else List.range 8
  order.find? fun w => bit mask w && (t.well w).state == .opened && (t.well w).msgs != []

/-- The message word of WAITANY (R68). -/
def messageWord (w : Nat) (x : Well) (m : WellMsg) : Nat :=
  w + fld (m.descs.length - 1) 3 + fld x.gen 8 + fld m.sender 16

/-- The descriptors of a message as bytes of a message buffer, the rest zero (R199). -/
def msgBytes (m : WellMsg) : Mem := Mem.writeBytes [] 0 (m.descs.flatMap (toLE 64))

/-- WAITANY's effect. -/
def State.waitanyIssue (s : State) (p k : Nat) (d : Reg) (mask : Nat) (rotate : Bool) : Issue :=
  let t := s.tile p
  if mask = 0 || (wellsOf mask).any fun w => (t.well w).binding != 0 then .fault 0x0E (BitVec.ofNat 64 mask)
  else if !(wellsOf mask).any fun w => (t.well w).state == .opened then .retire (s.setReg p k d (BitVec.ofNat 64 (2 ^ 63)))
  else match t.waitanyWell k mask rotate with
    | none => .stall (.waitany mask)
    | some w => match (t.well w).msgs with
      | [] => .stall (.waitany mask)
      | m :: _ =>
        let s1 := s.modTile p fun t => (t.modWell w fun x => x.take s.now).modTask k fun x =>
          { x with msgBuf := msgBytes m, lastWell := some w }
        .retire (s1.setReg p k d (BitVec.ofNat 64 (messageWord w (t.well w) m)))

/-- WAITANY (R68). -/
def execWaitany (p : Phys) (d a b : Reg) (func : Func) (s : State) : Out :=
  mech p 0x36 d a b func (b = 0 ∧ func.toNat < 2) (fun s k =>
    if 256 ≤ s.regN p k a then .fault 0x16 (s.reg p k a)
    else s.waitanyIssue p k d (s.regN p k a) (func.toNat == 1)) s

/-! The stream plane (R69, R70). -/

/-- FOLD (R69): the request joins any that are pending, and the task is stalled until its switch. -/
def execFold (p : Phys) (d a b : Reg) (func : Func) (s : State) : Out :=
  mech p 0x37 d a b func (b = 0 ∧ func.toNat < 2) (fun s k =>
    let n := s.regN p k a
    if 8 ≤ n then .fault 0x16 (s.reg p k a)
    else if !(s.tile p).slotLoaded n then .fault 0x0F (s.reg p k a)
    else .begun (s.modTile p fun t => { t with stream := { t.stream with
        folds := t.stream.folds ++ [{ slot := n, atQuiet := func.toNat == 1, task := some (k, d) }] } }) (.fold d)) s

/-- A fold's switch is under way, or begins at quiet: graph sources and TOKEN are stopped (R150). -/
def Tile.folding (t : Tile) : Bool :=
  t.stream.folding || (match t.stream.folds with | f :: _ => f.atQuiet | [] => false)

/-- TOKEN can emit on a sequencer stream output: it has a credit, and neither a fold nor a drain has stopped it (R57, R70,
R150, R152). -/
def Tile.tokenReady (t : Tile) (out : Nat) : Bool :=
  t.sourceReady (4 + out) && !t.folding

/-- A drain is requested with a token (R152): graph sources are to emit it and stop. -/
def Tile.requestDrain (t : Tile) (now op arg : Nat) : Tile :=
  { t with stream := { t.stream with drainTok := some (op, arg), drainSince := now, quietSent := false } }

/-- A control token leaves a sequencer stream output; END_STEP and DRAIN request a drain, and the output, being a graph
source, has so emitted its own token and stops (R70, R152). -/
def State.tokenOut (s : State) (p out op arg : Nat) : State :=
  (s.modTile p fun t =>
    let t := t.emit (4 + out) (.token op arg)
    if op = 3 ∨ op = 5 then
      let t := t.requestDrain s.now op arg
      if t.graphSource (4 + out) then
        { t with stream := { t.stream with stopped := t.stream.stopped ++ [4 + out] } } else t
    else t).streamSettle p

/-- TOKEN (R70). -/
def execToken (p : Phys) (d a b : Reg) (func : Func) (s : State) : Out :=
  if func.toNat / 4 % 2 = 1 then s.noEvent
  else mech p 0x38 d a b func (d = 0 ∧ b = 0 ∧ func.toNat < 4) (fun s k =>
    let v := s.regN p k a
    if 2 ^ 24 ≤ v then .fault 0x16 (s.reg p k a)
    else if tokenReserved (v % 256) then .fault 0x10 (s.reg p k a)
    else if !(s.tile p).tokenReady (func.toNat % 4) then .stall (.token (func.toNat % 4))
    else .retire (s.tokenOut p (func.toNat % 4) (v % 256) (v / 256))) s

/-- TOKEN with func[2] set (R70): an end word closes the output's stream. -/
def execTokenEndWord (p : Phys) (d a b : Reg) (func : Func) (s : State) : Out :=
  if func.toNat / 4 % 2 = 0 then s.noEvent
  else mech p 0x38 d a b func (d = 0 ∧ b = 0 ∧ func.toNat < 8) (fun s k =>
    if s.reg p k a ≠ 0 then .fault 0x16 (s.reg p k a)
    else if !(s.tile p).tokenReady (func.toNat % 4) then .stall (.token (func.toNat % 4))
    else .retire ((s.modTile p fun t => t.emit (4 + func.toNat % 4) (.endWord 0)).streamSettle p)) s

/-! Waiting, credit, barriers (R71 to R74). -/

/-- WAIT (R71). The next WAIT clears woke dark (R364). -/
def execWait (p : Phys) (d a b : Reg) (func : Func) (s : State) : Out :=
  mech p 0x39 d a b func (b = 0 ∧ func = 0) (fun s k =>
    let mask := s.regN p k a
    if 2 ^ 14 ≤ mask then .fault 0x16 (s.reg p k a)
    else
      let s := s.modTile p fun t => { t with power := { t.power with wokeDark := false } }
      match (s.tile p).waitResult k mask with
      | some r => .retire ((s.modTile p fun t => t.modTask k fun x => { x with pend := x.pend - (x.pend &&& r) }).setReg
          p k d (BitVec.ofNat 64 r))
      | none => .wait (s.modTile p fun t => t.modTask k fun x =>
          { x with waitMask := BitVec.ofNat 64 mask, waitD := d })) s

/-- CREDIT (R72). -/
def execCredit (p : Phys) (d a b : Reg) (func : Func) (s : State) : Out :=
  mech p 0x3A d a b func (b = 0 ∧ func = 0) (fun s k =>
    let t := s.tile p
    let amount := s.regN p k a
    if amount = 0 then .fault 0x16 0
    else if 65535 < amount ∨ s.creditCapacity t < amount then .fault 0x11 (s.reg p k a)
    else if t.power.balance < amount then
      let order := match (t.task k).credit with
        | some c => c.2
        | none => t.seq.creditOrder
      .begun (s.modTile p fun t => { (t.modTask k fun x => { x with credit := some (amount, order) }) with
          seq := { (t.modTask k fun x => { x with credit := some (amount, order) }).seq with
            creditOrder := max t.seq.creditOrder (order + 1) } })
        (.credit amount order)
    else
      let s := s.modTile p fun t => { (t.modTask k fun x => { x with credit := none }) with
        power := { t.power with balance := t.power.balance - amount } }
      .retire (s.setReg p k d (BitVec.ofNat 64 (t.power.balance - amount)))) s

/-- BARRIER (R73, R278): the arrival is sent, and the task is stalled until the barrier completes. -/
def execBarrier (p : Phys) (d a b : Reg) (func : Func) (s : State) : Out :=
  mech p 0x3C d a b func (b = 0 ∧ func = 0) (fun s k =>
    let n := s.regN p k a
    if 16 ≤ n then .fault 0x16 (s.reg p k a)
    else if !((s.tile p).barrier n).enable then .fault 0x12 (s.reg p k a)
    else .begun (s.barrierArrive p n) (.barrier n d)) s

/-! Release of stalls (R57). -/

/-- Credits asked for by the tasks whose CREDIT has stalled, and not been served since, that grants serve before task `k`: of higher
priority, or of the same priority and issued earlier (R72). -/
def Tile.creditBefore (t : Tile) (k order : Nat) : Nat :=
  (List.range 16).foldl (fun n i =>
    let x := t.task i
    match x.credit with
    | some c => if i ≠ k ∧ ((t.task k).prio < x.prio ∨ ((t.task k).prio = x.prio ∧ c.2 < order)) then n + c.1 else n
    | none => n) 0

/-- A stall's release condition holds (R57). A task stalled in SEND, FOLD or BARRIER is released by the event that completes
it. -/
def Tile.released (t : Tile) (k : Nat) : Stall → Bool
  | .load off n => !t.anyRange off n .filling
  | .store off n => !t.anyRange off n .draining
  | .pump n count => count ≤ (t.pump n).ringLen - (t.pump n).ringUsed
  | .waitany mask => ((wellsOf mask).any fun w => (t.well w).state == .opened && (t.well w).msgs != [])
  | .token out => t.tokenReady out
  | .credit amount order => t.creditBefore k order + amount ≤ t.power.balance
  | .release id => (t.range id).state != .filling && (t.range id).state != .draining
  | .swap n => !t.troughBusy n
  | .send _ _ => false
  | .fold _ => false
  | .barrier _ _ => false

/-- STALL_RELEASE (R57). -/
def execStallRelease (p : Phys) (k : Task16) (s : State) : Out :=
  let t := s.tile p
  let x := t.task k
  match x.state, x.stall with
  | .stalled, some r =>
    if t.released k r ∧ t.power.state ≠ .t2 ∧ t.power.state ≠ .t3 ∧ !t.frozen then
      .next ((s.modTile p fun t => t.unstall k).settle p)
    else s.noEvent
  | _, _ => s.noEvent

/-! Task commands (R77). -/

/-- TASK_START (R77). -/
def execTaskStart (p : Phys) (k : Task16) (fr : StoreFrom) (s : State) : Out :=
  storeRow p (0x600100 + 8 * k) (fun v => bits v 31 28 == 1) fr s

/-- TASK_STOP (R77). -/
def execTaskStop (p : Phys) (k : Task16) (fr : StoreFrom) (s : State) : Out :=
  storeRow p (0x600100 + 8 * k) (fun v => bits v 31 28 == 2) fr s

/-- TASK_CLEAR_FAULT (R77). -/
def execTaskClearFault (p : Phys) (k : Task16) (fr : StoreFrom) (s : State) : Out :=
  storeRow p (0x600100 + 8 * k) (fun v => bits v 31 28 == 3) fr s

/-- CLOCK_SOURCE_SWITCH (R368): the tile's clock follows t_power source at an instruction boundary. -/
def execClockSourceSwitch (p : Phys) (s : State) : Out :=
  let t := s.tile p
  if t.power.source ≠ t.power.sourceNow ∧ (t.power.state = .t0 ∨ t.power.state = .t1) then
    .next (s.modTile p fun t => { t with power := { t.power with sourceNow := t.power.source } })
  else s.noEvent

end Sys2Proof.Machine
end

