-- ==== Sys2Proof/Machine/Formats.lean ====
section
/-! DEFINITION. The number formats (R28 to R34), exact values, rounding and conversion (R45 to R51). -/

namespace Sys2Proof.Machine

/-- An exact value of an element: NaN, an infinity, or ± m × 2^e; a zero keeps its sign (R29). -/
inductive Num where
  | nan
  | inf (neg : Bool)
  | fin (neg : Bool) (m : Nat) (e : Int)
  deriving DecidableEq, Repr

/-- How a floating-point format spends its top exponent (R29). -/
inductive Special where
  | ieee   -- infinities and NaN
  | e4m3   -- one NaN mantissa, no infinity
  | none   -- every encoding is a number
  deriving DecidableEq, Repr

/-- A floating-point format's layout (R29). -/
structure FloatFmt where
  ebits : Nat
  mbits : Nat
  bias : Nat
  special : Special
  deriving DecidableEq, Repr

/-- The floating-point format of a code (R28, R29). -/
def floatFmt : Nat → Option FloatFmt
  | 0x00 => some ⟨8, 23, 127, .ieee⟩
  | 0x01 => some ⟨5, 10, 15, .ieee⟩
  | 0x02 => some ⟨8, 7, 127, .ieee⟩
  | 0x03 => some ⟨4, 3, 7, .e4m3⟩
  | 0x04 => some ⟨5, 2, 15, .ieee⟩
  | 0x05 => some ⟨3, 2, 3, .none⟩
  | 0x06 => some ⟨2, 3, 1, .none⟩
  | 0x07 => some ⟨2, 1, 1, .none⟩
  | _ => none

/-- The integer and fixed-point formats: width and fraction bits (R30). -/
def intFmt : Nat → Option (Nat × Nat)
  | 0x08 => some (8, 0)
  | 0x09 => some (4, 0)
  | 0x0A => some (8, 6)
  | _ => none

/-- The width in bits of one element of a format; T2 and LA are handled apart (R28). -/
def fmtWidth : Nat → Nat
  | 0x00 => 32 | 0x01 => 16 | 0x02 => 16 | 0x03 => 8 | 0x04 => 8 | 0x05 => 6 | 0x06 => 6 | 0x07 => 4
  | 0x08 => 8 | 0x09 => 4 | 0x0A => 8 | _ => 0

/-- Formats that may carry MX block scales (R32, R87). -/
def fmtIsMx (f : Nat) : Bool := f == 3 || f == 4 || f == 5 || f == 6 || f == 7 || f == 10

/-- The value of an encoding of a floating-point format (R29). -/
def decodeFloat (f : FloatFmt) (raw : Nat) : Num :=
  let mant := raw % 2 ^ f.mbits
  let ex := (raw >>> f.mbits) % 2 ^ f.ebits
  let neg := raw.testBit (f.ebits + f.mbits)
  if ex = 2 ^ f.ebits - 1 ∧ f.special = .ieee then (if mant = 0 then .inf neg else .nan)
  else if ex = 2 ^ f.ebits - 1 ∧ f.special = .e4m3 ∧ mant = 2 ^ f.mbits - 1 then .nan
  else if ex = 0 then .fin neg mant (1 - (f.bias : Int) - f.mbits)
  else .fin neg (2 ^ f.mbits + mant) ((ex : Int) - f.bias - f.mbits)

/-- The value of a two's complement encoding with `frac` fraction bits (R30). -/
def decodeInt (w frac raw : Nat) : Num :=
  let z := signed w raw
  .fin (decide (z < 0)) z.natAbs (-(frac : Int))

/-- The value of one element of format `f` (R29, R30). -/
def decodeElem (f raw : Nat) : Num :=
  match floatFmt f with
  | some ff => decodeFloat ff raw
  | none => match intFmt f with
    | some (w, frac) => decodeInt w frac raw
    | none => .nan

/-- The value of trit `i` of a T2 byte; none for the codes 243 to 255 (R34). -/
def decodeTrit (b i : Nat) : Option Num :=
  if 243 ≤ b then none
  else match (b / 3 ^ i) % 3 with
    | 0 => some (.fin false 0 0)
    | 1 => some (.fin false 1 0)
    | _ => some (.fin true 1 0)

/-- A value times 2^k. -/
def Num.scale (k : Int) : Num → Num
  | .fin n m e => .fin n m (e + k)
  | x => x

/-- The negation. -/
def Num.neg : Num → Num
  | .nan => .nan
  | .inf n => .inf (!n)
  | .fin n m e => .fin (!n) m e

/-- The magnitude. -/
def Num.abs : Num → Num
  | .nan => .nan
  | .inf _ => .inf false
  | .fin _ m e => .fin false m e

/-- NaN or infinity: an invalid operand of the tensor unit (R36). -/
def Num.special : Num → Bool
  | .fin _ _ _ => false
  | _ => true

/-- The sign. -/
def Num.isNeg : Num → Bool
  | .nan => false
  | .inf n => n
  | .fin n _ _ => n

/-- Is a zero. -/
def Num.isZero : Num → Bool
  | .fin _ 0 _ => true
  | _ => false

/-- m × 2^e aligned to exponent `k` ≤ e. -/
def alignTo (m : Nat) (e k : Int) : Nat := m <<< (e - k).toNat

/-- The signed integer of a finite value at exponent `k` ≤ e. -/
def signedAt (neg : Bool) (m : Nat) (e k : Int) : Int :=
  if neg then -((alignTo m e k : Nat) : Int) else ((alignTo m e k : Nat) : Int)

/-- Rounding mode of R45: to nearest even, or stochastic with the 24-bit number r of the element. -/
inductive Rnd where
  | rne
  | sr (r : Nat)
  deriving DecidableEq, Repr

/-- r of R47, from the seed and pos = position base + linear index, modulo 2^64. -/
def srNumber (seed pos : BitVec 64) : Nat :=
  let x0 := seed ^^^ (pos * 0x9E3779B97F4A7C15#64)
  let x1 := (x0 ^^^ (x0 >>> 30)) * 0xBF58476D1CE4E5B9#64
  let x2 := (x1 ^^^ (x1 >>> 27)) * 0x94D049BB133111EB#64
  let x3 := x2 ^^^ (x2 >>> 31)
  (x3 >>> 40).toNat

/-- Rounds m × 2^e to a multiple of 2^q (R46), as the multiple. -/
def roundAt (mode : Rnd) (m : Nat) (e q : Int) : Nat :=
  if q ≤ e then m <<< (e - q).toNat
  else
    let s := (q - e).toNat
    let i := m >>> s
    let rem := m % 2 ^ s
    match mode with
    | .rne => if 2 * rem > 2 ^ s ∨ (2 * rem = 2 ^ s ∧ i % 2 = 1) then i + 1 else i
    | .sr r => if rem = 0 then i else if (rem <<< 24) / 2 ^ s + r ≥ 2 ^ 24 then i + 1 else i

/-- The exponent of the unit in the last place at magnitude m × 2^e, not below the subnormal unit (R46). -/
def ulpExp (f : FloatFmt) (m : Nat) (e : Int) : Int :=
  max ((Nat.log2 m : Int) + e) (1 - (f.bias : Int)) - f.mbits

/-- The largest finite magnitude as M × 2^k (R29). -/
def maxFinite (f : FloatFmt) : Nat × Int :=
  match f.special with
  | .ieee => (2 ^ (f.mbits + 1) - 1, (2 ^ f.ebits - 2 : Nat) - (f.bias : Int) - f.mbits)
  | .e4m3 => (2 ^ (f.mbits + 1) - 2, (2 ^ f.ebits - 1 : Nat) - (f.bias : Int) - f.mbits)
  | .none => (2 ^ (f.mbits + 1) - 1, (2 ^ f.ebits - 1 : Nat) - (f.bias : Int) - f.mbits)

/-- a × 2^x > b × 2^y. -/
def magGt (a : Nat) (x : Int) (b : Nat) (y : Int) : Bool :=
  let k := min x y
  decide (alignTo a x k > alignTo b y k)

/-- The encoding of a magnitude M × 2^q that the format holds, sign apart (R29). -/
def encodeMag (f : FloatFmt) (mm : Nat) (q : Int) : Nat :=
  if mm = 0 then 0
  else
    let (m1, q1) := if mm = 2 ^ (f.mbits + 1) then (2 ^ f.mbits, q + 1) else (mm, q)
    if m1 < 2 ^ f.mbits then m1
    else ((q1 + f.mbits + f.bias).toNat <<< f.mbits) + (m1 - 2 ^ f.mbits)

/-- The sign bit in place. -/
def signBit (f : FloatFmt) (neg : Bool) : Nat := if neg then 2 ^ (f.ebits + f.mbits) else 0

/-- The encoding of infinity, for an IEEE format. -/
def infCode (f : FloatFmt) (neg : Bool) : Nat := signBit f neg + ((2 ^ f.ebits - 1) <<< f.mbits)

/-- The canonical NaN of a format (R49); 0 where it has none. -/
def nanCode : Nat → Nat
  | 0x00 => 0x7FC00000 | 0x01 => 0x7E00 | 0x02 => 0x7FC0 | 0x03 => 0x7F | 0x04 => 0x7E | _ => 0

/-- Formats that have a NaN (R29). -/
def hasNan (f : Nat) : Bool := f == 0 || f == 1 || f == 2 || f == 3 || f == 4

/-- Formats that have an infinity (R29). -/
def hasInf (f : Nat) : Bool := f == 0 || f == 1 || f == 2 || f == 4

/-- A converted element and the counts it adds (R48, R50, R93). -/
structure Conv where
  raw : Nat
  saturated : Nat
  underflow : Nat
  invalid : Nat
  deriving DecidableEq, Repr

/-- Converts a finite magnitude with its sign to a floating-point format (R46, R48). `ieeeOvf` is the overflow mode. -/
def convFloat (f : FloatFmt) (ieeeOvf : Bool) (mode : Rnd) (neg : Bool) (m : Nat) (e : Int) : Conv :=
  if m = 0 then ⟨signBit f neg, 0, 0, 0⟩
  else
    let q := ulpExp f m e
    let mm := roundAt mode m e q
    let (bm, bq) := maxFinite f
    if magGt mm q bm bq then
      if ieeeOvf ∧ f.special = .ieee then ⟨infCode f neg, 1, 0, 0⟩
      else ⟨signBit f neg + encodeMag f bm bq, 1, 0, 0⟩
    else ⟨signBit f neg + encodeMag f mm q, 0, b2n (decide (mm = 0)), 0⟩

/-- Converts a finite value to an integer or fixed-point format (R46, R48). -/
def convInt (w frac : Nat) (mode : Rnd) (neg : Bool) (m : Nat) (e : Int) : Conv :=
  let mm := roundAt mode m e (-(frac : Int))
  let lim := if neg then 2 ^ (w - 1) else 2 ^ (w - 1) - 1
  if mm > lim then ⟨unsigned w (if neg then -(lim : Int) else lim), 1, 0, 0⟩
  else ⟨unsigned w (if neg then -(mm : Int) else mm), 0, b2n (decide (mm = 0 ∧ m ≠ 0)), 0⟩

/-- Converts an infinity to a format without one: the largest finite value of its sign (R50). -/
def largestOf (fmt : Nat) (neg : Bool) : Nat :=
  match floatFmt fmt with
  | some f => let (bm, bq) := maxFinite f; signBit f neg + encodeMag f bm bq
  | none => match intFmt fmt with
    | some (w, _) => unsigned w (if neg then -((2 ^ (w - 1) : Nat) : Int) else ((2 ^ (w - 1) - 1 : Nat) : Int))
    | none => 0

/-- Converts a value to one element of format `fmt` (R45 to R50). -/
def convElem (fmt : Nat) (ieeeOvf : Bool) (mode : Rnd) : Num → Conv
  | .nan => ⟨nanCode fmt, 0, 0, b2n (!hasNan fmt)⟩
  | .inf neg =>
    match floatFmt fmt with
    | some f => if hasInf fmt then ⟨infCode f neg, 0, 0, 0⟩ else ⟨largestOf fmt neg, 0, 0, 1⟩
    | none => ⟨largestOf fmt neg, 0, 0, 1⟩
  | .fin neg m e =>
    match floatFmt fmt with
    | some f => convFloat f ieeeOvf mode neg m e
    | none => match intFmt fmt with
      | some (w, frac) => convInt w frac mode neg m e
      | none => ⟨0, 0, 0, 0⟩

/-- emax of R51. -/
def mxEmax : Nat → Int
  | 0x03 => 8 | 0x04 => 15 | 0x05 => 4 | 0x06 => 2 | 0x07 => 2 | _ => 0

/-- floor(log2) of the largest finite nonzero magnitude of a block; none when there is none (R51). -/
def blockLog2 (xs : List Num) : Option Int :=
  xs.foldl (fun acc x => match x with
    | .fin _ m e => if m = 0 then acc else
        let l := (Nat.log2 m : Int) + e
        some (match acc with | none => l | some a => max a l)
    | _ => acc) none

/-- Writes an MX block (R51): the scale code and the element codes with their counts. `modes` gives each element's
rounding. In a block that holds a NaN, infinities count as no invalid element and finite elements, written as zero codes, as no
underflow: R48, R50 and R51 do not say [DESIGN CHOICE, log entry 46]. -/
def mxBlock (fmt : Nat) (ieeeOvf : Bool) (xs : List (Rnd × Num)) : Nat × List Conv :=
  let vals := xs.map (·.2)
  if vals.any (· == .nan) then
    (0xFF, xs.map fun x => ⟨0, 0, 0, b2n (x.2 == .nan && !hasNan fmt)⟩)
  else
    let hasInfIn := vals.any fun x => match x with | .inf _ => true | _ => false
    match blockLog2 vals with
    | none => if hasInfIn then (0xFE, xs.map fun x => convElem fmt ieeeOvf x.1 (x.2.scale (-127)))
              else (0, xs.map fun _ => ⟨0, 0, 0, 0⟩)
    | some l =>
      let x := max (-127) (min 127 (l - mxEmax fmt))
      ((x + 127).toNat, xs.map fun y => convElem fmt ieeeOvf y.1 (y.2.scale (-x)))

/-- The power of an E8M0 scale code; none for 0xFF, NaN (R32). -/
def e8m0 (code : Nat) : Option Int := if code = 0xFF then none else some ((code : Int) - 127)

/-- Packs element codes of `w` bits, little-endian in element order (R31). -/
def packElems (w : Nat) (cs : List Nat) : Nat :=
  cs.foldr (fun c acc => (c % 2 ^ w) + (acc <<< w)) 0

/-- Bytes of a row of `n` elements of format `fmt`, padded to whole groups or blocks (R31, R32, R34, R85). -/
def rowBytes (fmt n : Nat) (scaled : Bool) : Nat :=
  if fmt = 0x0B then 8 * ceilDiv n 40
  else if fmt = 0x0C then 32 * n
  else if scaled then ceilDiv n 32 * (4 * fmtWidth fmt)
  else if fmt = 5 ∨ fmt = 6 then 3 * ceilDiv n 4
  else if fmt = 7 ∨ fmt = 9 then ceilDiv n 2
  else n * (fmtWidth fmt / 8)

end Sys2Proof.Machine
end

