-- ==== Sys2Proof/Machine/Float32.lean ====
section
/-! DEFINITION. The vector unit's binary32 arithmetic (R96 to R99): each result is the exact value rounded once to nearest
even; NaN inputs and invalid operations are counted (R97). -/

namespace Sys2Proof.Machine

/-- A binary32 value with the NaN inputs and invalid operations counted so far (R97). -/
structure FlR where
  v : Num
  inv : Nat
  deriving DecidableEq, Repr

/-- binary32's layout (R29). -/
def b32 : FloatFmt := ⟨8, 23, 127, .ieee⟩

/-- Rounds ± m × 2^e to binary32 (R96: RNE, subnormals kept); beyond the largest finite value it becomes infinity. -/
def rnd32 (neg : Bool) (m : Nat) (e : Int) : Num :=
  if m = 0 then .fin neg 0 (-149)
  else
    let q := ulpExp b32 m e
    let mm := roundAt .rne m e q
    let (bm, bq) := maxFinite b32
    if magGt mm q bm bq then .inf neg else .fin neg mm q

/-- Rounds a magnitude known to lie strictly between m and m + 1 units of 2^e (`sticky`), or equal to m of them. -/
def rnd32s (neg : Bool) (m : Nat) (e : Int) (sticky : Bool) : Num := rnd32 neg (2 * m + b2n sticky) (e - 1)

/-- The encoding of a binary32 value; every NaN is the canonical one (R97). -/
def Num.code32 (x : Num) : Nat := (convElem 0 true .rne x).raw

/-- An exact sum of two finite values, rounded; an exact zero sum is +0 unless both are −0 (IEEE 754 RNE). -/
def addFin (n1 : Bool) (m1 : Nat) (e1 : Int) (n2 : Bool) (m2 : Nat) (e2 : Int) : Num :=
  let k := min e1 e2
  let z := signedAt n1 m1 e1 k + signedAt n2 m2 e2 k
  if z = 0 then .fin (n1 && n2) 0 (-149) else rnd32 (decide (z < 0)) z.natAbs k

/-- x + y in binary32. -/
def fadd (x y : Num) : FlR :=
  match x, y with
  | .nan, _ => ⟨.nan, 0⟩
  | _, .nan => ⟨.nan, 0⟩
  | .inf a, .inf b => if a = b then ⟨.inf a, 0⟩ else ⟨.nan, 1⟩
  | .inf a, _ => ⟨.inf a, 0⟩
  | _, .inf b => ⟨.inf b, 0⟩
  | .fin a m e, .fin b m' e' => ⟨addFin a m e b m' e', 0⟩

/-- x × y in binary32. -/
def fmul (x y : Num) : FlR :=
  match x, y with
  | .nan, _ => ⟨.nan, 0⟩
  | _, .nan => ⟨.nan, 0⟩
  | .inf a, .inf b => ⟨.inf (a != b), 0⟩
  | .inf a, .fin b m _ => if m = 0 then ⟨.nan, 1⟩ else ⟨.inf (a != b), 0⟩
  | .fin a m _, .inf b => if m = 0 then ⟨.nan, 1⟩ else ⟨.inf (a != b), 0⟩
  | .fin a m e, .fin b m' e' => ⟨rnd32 (a != b) (m * m') (e + e'), 0⟩

/-- The exact product, for one rounding of x × y + z; an infinite or NaN product as IEEE 754 gives it. -/
def prodExact (x y : Num) : FlR :=
  match x, y with
  | .nan, _ => ⟨.nan, 0⟩
  | _, .nan => ⟨.nan, 0⟩
  | .inf a, .inf b => ⟨.inf (a != b), 0⟩
  | .inf a, .fin b m _ => if m = 0 then ⟨.nan, 1⟩ else ⟨.inf (a != b), 0⟩
  | .fin a m _, .inf b => if m = 0 then ⟨.nan, 1⟩ else ⟨.inf (a != b), 0⟩
  | .fin a m e, .fin b m' e' => ⟨.fin (a != b) (m * m') (e + e'), 0⟩

/-- x × y + z with one rounding (VFMA). -/
def ffma (x y z : Num) : FlR :=
  let p := prodExact x y
  let r := fadd p.v z
  ⟨r.v, p.inv + r.inv⟩

/-- x < y in the order of max and min, where −0 lies below +0 (R97); neither is NaN. -/
def numLt (x y : Num) : Bool :=
  match x, y with
  | .inf a, .inf b => a && !b
  | .inf a, _ => a
  | _, .inf b => !b
  | .fin a m e, .fin b m' e' =>
    if m = 0 ∧ m' = 0 then a && !b
    else
      let k := min e e'
      decide (signedAt a m e k < signedAt b m' e' k)
  | _, _ => false

/-- max of R97: NaN when either is. -/
def fmax (x y : Num) : Num :=
  match x, y with
  | .nan, _ => .nan
  | _, .nan => .nan
  | _, _ => if numLt x y then y else x

/-- min of R97. -/
def fmin (x y : Num) : Num :=
  match x, y with
  | .nan, _ => .nan
  | _, .nan => .nan
  | _, _ => if numLt x y then x else y

/-- 1 / x, correctly rounded (R96, R97). -/
def frcp (x : Num) : FlR :=
  match x with
  | .nan => ⟨.nan, 0⟩
  | .inf n => ⟨.fin n 0 (-149), 0⟩
  | .fin n m e =>
    if m = 0 then ⟨.inf n, 0⟩
    else
      let num := 2 ^ (Nat.log2 m + 64)
      ⟨rnd32s n (num / m) (-(Nat.log2 m + 64 : Nat) - e) (decide (num % m ≠ 0)), 0⟩

/-- One Newton step down towards the integer square root of n. -/
def isqrtGo (n : Nat) : Nat → Nat → Nat
  | 0, x => x
  | k + 1, x => let y := (x + n / x) / 2; if y < x then isqrtGo n k y else x

/-- The integer square root: starts above the root and steps down; the number of steps bounds it for any n here. -/
def isqrt (n : Nat) : Nat := if n = 0 then 0 else isqrtGo n (Nat.log2 n + 4) (2 ^ (Nat.log2 n / 2 + 1))

/-- 1 / sqrt(x), correctly rounded; of a negative number invalid, of ±0 ±∞ (R96, R97). -/
def frsqrt (x : Num) : FlR :=
  match x with
  | .nan => ⟨.nan, 0⟩
  | .inf n => if n then ⟨.nan, 1⟩ else ⟨.fin false 0 (-149), 0⟩
  | .fin n m e =>
    if m = 0 then ⟨.inf n, 0⟩
    else if n then ⟨.nan, 1⟩
    else
      -- x = m1 × 2^e1 with e1 even; 1/sqrt(x) = sqrt(2^(2j) / m1) × 2^(−j − e1/2)
      let (m1, e1) := if e % 2 = 0 then (m, e) else (2 * m, e - 1)
      let j := Nat.log2 m1 + 64
      let q := 2 ^ (2 * j) / m1
      let r := isqrt q
      ⟨rnd32s false r (-(j : Int) - e1 / 2) (decide (r * r * m1 ≠ 2 ^ (2 * j))), 0⟩

/-- Fraction bits of the fixed-point work of VEXP2 and VLOG2 (log entry 11). -/
def fxBits : Nat := 256

/-- The product of 2^(2^−i) over the set bits of the fraction (bit `i` of weight 2^−i), in fixed point. -/
def exp2Frac : Nat → Nat → Nat → Nat → Nat
  | 0, _, _, acc => acc
  | k + 1, frac, root, acc =>
    -- root = 2^(2^−i); the top fraction bit left has weight 2^−i
    let r := isqrt (root <<< fxBits)
    let top := frac.testBit k
    exp2Frac k frac r (if top then (acc * r) >>> fxBits else acc)

/-- 2^x, correctly rounded (R96). -/
def fexp2 (x : Num) : FlR :=
  match x with
  | .nan => ⟨.nan, 0⟩
  | .inf n => if n then ⟨.fin false 0 (-149), 0⟩ else ⟨.inf false, 0⟩
  | .fin n m e =>
    if m = 0 then ⟨.fin false 1 0, 0⟩
    else if (Nat.log2 m : Int) + e ≥ 8 then
      (if n then ⟨.fin false 0 (-149), 0⟩ else ⟨.inf false, 0⟩)
    else
      -- x as an integer of 2^−149 units, split into floor and fraction
      let z := signedAt n m e (-149)
      let ip := z / (2 ^ 149 : Nat)
      let fp := (z % (2 ^ 149 : Nat)).toNat
      if fp = 0 then ⟨rnd32 false 1 ip, 0⟩
      else ⟨rnd32s false (exp2Frac 149 fp (2 <<< fxBits) (1 <<< fxBits)) (ip - fxBits) true, 0⟩

/-- Successive bits of log2 of y / 2^fxBits2, 1 ≤ y < 2, by squaring. -/
def log2Bits (p : Nat) : Nat → Nat → Nat → Nat
  | 0, _, acc => acc
  | k + 1, y, acc =>
    let s := (y * y) >>> p
    if s ≥ 2 <<< p then log2Bits p k (s / 2) (2 * acc + 1) else log2Bits p k s (2 * acc)

/-- log2(x), correctly rounded; of a negative number invalid, of ±0 −∞ (R96, R97). -/
def flog2 (x : Num) : FlR :=
  match x with
  | .nan => ⟨.nan, 0⟩
  | .inf n => if n then ⟨.nan, 1⟩ else ⟨.inf false, 0⟩
  | .fin n m e =>
    if m = 0 then ⟨.inf true, 0⟩
    else if n then ⟨.nan, 1⟩
    else
      let l := Nat.log2 m
      let ip : Int := (l : Int) + e
      if m = 2 ^ l then ⟨rnd32 (decide (ip < 0)) ip.natAbs 0, 0⟩
      else
        let f := log2Bits 512 160 (m <<< (512 - l)) 0
        -- the logarithm lies strictly between ip + f and ip + f + 1 units of 2^−160
        let z : Int := ip * (2 ^ 160 : Nat) + f
        if z ≥ 0 then ⟨rnd32s false z.toNat (-160) true, 0⟩
        else ⟨rnd32s true ((-z).toNat - 1) (-160) true, 0⟩

/-- The binary32 constants of R96: log2(e) and ln 2. -/
def log2e : Num := decodeFloat b32 0x3FB8AA3B

/-- ln 2 (R96). -/
def ln2 : Num := decodeFloat b32 0x3F317218

/-- e^x through VEXP2 (R96). -/
def fexp (x : Num) : FlR :=
  let p := fmul x log2e
  let r := fexp2 p.v
  ⟨r.v, p.inv + r.inv⟩

/-- ln(x) through VLOG2 (R96). -/
def flog (x : Num) : FlR :=
  let l := flog2 x
  let r := fmul l.v ln2
  ⟨r.v, l.inv + r.inv⟩

/-- The lane sums of R98: element j goes to lane j mod 64, each lane adding in increasing j from its first element. -/
def laneSums (xs : List Num) : List FlR :=
  (List.range 64).map fun l =>
    let own := (List.range ((xs.length + 63 - l) / 64)).map fun k => xs.getD (64 * k + l) .nan
    match own with
    | [] => ⟨.fin false 0 (-149), 0⟩
    | x :: t => t.foldl (fun acc y => let r := fadd acc.v y; ⟨r.v, acc.inv + r.inv⟩) ⟨x, 0⟩

/-- Lane i combines with lane i + h for h = 32, 16, 8, 4, 2, 1 (R98). -/
def laneTree : Nat → List FlR → List FlR
  | 0, xs => xs
  | k + 1, xs =>
    let h := 2 ^ k
    laneTree k ((List.range h).map fun i =>
      let a := xs.getD i ⟨.nan, 0⟩
      let b := xs.getD (i + h) ⟨.nan, 0⟩
      let r := fadd a.v b.v
      ⟨r.v, a.inv + b.inv + r.inv⟩)

/-- The sum of a row in the fixed lane order (R98). -/
def laneSum (xs : List Num) : FlR := (laneTree 6 (laneSums xs)).headD ⟨.nan, 0⟩

/-- The maximum of a row (R98); the order of combination does not change it, since max has no rounding. -/
def laneMax : List Num → Num
  | [] => .nan
  | x :: t => t.foldl fmax x

/-- Counts NaN among inputs (R97). -/
def nanCount (xs : List Num) : Nat := (xs.filter (· == .nan)).length

end Sys2Proof.Machine
end

