-- ==== Sys2Proof/Machine/LongAcc.lean ====
section
/-! DEFINITION. The long accumulator (R37 to R44, R49): range events, the wire record, residues, block ends. -/

namespace Sys2Proof.Machine

/-- Flags combine by OR (R42). -/
def LaFlags.or (a b : LaFlags) : LaFlags :=
  ⟨a.low || b.low, a.highPos || b.highPos, a.highNeg || b.highNeg, a.invalid || b.invalid, a.part || b.part,
    a.resMis || b.resMis, a.winMis || b.winMis⟩

/-- The flags byte (R42: bit 0 is record bit [200]). -/
def LaFlags.toNat (f : LaFlags) : Nat :=
  b2n f.low + 2 * b2n f.highPos + 4 * b2n f.highNeg + 8 * b2n f.invalid + 16 * b2n f.part + 32 * b2n f.resMis
    + 64 * b2n f.winMis

/-- Reads a flags byte (R42; bit [207] is ignored). -/
def LaFlags.ofNat (n : Nat) : LaFlags :=
  ⟨bit n 0, bit n 1, bit n 2, bit n 3, bit n 4, bit n 5, bit n 6⟩

/-- An LA value: the integer A (176-bit while partial), the window exponent W, the 7-bit residue field and the flags. -/
structure LA where
  a : Int
  w : Int
  residue : Nat
  flags : LaFlags
  deriving DecidableEq, Repr

/-- The 256-bit wire record of R42. -/
def LA.toNat (x : LA) : Nat :=
  unsigned 176 x.a + fld (unsigned 16 x.w) 176 + fld (x.residue % 128) 192 + fld x.flags.toNat 200

/-- Reads a wire record: the value is the 176-bit one (value and guard). -/
def LA.ofNat (n : Nat) : LA :=
  ⟨signed 176 (bits n 175 0), signed 16 (bits n 191 176), bits n 198 192, LaFlags.ofNat (bits n 207 200)⟩

/-- The guard bits of a record are the sign extension of bit 159 (R42). -/
def laGuardOk (n : Nat) : Bool :=
  decide (signed 176 (bits n 175 0) = signed 160 (bits n 159 0))

/-- A record read with partial clear and other guard bits is an invalid operand (R42). -/
def laBadGuard (n : Nat) : Bool := !(LaFlags.ofNat (bits n 207 200)).part && !laGuardOk n

/-- The residue of an integer modulo 127, in 0 to 126 (R43). -/
def resOf (z : Int) : Nat := (z % 127).toNat

/-- Residues add modulo 127; 0x7F is sticky (R44). -/
def resAdd (a b : Nat) : Nat := if a = 127 ∨ b = 127 then 127 else (a + b) % 127

/-- The 176-bit working register (R37). -/
def wrap176 (z : Int) : Int := signed 176 (unsigned 176 z)

/-- An accumulator during a block, with the operation's event counts (R36, R39, R40). -/
structure Acc where
  s : Int
  residue : Nat
  flags : LaFlags
  lowCount : Nat
  highCount : Nat
  invalidCount : Nat
  deriving DecidableEq, Repr

/-- Zero start of a block (R38). -/
def Acc.zero : Acc := ⟨0, 0, {}, 0, 0, 0⟩

/-- A block seeded from an LA record (R38, R41, R42, R88): a record with bad guard bits enters as an invalid operand, one
with another W sets invalid and window-mismatch; neither is added, and no flag of its own joins the sum's (log entry 1). -/
def Acc.seed (w : Int) (rec : Nat) : Acc :=
  let x := LA.ofNat rec
  if laBadGuard rec ∨ x.w ≠ w then ⟨0, 0, { invalid := true, winMis := decide (x.w ≠ w) }, 0, 0, b2n (laBadGuard rec)⟩
  else ⟨x.a, x.residue, { x.flags with part := false }, 0, 0, 0⟩

/-- Adds one addend of exact value z × 2^e, under R39 and R40. -/
def Acc.add (c : Acc) (w : Int) (neg : Bool) (m : Nat) (e : Int) : Acc :=
  if m = 0 then c
  else if e < w ∧ m % 2 ^ (w - e).toNat ≠ 0 then
    { c with flags := { c.flags with low := true }, lowCount := c.lowCount + 1 }
  else
    let mag := if e < w then m / 2 ^ (w - e).toNat else m <<< (e - w).toNat
    let z : Int := if neg then -(mag : Int) else mag
    if z > 2 ^ 159 - 1 then
      { c with flags := { c.flags with highPos := true }, highCount := c.highCount + 1 }
    else if z < -(2 ^ 159) then
      { c with flags := { c.flags with highNeg := true }, highCount := c.highCount + 1 }
    else { c with s := wrap176 (c.s + z), residue := resAdd c.residue (resOf z) }

/-- Adds the exact product of two operands (R35, R36). -/
def Acc.product (c : Acc) (w : Int) (x y : Num) : Acc :=
  match x, y with
  | .fin n1 m1 e1, .fin n2 m2 e2 => c.add w (n1 != n2) (m1 * m2) (e1 + e2)
  | _, _ => { c with flags := { c.flags with invalid := true }, invalidCount := c.invalidCount + 1 }

/-- What a block end gives: the stored accumulator, whether its residue check failed, and the events it counts. -/
structure BlockEnd where
  la : LA
  mismatch : Bool
  highCount : Nat
  deriving DecidableEq, Repr

/-- The block-end checks of R40 and R44, and the residue field of the value stored. -/
def Acc.blockEnd (c : Acc) (w : Int) : BlockEnd :=
  let hi := decide (c.s > 2 ^ 159 - 1)
  let lo := decide (c.s < -(2 ^ 159))
  let f : LaFlags := { c.flags with highPos := c.flags.highPos || hi, highNeg := c.flags.highNeg || lo }
  let mis := decide (c.residue ≠ resOf c.s)
  let stored : Int :=
    if f.highPos && f.highNeg then 0 else if f.highPos then 2 ^ 159 - 1 else if f.highNeg then -(2 ^ 159) else c.s
  let f2 : LaFlags := { f with invalid := f.invalid || (f.highPos && f.highNeg), resMis := f.resMis || mis, part := false }
  ⟨⟨stored, w, resOf stored, f2⟩, mis, c.highCount + b2n (hi || lo)⟩

/-- An accumulator as a value for conversion (R49): NaN when invalid, else A × 2^W. An exact zero is +0 (R48).
In an MX block the NaN stands for the whole block as R51 has it, in FP6, FP4 and MXINT8 too, where R49's "otherwise zero" can be read as a
zero code of the element alone [DESIGN CHOICE, log entry 46]. -/
def LA.value (x : LA) : Num :=
  if x.flags.invalid then .nan else .fin (decide (x.a < 0)) x.a.natAbs x.w

/-- The combining adder's sum of two records (R182): added exactly in 176 bits, residues added, flags ORed, partial set;
a record of another window is not added and sets invalid and window-mismatch (R41). Two points the spec leaves open are the model's
[DESIGN CHOICE, log entry 46]: a record that is not added passes on neither a residue of 0x7F nor flags of its own; and a record with
partial clear and bad guard bits is added with its 176-bit value, for R42 makes it invalid only where a tensor unit reads it. -/
def LA.combine (x y : LA) : LA :=
  if x.w ≠ y.w then { x with flags := { x.flags with invalid := true, winMis := true, part := true } }
  else ⟨wrap176 (x.a + y.a), x.w, resAdd x.residue y.residue, { x.flags.or y.flags with part := true }⟩

end Sys2Proof.Machine
end

