-- ==== Sys2Proof/Machine/UnitOps.lean ====
section
/-! DEFINITION. The tensor and vector units' shared operations (R80 to R95): descriptor fields, validation, operand rows,
chunks of work with their reads, writes and counts, the status record, taking and completing operations. -/

namespace Sys2Proof.Machine

/-! Descriptor fields (R83, R84). -/

def UnitOp.op (o : UnitOp) : Nat := bits o.desc 7 0
def UnitOp.fmtA (o : UnitOp) : Nat := bits o.desc 23 16
def UnitOp.fmtB (o : UnitOp) : Nat := bits o.desc 31 24
def UnitOp.fmtC (o : UnitOp) : Nat := bits o.desc 39 32
def UnitOp.isSr (o : UnitOp) : Bool := bit o.desc 40
def UnitOp.ieee (o : UnitOp) : Bool := bit o.desc 41
def UnitOp.start (o : UnitOp) : Nat := bits o.desc 43 42
def UnitOp.sclA (o : UnitOp) : Bool := bit o.desc 44
def UnitOp.sclB (o : UnitOp) : Bool := bit o.desc 45
def UnitOp.sclC (o : UnitOp) : Bool := bit o.desc 46
def UnitOp.m (o : UnitOp) : Nat := bits o.desc 63 48
def UnitOp.n (o : UnitOp) : Nat := bits o.desc 79 64
def UnitOp.k (o : UnitOp) : Nat := bits o.desc 95 80
def UnitOp.w (o : UnitOp) : Int := signed 16 (bits o.desc 111 96)
def UnitOp.tag (o : UnitOp) : Nat := bits o.desc 191 160
def UnitOp.aAddr (o : UnitOp) : Nat := bits o.desc 215 192
def UnitOp.aStride (o : UnitOp) : Nat := bits o.desc 239 216
def UnitOp.bAddr (o : UnitOp) : Nat := bits o.desc 263 240
def UnitOp.bStride (o : UnitOp) : Nat := bits o.desc 287 264
def UnitOp.cAddr (o : UnitOp) : Nat := bits o.desc 311 288
def UnitOp.cStride (o : UnitOp) : Nat := bits o.desc 335 312
def UnitOp.scaA (o : UnitOp) : Nat := bits o.desc 359 336
def UnitOp.scaB (o : UnitOp) : Nat := bits o.desc 383 360
def UnitOp.scaC (o : UnitOp) : Nat := bits o.desc 407 384
def UnitOp.seed (o : UnitOp) : Nat := bits o.desc 431 408
def UnitOp.statusAddr (o : UnitOp) : Nat := bits o.desc 455 432
def UnitOp.srSeed (o : UnitOp) : Nat := bits (o.ext.getD 0) 63 0
def UnitOp.srBase (o : UnitOp) : Nat := bits (o.ext.getD 0) 127 64
def UnitOp.scalar (o : UnitOp) : Nat := bits (o.ext.getD 0) 159 128
def UnitOp.dAddr (o : UnitOp) : Nat := bits (o.ext.getD 0) 183 160
def UnitOp.dStride (o : UnitOp) : Nat := bits (o.ext.getD 0) 207 184

/-- The rounding of the element of linear index `i` of a result (R45 to R47). -/
def UnitOp.rnd (o : UnitOp) (i : Nat) : Rnd :=
  if o.isSr then .sr (srNumber (BitVec.ofNat 64 o.srSeed) (BitVec.ofNat 64 (o.srBase + i))) else .rne

/-! Opcodes and the operands they use (R86, R96). -/

/-- Opcodes of the vector operation table (R96). -/
def vectorOpcode (c : Nat) : Bool :=
  (0x40 ≤ c && c ≤ 0x49) || (0x50 ≤ c && c ≤ 0x55) || (0x58 ≤ c && c ≤ 0x5B) || c == 0x60 || c == 0x61

/-- Opcodes of the tensor unit. -/
def tensorOpcode (c : Nat) : Bool := c == 1 || c == 2

/-- Uses A. -/
def usesA (c : Nat) : Bool := c != 2

/-- Uses B, as rows or per row. -/
def usesB (c : Nat) : Bool := c == 1 || (0x40 ≤ c && c ≤ 0x45) || c == 0x5A || c == 0x5B || c == 0x61

/-- B holds one element per row of A, densely (R96). -/
def bPerRow (c : Nat) : Bool := c == 0x5A || c == 0x5B

/-- Uses D: VFMA's operand, VEXPSUB's result (R96). -/
def usesD (c : Nat) : Bool := c == 0x43 || c == 0x5A

/-- Elements of a row of A. -/
def UnitOp.aLen (o : UnitOp) : Nat := if o.op = 1 ∨ o.op = 0x61 then o.k else o.n

/-- Rows and elements of a row of B. -/
def UnitOp.bShape (o : UnitOp) : Nat × Nat :=
  if o.op = 1 ∨ o.op = 0x61 then (o.n, o.k) else if bPerRow o.op then (1, o.m) else (o.m, o.n)

/-- C holds one element per row of A: that of RSUM and RMAX, densely, as the per-row B that it becomes in a softmax is (R96). -/
def cPerRow (c : Nat) : Bool := c == 0x58 || c == 0x59

/-- Elements of C for each row of A. -/
def UnitOp.cLen (o : UnitOp) : Nat := if cPerRow o.op then 1 else o.n

/-- Bytes of a row of A, B, C, and of the elements of D that one row holds. -/
def UnitOp.aRow (o : UnitOp) : Nat := rowBytes o.fmtA o.aLen o.sclA
def UnitOp.bRow (o : UnitOp) : Nat := rowBytes o.fmtB o.bShape.2 o.sclB
def UnitOp.cRow (o : UnitOp) : Nat := rowBytes o.fmtC (if cPerRow o.op then o.m else o.n) o.sclC
def UnitOp.dRow (o : UnitOp) : Nat := rowBytes o.fmtC (if o.op = 0x5A then o.m else o.n) false

/-- Bytes of scale per row (R85). -/
def scaleRow (fmt len : Nat) : Nat := if fmt = 0x0B then ceilDiv len 40 else ceilDiv len 32

/-- The extent of `rows` rows: (first byte, length). -/
def rowsExtent (addr stride rows row : Nat) : Nat × Nat := (addr, if rows = 0 then 0 else (rows - 1) * stride + row)

/-- The cistern extents that an operation reads (R81). -/
def UnitOp.readExtents (o : UnitOp) : List (Nat × Nat) :=
  (if usesA o.op && !bit o.aAddr 23 then [rowsExtent o.aAddr o.aStride o.m o.aRow] else []) ++
  (if usesB o.op && !bit o.bAddr 23 then [rowsExtent o.bAddr o.bStride o.bShape.1 o.bRow] else []) ++
  (if o.op = 0x43 && !bit o.dAddr 23 then [rowsExtent o.dAddr o.dStride o.m o.dRow] else []) ++
  (if o.sclA then [(o.scaA, o.m * scaleRow o.fmtA o.aLen)] else []) ++
  (if o.sclB then [(o.scaB, o.bShape.1 * scaleRow o.fmtB o.bShape.2)] else []) ++
  (if o.op = 2 ∨ (o.op = 1 ∧ o.start = 1) then [(o.seed, 32 * o.m * o.n)] else [])

/-- The result extents in the cistern: C, D of VEXPSUB, scale array C (R81). -/
def UnitOp.resultExtents (o : UnitOp) : List (Nat × Nat) :=
  (if bit o.cAddr 23 then [] else if cPerRow o.op then [(o.cAddr, o.cRow)] else [rowsExtent o.cAddr o.cStride o.m o.cRow]) ++
  (if o.op = 0x5A then [(o.dAddr, o.dRow)] else []) ++
  (if o.sclC then [(o.scaC, o.m * ceilDiv o.n 32)] else [])

/-- The write extents (R81). -/
def UnitOp.writeExtents (o : UnitOp) : List (Nat × Nat) := o.resultExtents ++ [(o.statusAddr, 32)]

/-- Two extents overlap. -/
def extentsMeet (a b : Nat × Nat) : Bool := 0 < (overlap a.1 a.2 b.1 b.2).2

/-! Validation (R85 to R91, R96, R99). -/

/-- Formats with a block scale (R87). -/
def scalable (f : Nat) : Bool := fmtIsMx f

/-- The tensor unit's operand pairing, B as given (R89). -/
def pairingOk (a b : Nat) : Bool :=
  let fp8 (f : Nat) := f == 3 || f == 4
  let fp6 (f : Nat) := f == 5 || f == 6
  let i8 (f : Nat) := f == 8 || f == 10
  let sym (x y : Nat) : Bool :=
    (fp8 x && (fp8 y || fp6 y)) || (fp6 x && fp6 y) || (x == 7 && (fp8 y || fp6 y || y == 7)) ||
      (i8 x && (i8 y || y == 9)) || (x == 9 && y == 9) ||
      ((x == 1 || x == 2) && (y == 1 || y == 2)) || (x == 0 && y == 0)
  sym a b || sym b a || (b == 0x0B && (fp8 a || fp6 a || i8 a || a == 7 || a == 9))

/-- VDOT's operand groups (R99); 0 none. -/
def vdotGroup (f : Nat) : Nat := if f = 3 ∨ f = 4 then 1 else if f = 1 ∨ f = 2 then 2 else if f = 0 then 3 else 0

/-- Reason 0x03 applies. -/
def UnitOp.badFormat (o : UnitOp) : Bool :=
  let b32bf (f : Nat) := f == 0 || f == 2
  if 0x0D ≤ o.fmtA ∨ 0x0D ≤ o.fmtB ∨ 0x0D ≤ o.fmtC then true
  else if o.op = 1 then o.fmtA == 0x0C || o.fmtB == 0x0C || o.fmtC == 0x0B
  else if o.op = 2 then o.fmtC == 0x0B
  else if o.op = 0x60 then o.fmtA == 0x0C || 0x0B ≤ o.fmtC
  else if o.op = 0x61 then vdotGroup o.fmtA == 0 || vdotGroup o.fmtB == 0 || !b32bf o.fmtC
  else !b32bf o.fmtA || (usesB o.op && !b32bf o.fmtB) || !b32bf o.fmtC

/-- Reason 0x04 applies. -/
def UnitOp.badPairing (o : UnitOp) : Bool :=
  if o.op = 1 then !pairingOk o.fmtA o.fmtB
  else if o.op = 0x61 then vdotGroup o.fmtA != 0 && vdotGroup o.fmtB != 0 && vdotGroup o.fmtA != vdotGroup o.fmtB
  else false

/-- Reason 0x05 applies. -/
def UnitOp.badShape (o : UnitOp) : Bool :=
  o.m == 0 || o.n == 0 || (if o.op = 1 ∨ o.op = 0x61 then o.k == 0 else o.k != 0)

/-- A cistern operand of rows is misplaced (R85). -/
def badRows (size align addr stride rows row : Nat) : Bool :=
  let e := rowsExtent addr stride rows row
  addr % align != 0 || stride % align != 0 || stride < row || size < e.1 + e.2

/-- A dense cistern array is misplaced. -/
def badDense (size align addr len : Nat) : Bool := addr % align != 0 || size < addr + len

/-- The status address is itself invalid (R87). -/
def UnitOp.badStatus (o : UnitOp) (s : State) (p : Nat) : Bool :=
  badDense (cisternBytes s.variant) 32 o.statusAddr 32 || s.inBuddyCopy (s.tile p) o.statusAddr 32

/-- Reason 0x06 applies (R85, R345). -/
def UnitOp.badPlace (o : UnitOp) (s : State) (p : Nat) : Bool :=
  let size := cisternBytes s.variant
  (usesA o.op && !bit o.aAddr 23 && badRows size 8 o.aAddr o.aStride o.m o.aRow) ||
  (usesB o.op && !bit o.bAddr 23 &&
    (if bPerRow o.op then badDense size 8 o.bAddr o.bRow
     else badRows size 8 o.bAddr o.bStride o.bShape.1 o.bRow)) ||
  (!bit o.cAddr 23 &&
    (if cPerRow o.op then badDense size 8 o.cAddr o.cRow
     else badRows size (if o.fmtC = 0x0C then 32 else 8) o.cAddr o.cStride o.m o.cRow)) ||
  (o.op == 0x43 && !bit o.dAddr 23 && badRows size 8 o.dAddr o.dStride o.m o.dRow) ||
  (o.op == 0x5A && badDense size 8 o.dAddr o.dRow) ||
  (o.sclA && badDense size 1 o.scaA (o.m * scaleRow o.fmtA o.aLen)) ||
  (o.sclB && badDense size 1 o.scaB (o.bShape.1 * scaleRow o.fmtB o.bShape.2)) ||
  (o.sclC && badDense size 1 o.scaC (o.m * ceilDiv o.n 32)) ||
  ((o.op == 2 || (o.op == 1 && o.start == 1)) && badDense size 32 o.seed (32 * o.m * o.n)) ||
  o.badStatus s p ||
  (o.resultExtents.any fun e => extentsMeet e (o.statusAddr, 32) || s.inBuddyCopy (s.tile p) e.1 e.2)

/-- Reason 0x07 applies (R83, R87). -/
def UnitOp.badExt (o : UnitOp) : Bool :=
  2 ≤ bits o.desc 9 8 || bits o.desc 9 8 + 1 != o.count || (o.isSr && o.ext.isNone)

/-- Reason 0x08 applies: reserved bits, operand and format fields that are not used, start codes (R83, R84). A per-row B, C and D are
dense, so their strides are not used; a scale address is used under its scale flag. -/
def UnitOp.badReserved (o : UnitOp) : Bool :=
  let x := o.ext.getD 0
  bits o.desc 15 10 != 0 || bit o.desc 47 || bits o.desc 127 112 != 0 || bits o.desc 159 137 != 0 ||
  bits o.desc 511 456 != 0 || bits x 511 208 != 0 ||
  (if o.op = 1 then 2 ≤ o.start else o.start != 0) ||
  (!usesA o.op && (o.fmtA != 0 || o.sclA || o.aAddr != 0 || o.aStride != 0 || o.scaA != 0)) ||
  (!usesB o.op && (o.fmtB != 0 || o.sclB || o.bAddr != 0 || o.bStride != 0 || o.scaB != 0)) ||
  (bPerRow o.op && o.bStride != 0) || (cPerRow o.op && o.cStride != 0) ||
  (!o.sclA && o.scaA != 0) || (!o.sclB && o.scaB != 0) || (!o.sclC && o.scaC != 0) ||
  (!(o.op == 2 || (o.op == 1 && o.start == 1)) && o.seed != 0) ||
  (!usesD o.op && (o.dAddr != 0 || o.dStride != 0)) ||
  (o.op == 0x5A && o.dStride != 0) ||
  (o.op != 0x46 && o.op != 0x47 && o.scalar != 0) ||
  ((usesA o.op && bit o.aAddr 23 && bits o.aAddr 22 2 != 0) || (usesB o.op && bit o.bAddr 23 && bits o.bAddr 22 2 != 0) ||
    (bit o.cAddr 23 && bits o.cAddr 22 2 != 0) || (usesD o.op && bit o.dAddr 23 && bits o.dAddr 22 2 != 0))

/-- A stream port is configured in the slot in force: an operand port's sink entry, a result port's use by an entry. -/
def Tile.portConfigured (t : Tile) (port : Nat) (result : Bool) : Bool :=
  if result then t.sourceUsed port else entryOn (t.entry (40 + port))

/-- Reason 0x09 applies (R85). -/
def UnitOp.badStream (o : UnitOp) (t : Tile) : Bool :=
  (usesA o.op && bit o.aAddr 23 && ((o.op == 1 && 16 < o.n) || !t.portConfigured (o.aAddr % 4) false)) ||
  (usesB o.op && bit o.bAddr 23 && ((o.op == 1 && 16 < o.m) || !t.portConfigured (o.bAddr % 4) false)) ||
  (o.op == 0x43 && bit o.dAddr 23 && !t.portConfigured (o.dAddr % 4) false) ||
  (o.op == 0x5A && bit o.dAddr 23) ||
  (bit o.cAddr 23 && !t.portConfigured (o.cAddr % 4) true)

/-- Reason 0x0A applies (R87). -/
def UnitOp.badScale (o : UnitOp) : Bool :=
  (o.sclA && !scalable o.fmtA) || (o.sclB && !(scalable o.fmtB || o.fmtB == 0x0B)) || (o.sclC && !scalable o.fmtC) ||
  (usesA o.op && o.fmtA == 0x0A && !o.sclA) || (usesB o.op && o.fmtB == 0x0A && !o.sclB) ||
  (o.fmtC == 0x0A && !o.sclC)

/-- The reason for which a unit refuses an operation: the lowest that applies; 0 none (R86, R87). `tensor` is the unit. -/
def UnitOp.refusal (o : UnitOp) (s : State) (p : Nat) (tensor : Bool) : Nat :=
  if !vectorOpcode o.op && !tensorOpcode o.op then 0x01
  else if tensorOpcode o.op != tensor then (if s.variant = 2 then 0x0B else 0x02)
  else if o.badFormat then 0x03
  else if o.badPairing then 0x04
  else if o.badShape then 0x05
  else if o.badPlace s p then 0x06
  else if o.badExt then 0x07
  else if o.badReserved then 0x08
  else if o.badStream (s.tile p) then 0x09
  else if o.badScale then 0x0A
  else 0

/-! Operand rows. -/

/-- Bytes of row `i` of a stream operand from the words read: each row starts on a new word (R85). -/
def streamRow (ws : List Nat) (row i : Nat) : Bytes :=
  let per := ceilDiv row 8
  (((ws.drop (i * per)).take per).flatMap (toLE 8)).take row

/-- Row `i` of an operand, from the cistern or from the words of its stream. -/
def State.operandRow (s : State) (p : Nat) (o : UnitOp) (which addr stride row i : Nat) : Bytes :=
  if bit addr 23 then streamRow (Tbl.get [] o.bufs which) row i
  else s.cisternRead p (addr + i * stride) row

/-- Element `j` of a row (R31, R32, R34): `scales` are the row's scale codes, none where it is unscaled. A weight of a T2 code 243 to 255,
which R36 makes an invalid operand of a product, is a NaN also where CVT converts it, a case the spec does not state [DESIGN CHOICE, log
entry 46]. -/
def rowElem (fmt : Nat) (row : Bytes) (scales : Option Bytes) (j : Nat) : Num :=
  if fmt = 0x0B then
    match decodeTrit (row.getD (j / 5) 0).toNat (j % 5) with
    | none => .nan
    | some x => match scales with
      | none => x
      | some cs => match e8m0 (cs.getD (j / 40) 0).toNat with
        | none => .nan
        | some e => x.scale e
  else
    let w := fmtWidth fmt
    let first := w * j / 8
    let raw := bits (leNat ((row.drop first).take 5)) (w * j % 8 + w - 1) (w * j % 8)
    let x := decodeElem fmt raw
    match scales with
    | none => x
    | some cs => match e8m0 (cs.getD (j / 32) 0).toNat with
      | none => .nan
      | some e => x.scale e

/-- The elements of a row. -/
def rowElems (fmt len : Nat) (row : Bytes) (scales : Option Bytes) : List Num :=
  (List.range len).map (rowElem fmt row scales)

/-- Row `i` of A as values. -/
def State.aValues (s : State) (p : Nat) (o : UnitOp) (i : Nat) : List Num :=
  let sc := scaleRow o.fmtA o.aLen
  rowElems o.fmtA o.aLen (s.operandRow p o 0 o.aAddr o.aStride o.aRow i)
    (if o.sclA then some (s.cisternRead p (o.scaA + i * sc) sc) else none)

/-- Row `i` of B as values. -/
def State.bValues (s : State) (p : Nat) (o : UnitOp) (i : Nat) : List Num :=
  let len := o.bShape.2
  let sc := scaleRow o.fmtB len
  rowElems o.fmtB len (s.operandRow p o 1 o.bAddr o.bStride o.bRow i)
    (if o.sclB then some (s.cisternRead p (o.scaB + i * sc) sc) else none)

/-- Element `i` of a per-row B. -/
def State.bElem (s : State) (p : Nat) (o : UnitOp) (i : Nat) : Num :=
  rowElem o.fmtB (s.operandRow p o 1 o.bAddr 0 o.bRow 0) none i

/-- Row `i` of VFMA's D as values, in format C. -/
def State.dValues (s : State) (p : Nat) (o : UnitOp) (i : Nat) : List Num :=
  rowElems o.fmtC o.n (s.operandRow p o 2 o.dAddr o.dStride o.dRow i) none

/-! Counts and the status record (R93). -/

/-- Counts of two parts together. -/
def Stats.plus (a b : Stats) : Stats :=
  ⟨a.flags.or b.flags, a.low + b.low, a.high + b.high, a.invalid + b.invalid, a.residue + b.residue,
    a.saturated + b.saturated, a.underflow + b.underflow⟩

/-- Counts of converted elements; `inv` says whether their invalid counts count (R93). -/
def Stats.ofConv (cs : List Conv) (inv : Bool) : Stats :=
  { invalid := if inv then (cs.map (·.invalid)).foldl (· + ·) 0 else 0
    saturated := (cs.map (·.saturated)).foldl (· + ·) 0
    underflow := (cs.map (·.underflow)).foldl (· + ·) 0 }

/-- The status record (R93). -/
def statusRecord (outcome reason blocks tag : Nat) (x : Stats) : Nat :=
  outcome + fld reason 8 + fld x.flags.toNat 16 + fld (sat 25 blocks) 24 + fld tag 64 + fld (sat 32 x.low) 96 +
    fld (sat 32 x.high) 128 + fld (sat 32 x.invalid) 160 + fld (sat 16 x.residue) 192 + fld (sat 16 x.saturated) 208 +
    fld (sat 16 x.underflow) 224

/-- The outcome code of an operation that ran to its end (R93). -/
def outcomeOf (x : Stats) : Nat :=
  if x.residue ≠ 0 then 2
  else if x.low = 0 ∧ x.high = 0 ∧ x.invalid = 0 ∧ x.saturated = 0 ∧ x.underflow = 0 then 0
  else 1

/-! Chunks of work: an output block, a pair of output blocks under a scaled C, or a row (R90, R96). -/

/-- One output block of a chunk, or its row: what it reads, what it counts before its results are converted, and per accumulation
block with a residue mismatch the output block it lies in (R44, R90, R95). -/
structure Part where
  reads : List (Nat × Nat)
  stats : Stats
  mismatches : List (Nat × Nat) := []

/-- A chunk: its blocks in order, what it writes to the cistern, what it adds to a stream result (by row × row bytes), what the conversion
of its results counts, and how many blocks or rows it is. -/
structure Chunk where
  parts : List Part
  writes : List (Nat × Bytes)
  outs : List (Nat × Bytes) := []
  conv : Stats := {}
  blocks : Nat

/-- What a chunk reads. -/
def Chunk.reads (c : Chunk) : List (Nat × Nat) := c.parts.flatMap (·.reads)

/-- What a chunk counts in all. -/
def Chunk.stats (c : Chunk) : Stats := (c.parts.foldl (fun (st : Stats) x => st.plus x.stats) {}).plus c.conv

/-- How far an operation has come: its chunks done, whether it has stalled. `cbuf` gathers a stream result by row × row bytes. -/
structure Exec where
  s : State
  stats : Stats := {}
  blocks : Nat := 0
  abort : Nat := 0
  cbuf : Mem := []
  rows : Nat := 0
  next : Nat := 0
  stalled : Bool := false

/-- An operation goes on from where it stands. -/
def UnitOp.exec (o : UnitOp) (s : State) : Exec :=
  { s, stats := o.stats, blocks := o.doneBlocks, cbuf := o.cbuf, rows := o.rows, next := o.next }

/-- Why a read aborts; 0 where it does not (R87, R103, R110, R114). -/
def State.readAbort (s : State) (p : Nat) (e : Nat × Nat) : Nat :=
  let t := s.tile p
  if t.anyRange e.1 e.2 .void then 0x20
  else if 2 ≤ t.poison e.1 e.2 then 0x21
  else if s.strictFault t e.1 e.2 then 0x22
  else 0

/-- A chunk's reads or writes wait: an extent read is Filling, or one written Draining (R82, R110). -/
def State.chunkStalls (s : State) (p : Nat) (c : Chunk) : Bool :=
  (c.reads.any fun e => (s.tile p).anyRange e.1 e.2 .filling) ||
    c.writes.any fun w => (s.tile p).anyRange w.1 w.2.length .draining

/-- A residue mismatch is reported: the output block and W in the detail (R44, R95). -/
def State.residueFound (s : State) (p : Nat) (o : UnitOp) (bc : Nat × Nat) : State :=
  s.raise { (s.tile p).report p 0x0100 with
    opValid := true, tag := o.tag, desc := 0xFFFF,
    detail2 := bc.1 % 65536 + fld (bc.2 % 65536) 16 + fld (unsigned 16 o.w) 32 }

/-- One block reads its operands and makes its checks, or aborts with the lowest reason of its reads (R87, R90). -/
def Exec.part (x : Exec) (p : Nat) (o : UnitOp) (c : Part) : Exec :=
  if x.abort ≠ 0 then x
  else
    let a := c.reads.foldl (fun m e => lowest m (x.s.readAbort p e)) 0
    if a = 0x21 then
      let bad := c.reads.filter fun e => 2 ≤ (x.s.tile p).poison e.1 e.2
      let e := bad.headD (0, 0)
      { x with abort := a, s := x.s.uncorrectable p ((x.s.tile p).badWord e.1 e.2) }
    else if a ≠ 0 then { x with abort := a }
    else
      let s1 := c.reads.foldl (fun s e => s.corrected p e.1 e.2) x.s
      { x with s := c.mismatches.foldl (fun s bc => s.residueFound p o bc) s1, stats := x.stats.plus c.stats }

/-- A chunk's results are written: those in the cistern, and those of a stream result to `cbuf`. A refused write (R114) aborts; what has
been checked and converted before stays counted (log entry 46). -/
def Exec.put (x : Exec) (p : Nat) (c : Chunk) (rows : Nat) : Exec :=
  if x.abort ≠ 0 then x
  else
    let y := { x with stats := x.stats.plus c.conv }
    if c.writes.any fun w => x.s.strictFault (x.s.tile p) w.1 w.2.length then { y with abort := 0x22 }
    else
      { y with
        s := c.writes.foldl (fun s w => s.cisternWrite p w.1 w.2) x.s
        cbuf := c.outs.foldl (fun m w => m.writeBytes w.1 w.2) x.cbuf
        blocks := x.blocks + c.blocks
        rows
        next := x.next + 1 }

/-- Carries out a chunk, unless its reads or writes wait (R82): its blocks in order, then its writes. -/
def Exec.run (x : Exec) (p : Nat) (o : UnitOp) (f : State → Chunk) (rows : Nat) : Exec :=
  if x.abort ≠ 0 ∨ x.stalled then x
  else
    let c := f x.s
    if x.s.chunkStalls p c then { x with stalled := true }
    else (c.parts.foldl (fun x d => x.part p o d) x).put p c rows

/-- Where the results of row `i` go: their cistern address, or their place in `cbuf`. -/
def UnitOp.cPlace (o : UnitOp) (i : Nat) : Nat :=
  if cPerRow o.op then (if bit o.cAddr 23 then 0 else o.cAddr) + i * (fmtWidth o.fmtC / 8)
  else if bit o.cAddr 23 then i * (8 * ceilDiv o.cRow 8) else o.cAddr + i * o.cStride

/-- What part of a row of results becomes: bytes for the cistern, bytes for a stream result, and the counts of its conversion. -/
structure RowOut where
  writes : List (Nat × Bytes)
  outs : List (Nat × Bytes) := []
  conv : Stats := {}

/-- Bytes of C, for the cistern or for its stream port (R85). -/
def UnitOp.cOut (o : UnitOp) (place : Nat) (bs : Bytes) : RowOut :=
  if bit o.cAddr 23 then { writes := [], outs := [(place, bs)] } else { writes := [(place, bs)] }

/-- Part of a row of C from element `j0` on, converted. `inv` says whether the invalid counts of the conversion count. Under a scaled C
the elements are whole MX blocks from `j0` on (R51), and their scales go to scale array C in the cistern, whichever way C goes (R85). -/
def UnitOp.writeRow (o : UnitOp) (i j0 : Nat) (xs : List Num) (inv : Bool) : RowOut :=
  let modes := (List.range xs.length).map fun j => o.rnd (i * o.cLen + j0 + j)
  if o.sclC then
    let padded := (modes.zip xs) ++ List.replicate (32 * ceilDiv xs.length 32 - xs.length) (Rnd.rne, Num.fin false 0 0)
    let blocks := (List.range (ceilDiv xs.length 32)).map fun b =>
      mxBlock o.fmtC o.ieee ((padded.drop (32 * b)).take 32)
    let convs := blocks.flatMap (·.2)
    let codes := packElems (fmtWidth o.fmtC) (convs.map (·.raw))
    let c := o.cOut (o.cPlace i + (j0 / 32) * (4 * fmtWidth o.fmtC)) (toLE (blocks.length * 4 * fmtWidth o.fmtC) codes)
    { c with
      writes := c.writes ++ [(o.scaC + i * ceilDiv o.n 32 + j0 / 32, blocks.map fun b => BitVec.ofNat 8 b.1)]
      conv := Stats.ofConv (convs.take xs.length) inv }
  else
    let convs := (modes.zip xs).map fun mx => convElem o.fmtC o.ieee mx.1 mx.2
    let codes := packElems (fmtWidth o.fmtC) (convs.map (·.raw))
    { o.cOut (o.cPlace i + rowBytes o.fmtC j0 false) (toLE (rowBytes o.fmtC xs.length false) codes) with
      conv := Stats.ofConv convs inv }

/-! Taking, starting, completing. -/

/-- A unit of a tile. -/
def Tile.unit (t : Tile) (tensor : Bool) : OpUnit := if tensor then t.tensor else t.vector

/-- Changes a unit. -/
def Tile.modUnit (t : Tile) (tensor : Bool) (f : OpUnit → OpUnit) : Tile :=
  if tensor then { t with tensor := f t.tensor } else { t with vector := f t.vector }

/-- The well from which a unit takes next (R80): the first after the last one in rotation that is Open, bound to it and holds
a message. -/
def Tile.unitWell (t : Tile) (tensor : Bool) : Option Nat :=
  ((List.range 8).map fun i => ((t.unit tensor).lastWell + 1 + i) % 8).find? fun w =>
    let x := t.well w
    x.state == .opened && x.binding == (if tensor then 1 else 2) && x.msgs != []

/-- The operation that a message asks for. -/
def UnitOp.ofMsg (m : WellMsg) : UnitOp :=
  { desc := m.descs.getD 0 0, ext := m.descs[1]?, count := m.descs.length, phase := .waiting }

/-- Stream words an operand needs in all: operand 0 A, 1 B, 2 D. -/
def UnitOp.wordsNeeded (o : UnitOp) (which : Nat) : Nat :=
  if which = 0 then (if usesA o.op && bit o.aAddr 23 then o.m * ceilDiv o.aRow 8 else 0)
  else if which = 1 then (if usesB o.op && bit o.bAddr 23 then o.bShape.1 * ceilDiv o.bRow 8 else 0)
  else if o.op = 0x43 && bit o.dAddr 23 then o.m * ceilDiv o.dRow 8 else 0

/-- The port of an operand. -/
def UnitOp.portOf (o : UnitOp) (which : Nat) : Nat :=
  (if which = 0 then o.aAddr else if which = 1 then o.bAddr else o.dAddr) % 4

/-- Takes up to `n` data words from a port, the lanes of its gang in turn, up to a structural token or end word; other tokens between are
discarded (R132, R143). `fuel` bounds the words looked at. -/
def Tile.pullWords (t : Tile) (port : Nat) : Nat → Nat → List Nat × Tile
  | 0, _ => ([], t)
  | _, 0 => ([], t)
  | fuel + 1, n + 1 =>
    match t.sinkQueue (t.portKey port) with
    | .data v :: _ =>
      let r := (t.portPop port).pullWords port fuel n
      (v.toNat :: r.1, r.2)
    | .token op _ :: _ => if structural op then ([], t) else (t.portPop port).pullWords port fuel (n + 1)
    | _ => ([], t)

/-- A started operation reads what its stream operands hold ready. -/
def Tile.pullOperand (t : Tile) (o : UnitOp) (which : Nat) : UnitOp × Tile :=
  let have_ := Tbl.get [] o.bufs which
  let need := o.wordsNeeded which - have_.length
  let r := t.pullWords (o.portOf which) (hopCredit * t.portGang (o.portOf which)) need
  if r.1 = [] then (o, t) else ({ o with bufs := o.bufs.put [] which (have_ ++ r.1) }, r.2)

/-- All three operands. -/
def Tile.pull (t : Tile) (o : UnitOp) : UnitOp × Tile :=
  let a := t.pullOperand o 0
  let b := a.2.pullOperand a.1 1
  b.2.pullOperand b.1 2

/-- A started operation has all its stream words. -/
def UnitOp.fed (o : UnitOp) : Bool :=
  (List.range 3).all fun w => o.wordsNeeded w ≤ (Tbl.get [] o.bufs w).length

end Sys2Proof.Machine
end

