-- ==== Sys2Proof/Machine/TensorOps.lean ====
section
/-! DEFINITION. What the tensor unit computes: MATMUL and LACVT (R88 to R91). -/

namespace Sys2Proof.Machine

/-- A list of indices cut into runs of 16: (first, length). -/
def runs16 (n : Nat) : List (Nat × Nat) := (List.range (ceilDiv n 16)).map fun b => (16 * b, min 16 (n - 16 * b))

/-- The output blocks of an operation, row-major, as (row run, list of column runs): one column run each, or pairs under a
scaled C (R88, R90). -/
def UnitOp.blocks (o : UnitOp) : List ((Nat × Nat) × List (Nat × Nat)) :=
  let cols := runs16 o.n
  let groups := if o.sclC then (List.range (ceilDiv cols.length 2)).map fun g => (cols.drop (2 * g)).take 2
    else cols.map fun c => [c]
  (runs16 o.m).flatMap fun r => groups.map fun g => (r, g)

/-- One accumulator of MATMUL: seeded, every product of the row pair added, and its block end (R88, R90). -/
def UnitOp.dot (o : UnitOp) (seed : Option Nat) (as bs : List Num) : Acc × BlockEnd :=
  let start := match seed with
    | none => Acc.zero
    | some r => Acc.seed o.w r
  let acc := (as.zip bs).foldl (fun c ab => c.product o.w ab.1 ab.2) start
  (acc, acc.blockEnd o.w)

/-- The seed record of element (i, j) (R85). -/
def State.seedRecord (s : State) (p : Nat) (o : UnitOp) (i j : Nat) : Nat :=
  leNat (s.cisternRead p (o.seed + (i * o.n + j) * 32) 32)

/-- The counts of one accumulator (R39, R40, R44, R93). -/
def accStats (c : Acc) (b : BlockEnd) : Stats :=
  { flags := b.la.flags, low := c.lowCount, high := b.highCount, invalid := c.invalidCount, residue := b2n b.mismatch }

/-- Row `i`, columns from `j0`: the stored accumulators as bytes of LA records, or converted (R49, R90). -/
def UnitOp.laRow (o : UnitOp) (i j0 : Nat) (las : List LA) : RowOut :=
  if o.fmtC = 0x0C then o.cOut (o.cPlace i + 32 * j0) (las.flatMap fun x => toLE 32 x.toNat)
  else o.writeRow i j0 (las.map LA.value) false

/-- The indices of a run. -/
def runIdx (r : Nat × Nat) : List Nat := (List.range r.2).map (· + r.1)

/-- One output block, given what it reads and the accumulator of each element: its block-end checks are made (R40, R44, R90 step 1), and
each accumulation block with a mismatch is one detection. -/
def blockPart (reads : List (Nat × Nat)) (rows cols : Nat × Nat) (f : Nat → Nat → Acc × BlockEnd) : Part :=
  let cells := (runIdx rows).flatMap fun i => (runIdx cols).map fun j => f i j
  { reads
    stats := (cells.map fun c => accStats c.1 c.2).foldl Stats.plus {}
    mismatches := (cells.filter fun c => c.2.mismatch).map fun _ => (rows.1 / 16, cols.1 / 16) }

/-- The chunk of some output blocks of one block row, given what each reads and the accumulator of each element (R88, R90). -/
def UnitOp.blockChunk (o : UnitOp) (reads : Nat × Nat → List (Nat × Nat)) (rows : Nat × Nat) (cols : List (Nat × Nat))
    (f : Nat → Nat → Acc × BlockEnd) : Chunk :=
  let js := cols.flatMap runIdx
  let out := (runIdx rows).map fun i => o.laRow i (js.headD 0) (js.map fun j => (f i j).2.la)
  { parts := cols.map fun c => blockPart (reads c) rows c f
    writes := out.flatMap (·.writes)
    outs := out.flatMap (·.outs)
    conv := (out.map (·.conv)).foldl Stats.plus {}
    blocks := cols.length }

/-- What a block of MATMUL reads: its rows of A and B with their scales, and its seeds. -/
def UnitOp.matmulReads (o : UnitOp) (rows cols : Nat × Nat) : List (Nat × Nat) :=
  let sa := scaleRow o.fmtA o.k
  let sb := scaleRow o.fmtB o.k
  let is := runIdx rows
  let js := runIdx cols
  (if bit o.aAddr 23 then [] else is.map fun i => (o.aAddr + i * o.aStride, o.aRow)) ++
  (if o.sclA then is.map fun i => (o.scaA + i * sa, sa) else []) ++
  (if bit o.bAddr 23 then [] else js.map fun j => (o.bAddr + j * o.bStride, o.bRow)) ++
  (if o.sclB then js.map fun j => (o.scaB + j * sb, sb) else []) ++
  (if o.start = 1 then is.map fun i => (o.seed + (i * o.n + cols.1) * 32, 32 * cols.2) else [])

/-- The chunk of one step of MATMUL. -/
def UnitOp.matmulChunk (o : UnitOp) (p : Nat) (rows : Nat × Nat) (cols : List (Nat × Nat)) (s : State) : Chunk :=
  o.blockChunk (o.matmulReads rows) rows cols fun i j =>
    o.dot (if o.start = 1 then some (s.seedRecord p o i j) else none) (s.aValues p o i) (s.bValues p o j)

/-- One record of LACVT with its block-end checks (R91), made on the 176-bit value of a partial record and on the 160-bit value of
another. It keeps its own window and flags; one with bad guard bits is an invalid operand, one of another window sets invalid and
window-mismatch. -/
def UnitOp.lacvtCell (o : UnitOp) (rec : Nat) : Acc × BlockEnd :=
  let x := LA.ofNat rec
  let bad := laBadGuard rec
  let acc : Acc := {
    s := if x.flags.part then x.a else signed 160 (bits rec 159 0)
    residue := x.residue
    flags := { x.flags with
      invalid := x.flags.invalid || bad || decide (x.w ≠ o.w), winMis := x.flags.winMis || decide (x.w ≠ o.w), part := false }
    lowCount := 0
    highCount := 0
    invalidCount := b2n bad }
  (acc, acc.blockEnd x.w)

/-- What a block of LACVT reads: its records (R85, R91). -/
def UnitOp.lacvtReads (o : UnitOp) (rows cols : Nat × Nat) : List (Nat × Nat) :=
  (runIdx rows).map fun i => (o.seed + (i * o.n + cols.1) * 32, 32 * cols.2)

/-- The chunk of one step of LACVT. -/
def UnitOp.lacvtChunk (o : UnitOp) (p : Nat) (rows : Nat × Nat) (cols : List (Nat × Nat)) (s : State) : Chunk :=
  o.blockChunk (o.lacvtReads rows) rows cols fun i j =>
    o.lacvtCell (s.seedRecord p o i j)

/-- The chunk of some output blocks of an operation of the tensor unit. -/
def UnitOp.tensorChunk (o : UnitOp) (p : Nat) (b : (Nat × Nat) × List (Nat × Nat)) (s : State) : Chunk :=
  if o.op = 1 then o.matmulChunk p b.1 b.2 s else o.lacvtChunk p b.1 b.2 s

/-- A tensor operation from where it stands to its end, its abort or a stall. Rows of a stream result are complete with the last
block of their block row. -/
def UnitOp.runTensor (o : UnitOp) (p : Nat) (s : State) : Exec :=
  (o.blocks.drop o.next).foldl (fun x b =>
    let last := (b.2.getLastD (0, 0))
    x.run p o (o.tensorChunk p b) (if last.1 + last.2 = o.n then b.1.1 + b.1.2 else x.rows)) (o.exec s)

end Sys2Proof.Machine
end

