-- ==== Sys2Proof/Machine/VectorOps.lean ====
section
/-! DEFINITION. What the vector unit computes (R96 to R99), row by row. -/

namespace Sys2Proof.Machine

/-- A row's binary32 results with the invalid operations counted, NaN inputs apart. -/
abbrev RowResult := List FlR

/-- An operation of two operands, element by element. -/
def zipRow (f : Num → Num → FlR) (xs ys : List Num) : RowResult := (xs.zip ys).map fun a => f a.1 a.2

/-- A result without invalid operations. -/
def FlR.pure (x : Num) : FlR := ⟨x, 0⟩

/-- The elementwise and per-row results of row `i` for an opcode of R96, but for RSUM, RMAX, CVT and VDOT. -/
def vectorRow (op : Nat) (xs ys ds : List Num) (y sc : Num) : RowResult :=
  if op = 0x40 then zipRow fadd xs ys
  else if op = 0x41 then zipRow (fun a b => fadd a b.neg) xs ys
  else if op = 0x42 then zipRow fmul xs ys
  else if op = 0x43 then ((xs.zip ys).zip ds).map fun a => ffma a.1.1 a.1.2 a.2
  else if op = 0x44 then zipRow (fun a b => .pure (fmax a b)) xs ys
  else if op = 0x45 then zipRow (fun a b => .pure (fmin a b)) xs ys
  else if op = 0x46 then xs.map fun a => fmul a sc
  else if op = 0x47 then xs.map fun a => fadd a sc
  else if op = 0x48 then xs.map fun a => .pure a.abs
  else if op = 0x49 then xs.map fun a => .pure a.neg
  else if op = 0x50 then xs.map fexp2
  else if op = 0x51 then xs.map fexp
  else if op = 0x52 then xs.map flog2
  else if op = 0x53 then xs.map flog
  else if op = 0x54 then xs.map frcp
  else if op = 0x55 then xs.map frsqrt
  else if op = 0x5A then xs.map fun a => let d := fadd a y.neg; let e := fexp d.v; ⟨e.v, d.inv + e.inv⟩
  else xs.map fun a => fmul a y

/-- Invalid operations of a row. -/
def rowInv (rs : RowResult) : Nat := (rs.map (·.inv)).foldl (· + ·) 0

/-- The counts of a row of a vector operation: the invalid flag goes with the invalid count (R93, R97). -/
def vecStats (invalid : Nat) (conv : Stats) : Stats :=
  let n := invalid + conv.invalid
  { conv with invalid := n, flags := { invalid := n != 0 } }

/-- What row `i` reads. -/
def UnitOp.rowReads (o : UnitOp) (i : Nat) : List (Nat × Nat) :=
  (if bit o.aAddr 23 then [] else [(o.aAddr + i * o.aStride, o.aRow)]) ++
  (if o.sclA then [(o.scaA + i * scaleRow o.fmtA o.aLen, scaleRow o.fmtA o.aLen)] else []) ++
  (if usesB o.op && !bit o.bAddr 23 then
    (if bPerRow o.op then [(o.bAddr + i * (fmtWidth o.fmtB / 8), fmtWidth o.fmtB / 8)]
     else if o.op = 0x61 then (List.range o.n).map fun j => (o.bAddr + j * o.bStride, o.bRow)
     else [(o.bAddr + i * o.bStride, o.bRow)]) else []) ++
  (if o.sclB then [(o.scaB, o.n * scaleRow o.fmtB o.k)] else []) ++
  (if o.op = 0x43 && !bit o.dAddr 23 then [(o.dAddr + i * o.dStride, o.dRow)] else [])

/-- NaN inputs that row `i` of a CVT counts (R50, R51, R96): each counts once, whether the target has a NaN or not. -/
def UnitOp.cvtNans (o : UnitOp) (xs : List Num) : Nat := if hasNan o.fmtC then nanCount xs else 0

/-- NaN inputs that belong to no one row: the scalar of VSCALE and VADDS and the elements of VDOT's B, each counted once in an operation, with
row 0 (R97; log entry 19). -/
def UnitOp.sharedNans (o : UnitOp) (s : State) (p i : Nat) : Nat :=
  if i ≠ 0 then 0
  else if o.op = 0x61 then ((List.range o.n).map fun j => nanCount (s.bValues p o j)).foldl (· + ·) 0
  else if o.op = 0x46 ∨ o.op = 0x47 then nanCount [decodeFloat b32 o.scalar]
  else 0

/-- Row `i` of a VDOT (R99): each product rounded once to binary32, summed in the lane order; and its invalid operations. -/
def UnitOp.dotRow (o : UnitOp) (s : State) (p i : Nat) : List Num × Nat :=
  let as := s.aValues p o i
  let cells := (List.range o.n).map fun j =>
    let bs := s.bValues p o j
    let prods := zipRow fmul as bs
    let r := laneSum (prods.map (·.v))
    (r.v, rowInv prods + r.inv)
  (cells.map (·.1), (cells.map (·.2)).foldl (· + ·) 0)

/-- The chunk of a row: what it reads, what its inputs and its arithmetic count as invalid, and its results. -/
def UnitOp.oneRow (o : UnitOp) (i invalid : Nat) (w : RowOut) : Chunk :=
  { parts := [{ reads := o.rowReads i, stats := vecStats invalid {} }]
    writes := w.writes, outs := w.outs, conv := vecStats 0 w.conv, blocks := 1 }

/-- The chunk of row `i` of a vector operation. -/
def UnitOp.rowChunk (o : UnitOp) (p i : Nat) (s : State) : Chunk :=
  let xs := s.aValues p o i
  let nans := nanCount xs + o.sharedNans s p i
  if o.op = 0x61 then
    let r := o.dotRow s p i
    o.oneRow i (nans + r.2) (o.writeRow i 0 r.1 true)
  else if o.op = 0x60 then o.oneRow i (o.cvtNans xs) (o.writeRow i 0 xs true)
  else if o.op = 0x58 then
    let r := laneSum xs
    o.oneRow i (nans + r.inv) (o.writeRow i 0 [r.v] true)
  else if o.op = 0x59 then o.oneRow i nans (o.writeRow i 0 [laneMax xs] true)
  else
    let ys := if usesB o.op && !bPerRow o.op then s.bValues p o i else []
    let ds := if o.op = 0x43 then s.dValues p o i else []
    let y := if bPerRow o.op then s.bElem p o i else .fin false 0 0
    let rs := vectorRow o.op xs ys ds y (decodeFloat b32 o.scalar)
    let inv := nans + nanCount ys + nanCount ds + (if bPerRow o.op then nanCount [y] else 0) + rowInv rs
    let w := o.writeRow i 0 (rs.map (·.v)) true
    if o.op = 0x5A then
      let sum := laneSum (rs.map (·.v))
      let c := convElem o.fmtC o.ieee (o.rnd i) sum.v
      o.oneRow i (inv + sum.inv) { w with
        writes := w.writes ++ [(o.dAddr + i * (fmtWidth o.fmtC / 8), toLE (fmtWidth o.fmtC / 8) c.raw)]
        conv := w.conv.plus (Stats.ofConv [c] true) }
    else o.oneRow i inv w

/-- A vector operation from the row where it stands to its end, its abort or a stall. -/
def UnitOp.runVector (o : UnitOp) (p : Nat) (s : State) : Exec :=
  ((List.range o.m).drop o.next).foldl (fun x i => x.run p o (o.rowChunk p i) (i + 1)) (o.exec s)

end Sys2Proof.Machine
end

