-- ==== Sys2Proof/Machine/Units.lean ====
section
/-! DEFINITION. The commands of the tensor and vector units (R80 to R99). A command of an operation's row is the unit's taking
of that operation from its wells; nothing happens where the unit may take none, or where the next one in rotation is another
operation (log entry 8). -/

namespace Sys2Proof.Machine

/-! Shadow selection (R320 to R322). -/

/-- An operation may be shadowed (R320). -/
def UnitOp.eligible (o : UnitOp) : Bool :=
  !o.streams && ((o.readExtents.map (·.2)).foldl (· + ·) 0) ≤ 4194304

/-- The result bytes of an operation, row by row, D of VEXPSUB after C (R322). -/
def State.resultBytes (s : State) (p : Nat) (o : UnitOp) : Bytes :=
  (if cPerRow o.op then s.cisternRead p o.cAddr o.cRow
   else (List.range o.m).flatMap fun i => s.cisternRead p (o.cAddr + i * o.cStride) o.cRow) ++
    (if o.op = 0x5A then s.cisternRead p o.dAddr o.dRow else [])

/-- The signature of an operation that has run (R322). -/
def State.signature (s : State) (p : Nat) (o : UnitOp) : BitVec 64 := crc64 (s.resultBytes p o ++ toLE 32 o.status)

/-- At validation a tile that holds an assignment selects an eligible operation with the meadow's probability, by a free
draw, unless one is outstanding, or background work has taken 30 ms of the tile's second (R320, R332). -/
def State.shadowSelect (s : State) (p : Nat) (tensor : Bool) (o : UnitOp) : State × UnitOp :=
  let t := s.tile p
  let fraction := match t.meadow with
    | some g => s.obe Ob.shadow_fraction g
    | none => 0
  let tooLong := t.shadow.holdWindow == s.now / sec 1 && ms 30 ≤ t.shadow.holdTotal
  if t.shadow.assigned.isSome && t.shadow.outstanding.isNone && o.eligible && !tooLong then
    let r := s.freeVal 16
    let s := s.drew
    if r < fraction then
      ((s.addRec Ob.shadow_counts 0 0 1).modTile p fun t => { t with shadow := { t.shadow with
        outstanding := some (if tensor then .tensor else .vector), noticed := false, abandoned := false, sig := none,
        sig2 := none, desc := o.desc, desc2 := o.ext, tag := o.tag,
        job := (match t.meadow with | some g => s.obe Ob.job_number g | none => 0), step := s.stepOf p } },
       { o with shadowed := true })
    else (s, o)
  else (s, o)

/-! Running an operation. -/

/-- The words of a stream result: its rows, each from a new word, and with mark rows set END_ROW after each row of C and
END_BLOCK after the last (R85, R143). -/
def streamOut (mark : Bool) (row rows all : Nat) (buf : Mem) : List StreamWord :=
  let per := ceilDiv row 8
  ((List.range rows).flatMap fun i =>
    ((List.range per).map fun j => StreamWord.data (BitVec.ofNat 64 (buf.readLE ((i * per + j) * 8) 8))) ++
      (if mark then [StreamWord.token 1 0] else [])) ++
  (if mark && rows = all then [StreamWord.token 2 0] else [])

/-- The words of an operation's stream result after its first `rows` rows. A C with one element per row of A is one row; of one that
is not complete the whole words leave. -/
def UnitOp.streamWords (o : UnitOp) (mark : Bool) (rows : Nat) (buf : Mem) : List StreamWord :=
  if o.writePort.isNone then []
  else if !cPerRow o.op then streamOut mark o.cRow rows o.m buf
  else if rows = o.m then streamOut mark o.cRow 1 1 buf
  else streamOut false (8 * (rows * (fmtWidth o.fmtC / 8) / 8)) 1 1 buf

/-- The blocks or rows whose results are written (R90, R93): of a stream result that an abort ends, the blocks of its whole block rows, and
of one with one element per row of A the elements of the words that leave. -/
def UnitOp.written (o : UnitOp) (x : Exec) : Nat :=
  if x.abort = 0 ∨ o.writePort.isNone then x.blocks
  else if cPerRow o.op then x.rows * fmtWidth o.fmtC / 64 * (64 / fmtWidth o.fmtC)
  else if tensorOpcode o.op then ((o.blocks.filter fun b => b.1.1 + b.1.2 ≤ x.rows).map fun b => b.2.length).foldl (· + ·) 0
  else x.blocks

/-- An operation as its work leaves it: stalled with what it has done so far (R82), or finished with its status record (R93). -/
def UnitOp.after (o : UnitOp) (x : Exec) (now : Nat) (mark : Bool) : UnitOp :=
  let outcome := if x.abort ≠ 0 then 4 else outcomeOf x.stats
  if x.stalled then
    { o with phase := .stalled, next := x.next, stats := x.stats, doneBlocks := x.blocks, rows := x.rows, cbuf := x.cbuf }
  else
    { o with
      phase := .finished, outcome, reason := x.abort, finishedAt := now
      status := statusRecord outcome x.abort (o.written x) o.tag x.stats
      out := o.streamWords mark x.rows x.cbuf
      next := 0, stats := {}, doneBlocks := 0, rows := 0, cbuf := [] }

/-- An operation runs on: its results are written until it stalls or is finished; an abort is reported (R82, R88 to R97). -/
def State.runOp (s : State) (p : Nat) (tensor : Bool) (o : UnitOp) : State × UnitOp :=
  let x := if tensor then o.runTensor p s else o.runVector p s
  let mark := match o.writePort with
    | some n => bit ((s.tile p).sourceOpt n) 1
    | none => false
  let o' := o.after x s.now mark
  let s1 := if x.abort ≠ 0 then
      x.s.raise { (x.s.tile p).report p 0x0202 with opValid := true, tag := o.tag, detail := x.abort }
    else x.s
  (if o.shadowed && !x.stalled then s1.modTile p fun t => { t with shadow := { t.shadow with sig := some (s1.signature p o') } } else s1, o')

/-- A refused operation is finished as it is taken: it reads and writes nothing but its status record (R87). -/
def State.refuseOp (s : State) (p : Nat) (o : UnitOp) (r : Nat) : State × UnitOp :=
  (s.raise { (s.tile p).report p 0x0201 with opValid := true, tag := o.tag, detail := r },
   { o with phase := .finished, outcome := 3, reason := r, status := statusRecord 3 r 0 o.tag {}, finishedAt := s.now,
            writeStatus := !o.badStatus s p })

/-- A started operation reads what its stream operands hold, and runs once they hold all of it, as far as its reads and writes wait for
nothing (R82). -/
def State.tryRun (s : State) (p : Nat) (tensor : Bool) (o : UnitOp) : State × UnitOp :=
  let r := (s.tile p).pull o
  let s := s.setTile p r.2
  let o := { r.1 with phase := .stalled }
  if !o.fed then (s, o) else s.runOp p tensor o

/-- Puts a new value in the unit's executing or waiting place. -/
def State.setOp (s : State) (p : Nat) (tensor first : Bool) (o : UnitOp) : State :=
  s.modTile p fun t => t.modUnit tensor fun u => if first then { u with exec := some o } else { u with waiting := some o }

/-- Emits what an executing operation holds for its result port while the port has credit and is not stopped (R152). -/
def State.emitOut (s : State) (p : Nat) (tensor : Bool) : Nat → State
  | 0 => s
  | n + 1 =>
    let t := s.tile p
    match (t.unit tensor).exec with
    | some o => match o.out, o.writePort with
      | w :: ws, some port =>
        if t.sourceReady port then
          ((s.modTile p fun t => t.emit port w).setOp p tensor true { o with out := ws }).emitOut p tensor n
        else s
      | _, _ => s
    | none => s

/-- What the units do when the stream plane has moved: an operation that waits for its words goes on once it has them, and
results leave. -/
def State.unitsFlow (s : State) (p : Nat) : State :=
  [true, false].foldl (fun s tensor =>
    match ((s.tile p).unit tensor).exec with
    | some o =>
      let s := if o.phase = .stalled ∧ o.streams then
          let r := s.tryRun p tensor o
          r.1.setOp p tensor true r.2
        else s
      s.emitOut p tensor (match ((s.tile p).unit tensor).exec with | some o => o.out.length | none => 0)
    | none => s) s

/-- What follows every change of a tile's stream plane. -/
def State.streamsGo (s : State) (p : Nat) : State := ((s.flow p).unitsFlow p).streamSettle p

/-- A unit takes the next message of its wells, where `accept` holds of its opcode, validates it, and starts it where it is the
only one it holds (R80, R81, R87). -/
def takeOp (p : Nat) (tensor : Bool) (accept : Nat → Bool) (s : State) : Out :=
  let t := s.tile p
  let u := t.unit tensor
  match t.unitWell tensor with
  | none => s.noEvent
  | some w => match (t.well w).msgs with
    | [] => s.noEvent
    | m :: _ =>
      let o := UnitOp.ofMsg m
      let stopped := match o.writePort with
        | some n => t.stream.stopped.contains n
        | none => false
      if !accept o.op || !t.works || u.waiting.isSome || u.held.isSome || stopped then s.noEvent
      else
        let s := s.modTile p fun t =>
          (t.modWell w fun x => x.take s.now).modUnit tensor fun u => { u with lastWell := w }
        let r := o.refusal s p tensor
        let first := u.exec.isNone
        let a := if r ≠ 0 then s.refuseOp p o r
          else
            let b := s.shadowSelect p tensor o
            if first then b.1.tryRun p tensor b.2 else b
        .next ((a.1.setOp p tensor first a.2).streamsGo p)

/-- A result of a waiting operation depends on the executing one: a read extent meets a write extent (R81). -/
def UnitOp.dependsOn (o e : UnitOp) : Bool := o.readExtents.any fun r => e.writeExtents.any fun w => extentsMeet r w

/-- WAITING_OPERATION_START (R81). -/
def execWaitingOperationStart (p : Phys) (x : UnitSel) (s : State) : Out :=
  let tensor := x == .tensor
  let t := s.tile p
  let u := t.unit tensor
  if !t.works || u.held.isSome then s.noEvent
  else match u.exec, u.waiting with
  | some e, w =>
    if e.phase = .waiting then
      let r := s.tryRun p tensor e
      .next ((r.1.setOp p tensor true r.2).streamsGo p)
    else match w with
    | some o =>
      if e.phase = .finished ∧ o.phase = .waiting ∧ !o.dependsOn e ∧ e.out = [] then
        let r := s.tryRun p tensor o
        .next ((r.1.setOp p tensor false r.2).streamsGo p)
      else s.noEvent
    | none => s.noEvent
  | none, _ => s.noEvent

/-- UNIT_STALL_RELEASE (R82): the started operation whose reads and writes meet no Filling and no Draining range any more goes on; one that
still meets one stays where it is. -/
def execUnitStallRelease (p : Phys) (x : UnitSel) (s : State) : Out :=
  let tensor := x == .tensor
  let u := (s.tile p).unit tensor
  let go (first : Bool) (o : UnitOp) : Out :=
    if o.phase = .stalled ∧ o.fed ∧ (s.tile p).works then
      let r := s.runOp p tensor o
      .next ((r.1.setOp p tensor first r.2).streamsGo p)
    else s.noEvent
  match u.exec, u.waiting with
  | some e, w => if e.phase = .stalled then go true e else match w with
    | some o => go false o
    | none => s.noEvent
  | none, _ => s.noEvent

/-- The completion of an operation (R94): its message holds the status record. -/
def UnitOp.completion (o : UnitOp) : Completion :=
  { msg := o.status
    counter := if bit o.desc 132 then some (bits o.desc 131 128) else none
    well := if bit o.desc 133 then some (bits o.desc 136 134) else none }

/-- The write of the status record that strict mode refuses (R114) aborts the operation with reason 0x22; a refused operation stays
refused (log entry 46). -/
def UnitOp.statusRefused (o : UnitOp) : UnitOp :=
  if o.outcome = 3 then { o with writeStatus := false }
  else { o with
    writeStatus := false, outcome := 4, reason := 0x22, status := setBits (setBits o.status 7 0 4) 15 8 0x22 }

/-- The executing operation ends: its status record is written, then its completion is posted, or held while its well is
full (R93, R94). The waiting operation takes its place. -/
def State.endOp (s : State) (p : Nat) (tensor : Bool) (o : UnitOp) : State :=
  let strict := o.writeStatus && s.strictFault (s.tile p) o.statusAddr 32
  let s := if strict && o.outcome != 3 then
      s.raise { (s.tile p).report p 0x0202 with opValid := true, tag := o.tag, detail := 0x22 }
    else s
  let o := if strict then o.statusRefused else o
  let s := if o.writeStatus then s.cisternWrite p o.statusAddr (toLE 32 o.status) else s
  let s := s.modTile p fun t => t.modUnit tensor fun u => { u with exec := u.waiting, waiting := none, heldStreams := o.streams }
  match s.postCompletion p o.completion with
  | some s' => s'
  | none => s.modTile p fun t => t.modUnit tensor fun u => { u with held := some o.completion }

/-- A shadowed operation's completion waits for the notice that the copy has landed, or until the shadow is abandoned
(R321). -/
def Tile.shadowHolds (t : Tile) (o : UnitOp) : Bool := o.shadowed && !t.shadow.noticed && !t.shadow.abandoned

/-- The write of an operation's status record waits: it meets a Draining range (R82, R110). -/
def Tile.statusStalls (t : Tile) (o : UnitOp) : Bool := o.writeStatus && t.anyRange o.statusAddr 32 .draining

/-- UNIT_COMPLETION (R93): the executing operation has run, its results have left and its status record can be written. -/
def execUnitCompletion (p : Phys) (x : UnitSel) (s : State) : Out :=
  let tensor := x == .tensor
  match ((s.tile p).unit tensor).exec with
  | some o =>
    if o.phase = .finished ∧ o.out = [] ∧ !(s.tile p).shadowHolds o ∧ !(s.tile p).statusStalls o ∧
        ((s.tile p).unit tensor).held = none then
      .next (((s.endOp p tensor o).streamsGo p).settle p)
    else s.noEvent
  | none => s.noEvent

/-- UNIT_COMPLETION_PLACED (R94). -/
def execUnitCompletionPlaced (p : Phys) (x : UnitSel) (s : State) : Out :=
  let tensor := x == .tensor
  match ((s.tile p).unit tensor).held with
  | some c => match s.postCompletion p c with
    | some s' => .next ((s'.modTile p fun t => t.modUnit tensor fun u => { u with held := none, heldStreams := false }).settle p)
    | none => s.noEvent
  | none => s.noEvent

/-- MATMUL (R88): the tensor unit takes any operation but LACVT; one that is not MATMUL it refuses (R86, R87). -/
def execMatmul (p : Phys) (s : State) : Out := takeOp p true (fun c => c != 2) s

/-- LACVT (R91). -/
def execLacvt (p : Phys) (s : State) : Out := takeOp p true (fun c => c == 2) s

/-- VADD (R96); also the taking of an operation that the vector unit refuses for its opcode (R86, R87). -/
def execVadd (p : Phys) (s : State) : Out := takeOp p false (fun c => c == 0x40 || !vectorOpcode c) s

/-- VSUB (R96). -/
def execVsub (p : Phys) (s : State) : Out := takeOp p false (fun c => c == 0x41) s

/-- VMUL (R96). -/
def execVmul (p : Phys) (s : State) : Out := takeOp p false (fun c => c == 0x42) s

/-- VFMA (R96). -/
def execVfma (p : Phys) (s : State) : Out := takeOp p false (fun c => c == 0x43) s

/-- VMAX (R96). -/
def execVmax (p : Phys) (s : State) : Out := takeOp p false (fun c => c == 0x44) s

/-- VMIN (R96). -/
def execVmin (p : Phys) (s : State) : Out := takeOp p false (fun c => c == 0x45) s

/-- VSCALE (R96). -/
def execVscale (p : Phys) (s : State) : Out := takeOp p false (fun c => c == 0x46) s

/-- VADDS (R96). -/
def execVadds (p : Phys) (s : State) : Out := takeOp p false (fun c => c == 0x47) s

/-- VABS (R96). -/
def execVabs (p : Phys) (s : State) : Out := takeOp p false (fun c => c == 0x48) s

/-- VNEG (R96). -/
def execVneg (p : Phys) (s : State) : Out := takeOp p false (fun c => c == 0x49) s

/-- VEXP2 (R96). -/
def execVexp2 (p : Phys) (s : State) : Out := takeOp p false (fun c => c == 0x50) s

/-- VEXP (R96). -/
def execVexp (p : Phys) (s : State) : Out := takeOp p false (fun c => c == 0x51) s

/-- VLOG2 (R96). -/
def execVlog2 (p : Phys) (s : State) : Out := takeOp p false (fun c => c == 0x52) s

/-- VLOG (R96). -/
def execVlog (p : Phys) (s : State) : Out := takeOp p false (fun c => c == 0x53) s

/-- VRCP (R96). -/
def execVrcp (p : Phys) (s : State) : Out := takeOp p false (fun c => c == 0x54) s

/-- VRSQRT (R96). -/
def execVrsqrt (p : Phys) (s : State) : Out := takeOp p false (fun c => c == 0x55) s

/-- RSUM (R96). -/
def execRsum (p : Phys) (s : State) : Out := takeOp p false (fun c => c == 0x58) s

/-- RMAX (R96). -/
def execRmax (p : Phys) (s : State) : Out := takeOp p false (fun c => c == 0x59) s

/-- VEXPSUB (R96). -/
def execVexpsub (p : Phys) (s : State) : Out := takeOp p false (fun c => c == 0x5A) s

/-- VMULROW (R96). -/
def execVmulrow (p : Phys) (s : State) : Out := takeOp p false (fun c => c == 0x5B) s

/-- CVT (R96). -/
def execCvt (p : Phys) (s : State) : Out := takeOp p false (fun c => c == 0x60) s

/-- VDOT (R96). -/
def execVdot (p : Phys) (s : State) : Out := takeOp p false (fun c => c == 0x61) s

/-! Scrubbing (R103, R104). -/

/-- Corrects a word in place: written back with its check bits (R103). -/
def Ecc.clean (e : Ecc) (word : Nat) : Ecc :=
  { e with cistern := if Tbl.get 0 e.cistern word = 1 then e.cistern.put 0 word 0 else e.cistern
           writeBack := e.writeBack.filter fun w => w != word }

/-- SCRUB_WRITE_BACK (R103): a word that a read has corrected is written back. -/
def execScrubWriteBack (p : Phys) (word : Nat) (s : State) : Out :=
  if (s.tile p).ecc.writeBack.contains word then .next (s.modTile p fun t => { t with ecc := t.ecc.clean word })
  else s.noEvent

/-- PATROL_SCRUB (R104): every 160 ms one line, in bank-row order; each word that it corrects is written back at once. A tile in T3 has no
cistern; one in T2 keeps its own, which is scrubbed like every other's (R363). -/
def execPatrolScrub (p : Phys) (s : State) : Out :=
  let e := (s.tile p).ecc
  let off := 64 * e.scrubRow
  if (s.tile p).power.state = .t3 ∨ s.now < e.lastScrub + ms 160 then s.noEvent
  else
    let bad := (s.tile p).ecc.cistern.any fun x => x.2 == 2 && x.1 / 8 == e.scrubRow
    let s1 := s.corrected p off 64
    let s2 := if bad then s1.uncorrectable p ((s.tile p).badWord off 64) else s1
    .next (s2.modTile p fun t =>
      let e := (List.range 8).foldl (fun (e : Ecc) i => e.clean (off / 8 + i)) t.ecc
      { t with ecc := { e with lastScrub := s.now, scrubRow := (e.scrubRow + 1) % cisternLines s.variant } })

end Sys2Proof.Machine
end

