-- ==== Sys2Proof/Machine/Streams.lean ====
section
/-! DEFINITION. The commands of the stream switch (R139 to R160): words that go on, steering units, counters, folds, drains,
quiet, flushes, telemetry. -/

namespace Sys2Proof.Machine

/-! Words that reach a sink, a tap or a fan-out. -/

/-- The keys of an input: a local source's gang has one per lane. -/
def Tile.inputKeys (t : Tile) (i : StreamInput) : List Nat :=
  if i.cls = 5 then (List.range (t.sourceGang i.idx)).map fun k => inKey 5 i.idx + 256 * k else [inKey i.cls i.idx]

/-- The physical tile from which a lane input comes (R134, R136). -/
def State.upstream (s : State) (p cls idx : Nat) : Option Nat :=
  match (s.tile p).logical with
  | none => none
  | some l =>
    if cls < 4 then (neighbour s.variant l cls 1).map s.physOf
    else if cls = 4 then (neighbour s.variant l (idx % 4) 2).map s.physOf
    else none

/-- The standpipe tail that takes the words of an input key (R160). -/
def Tile.pipeTail (t : Tile) (key : Nat) : Option Nat :=
  (List.range 4).find? fun i =>
    let e := t.pipe i
    bit e 0 && bit e 1 && key / 32 == bits e 4 2 && bits e 7 5 ≤ key % 32 && key % 32 < bits e 7 5 + pipeGang e

/-- A standpipe's tail takes the words of its lanes in turn (R160). -/
def State.pipeTake (s : State) (p i : Nat) : Nat → State
  | 0 => s
  | n + 1 =>
    let t := s.tile p
    let e := t.pipe i
    let got := Tbl.get [] t.stream.pipeIn i
    let key := inKey (bits e 4 2) (bits e 7 5 + got.length % pipeGang e)
    match t.inQueue key with
    | .data w :: q =>
      ((s.modTile p fun t => { (t.setIn key q) with stream := { (t.setIn key q).stream with
        pipeIn := t.stream.pipeIn.put [] i (got ++ [w]) } }).pipeArrive p i).pipeTake p i n
    | _ => s

/-- The head of an input holds a word of the asked kind: its beat is offered to the entries it feeds (R132, R133, R158), or a standpipe's
tail takes it (R160); then everything moves that the step has made room for. A frozen tile withholds stream credit (R285). -/
def wordRow (p : Nat) (i : StreamInput) (accept : StreamWord → Bool) (s : State) : Out :=
  let t := s.tile p
  let ws := ((t.inputKeys i).flatMap t.beat).eraseDups.filterMap fun k => (t.inQueue k).head?.map fun w => (k, w)
  if !(ws.any fun x => accept x.2) ∨ t.frozen then s.noEvent
  else
    let s1 := match t.pipeTail (inKey i.cls i.idx) with
      | some j => s.pipeTake p j (8 * hopCredit)
      | none => s.offerBeat p ws
    let s2 := match s.upstream p i.cls i.idx with
      | some q => s1.flow q
      | none => s1
    .next ((s2.streamsGo p).settle p)

/-- A token of an opcode. -/
def StreamWord.isToken (op : Nat) : StreamWord → Bool
  | .data _ => false
  | .token o _ => o == op
  | .endWord _ => false

/-- An end word. -/
def StreamWord.isEnd : StreamWord → Bool
  | .data _ => false
  | .token _ _ => false
  | .endWord _ => true

/-- A user token (R141). -/
def StreamWord.isUser : StreamWord → Bool
  | .data _ => false
  | .token o _ => 0xC0 ≤ o
  | .endWord _ => false

/-- END_ROW (R143). -/
def execEndRow (p : Phys) (i : StreamInput) (s : State) : Out := wordRow p i (StreamWord.isToken 1) s

/-- END_BLOCK (R143). -/
def execEndBlock (p : Phys) (i : StreamInput) (s : State) : Out := wordRow p i (StreamWord.isToken 2) s

/-- END_STEP (R152). -/
def execEndStep (p : Phys) (i : StreamInput) (s : State) : Out := wordRow p i (StreamWord.isToken 3) s

/-- SELECT (R148). -/
def execSelect (p : Phys) (i : StreamInput) (s : State) : Out := wordRow p i (StreamWord.isToken 4) s

/-- DRAIN as a token (R152). -/
def execDrainToken (p : Phys) (i : StreamInput) (s : State) : Out := wordRow p i (StreamWord.isToken 5) s

/-- FOLD as a token (R150). -/
def execFoldToken (p : Phys) (i : StreamInput) (s : State) : Out := wordRow p i (StreamWord.isToken 6) s

/-- BARRIER as a token (R141). -/
def execBarrierToken (p : Phys) (i : StreamInput) (s : State) : Out := wordRow p i (StreamWord.isToken 7) s

/-- A user token (R143). -/
def execUserToken (p : Phys) (i : StreamInput) (s : State) : Out := wordRow p i StreamWord.isUser s

/-- An end word (R142). -/
def execEndWord (p : Phys) (i : StreamInput) (s : State) : Out := wordRow p i StreamWord.isEnd s

/-- A data word (R145, R158). -/
def execDataWord (p : Phys) (i : StreamInput) (s : State) : Out := wordRow p i StreamWord.isData s

/-! Steering units (R146 to R149). -/

/-- A steering unit's configuration. -/
def Tile.steer (t : Tile) (u : Nat) : Nat := t.slotWord (0x180 + 16 * u) 4

def steerKind (c : Nat) : Nat := bits c 2 0
def steerRow (c : Nat) : Bool := bit c 3
def steerFixed (c : Nat) : Bool := bit c 4
def steerArg (c : Nat) : Nat := bits c 23 8

/-- The queue of a steering unit's input: 0 data a, 1 data b, 2 control. -/
def steerKey (u k : Nat) : Nat := 8 * (4 + 3 * u + k)

/-- The control value at hand (R148). -/
def Tile.steerValue (t : Tile) (u : Nat) : Option Nat :=
  if steerFixed (t.steer u) then some (steerArg (t.steer u))
  else match t.sinkQueue (steerKey u 2) with
    | .data v :: _ => some (v.toNat % 65536)
    | .token op arg :: _ => if op = 4 then some arg else none
    | _ => none

/-- Takes the head of a steering input. -/
def Tile.steerPop (t : Tile) (u k : Nat) : Tile := t.setSink (steerKey u k) ((t.sinkQueue (steerKey u k)).drop 1)

/-- The control word of a firing is consumed. -/
def Tile.steerControl (t : Tile) (u : Nat) : Tile := if steerFixed (t.steer u) then t else t.steerPop u 2

/-- The word that ends a row item (R146). -/
def StreamWord.endsRow (w : StreamWord) : Bool := w.isToken 1 || w.isToken 2

/-- Emits a word `n` times on output `o` of a steering unit. -/
def Tile.steerEmit (t : Tile) (u o : Nat) (w : StreamWord) (n : Nat) : Tile :=
  (List.range n).foldl (fun t _ => t.emit (8 + 2 * u + o) w) t

/-- A firing's output has a credit and is not stopped (R152); a dropped item needs none. -/
def Tile.steerRoom (t : Tile) (u : Nat) : Option Nat → Bool
  | some o => t.sourceReady (8 + 2 * u + o)
  | none => true

/-- A firing emits its word, or drops it. -/
def Tile.steerOut (t : Tile) (u : Nat) (o : Option Nat) (w : StreamWord) (n : Nat) : Tile :=
  match o with
  | some o => t.steerEmit u o w n
  | none => t

/-- What a firing does with its item (R147): the data input it takes, the output, and how often the word is emitted. -/
def steerAction (kind v : Nat) : Nat × Option Nat × Nat :=
  if kind = 1 then (0, some (v % 2), 1)
  else if kind = 2 then (v % 2, some 0, 1)
  else if kind = 3 then (0, if v % 2 = 1 then some 0 else none, 1)
  else (0, some 0, v)

/-- STEER_FIRE (R147): a firing, or the next word of the row item of the last firing. -/
def execSteerFire (p : Phys) (u : Fin 4) (s : State) : Out :=
  let t := s.tile p
  let c := t.steer u
  if steerKind c = 0 ∨ 4 < steerKind c ∨ t.frozen then s.noEvent
  else match Tbl.get none t.stream.rows u with
  | some r => match t.sinkQueue (8 * r.sink) with
    | w :: q =>
      if w.isStructural || !t.steerRoom u r.out then s.noEvent
      else
        let t1 := (t.setSink (8 * r.sink) q).steerOut u r.out w 1
        let t2 := if w.endsRow then { t1 with stream := { t1.stream with rows := t1.stream.rows.put none u none } } else t1
        .next (((s.setTile p t2).streamsGo p).settle p)
    | [] => s.noEvent
  | none => match t.steerValue u with
    | none => s.noEvent
    | some v =>
      let (k, o, n) := steerAction (steerKind c) v
      match t.sinkQueue (steerKey u k) with
      | [] => s.noEvent
      | w :: _ =>
        if w.isStructural || !t.steerRoom u o then s.noEvent
        else
          let t1 := ((t.steerControl u).steerPop u k).steerOut u o w n
          let t2 := if steerRow c && !w.endsRow then
              { t1 with stream := { t1.stream with rows := t1.stream.rows.put none u (some ⟨4 + 3 * u + k, o⟩) } }
            else t1
          .next (((s.setTile p t2).streamsGo p).settle p)

/-- The inputs that a steering unit uses (R149). -/
def steerInputs (c : Nat) : List Nat :=
  [0] ++ (if steerKind c = 2 then [1] else []) ++ (if steerFixed c then [] else [2])

/-- Two structural words are of one kind (R149). -/
def StreamWord.sameKind : StreamWord → StreamWord → Bool
  | .token a _, .token b _ => a == b
  | .endWord _, .endWord _ => true
  | _, _ => false

/-- STEER_STRUCTURAL (R149). -/
def execSteerStructural (p : Phys) (u : Fin 4) (s : State) : Out :=
  let t := s.tile p
  let c := t.steer u
  let heads := (steerInputs c).filterMap fun k => (t.sinkQueue (steerKey u k)).head?
  if steerKind c = 0 ∨ 4 < steerKind c ∨ t.frozen ∨ heads.length < (steerInputs c).length ∨
      !(heads.all StreamWord.isStructural) then s.noEvent
  else
    let w := heads.headD (.data 0)
    if heads.all fun x => x.sameKind w then
      let outs := [0, 1].filter fun o => t.sourceUsed (8 + 2 * u + o)
      if outs.all fun o => t.sourceReady (8 + 2 * u + o) then
        let s1 := (steerInputs c).foldl (fun s k => match (s.tile p).sinkQueue (steerKey u k) with
          | x :: _ => (s.modTile p fun t => t.steerPop u k).sinkConsume p (steerKey u k) x
          | [] => s) s
        let s2 := s1.modTile p fun t => outs.foldl (fun t o => t.emit (8 + 2 * u + o) w) t
        .next ((s2.streamsGo p).settle p)
      else s.noEvent
    else .next (s.raiseTile p 0x0207 u)

/-! Counters (R145). -/

/-- COUNTER_TERMINAL (R145). -/
def execCounterTerminal (p : Phys) (n : Fin 16) (s : State) : Out :=
  if ((s.tile p).counter n).reached then .next ((s.counterTerminal p n).settle p) else s.noEvent

/-- COUNTER_EMISSION (R145). -/
def execCounterEmission (p : Phys) (n : Fin 16) (s : State) : Out :=
  let t := s.tile p
  let c := t.counter n
  if c.pending = 0 ∨ !t.sourceReady (16 + n) ∨ t.frozen then s.noEvent
  else
    let s1 := s.modTile p fun t =>
      (t.modCounter n fun c => { c with pending := c.pending - 1 }).emit (16 + n) (.token c.opcode c.arg)
    .next ((s1.streamsGo p).settle p)

/-! Drains, folds, quiet (R150 to R155). -/

/-- A local source has finished its current item (R152): no operation that a unit has taken still writes a result port; no row item is under
way on a steering output; no emission of a counter is pending. -/
def Tile.sourceFinished (t : Tile) (n : Nat) : Bool :=
  if n < 4 then
    !([t.tensor, t.vector].any fun u => u.ops.any fun o => o.writePort == some n && (o.phase != .finished || o.out != []))
  else if n < 8 then true
  else if n < 16 then !(t.stream.rows.any fun x => x.1 == (n - 8) / 2 && x.2.isSome)
  else (t.counter (n - 16)).unsent == 0

/-- A graph source in use that a drain or a fold has still to stop (R150, R152). -/
def Tile.toStop (t : Tile) (n : Nat) : Bool := t.sourceUsed n && t.graphSource n && !t.stream.stopped.contains n

/-- A result port in use whose end word a fold has still to see (R142, R150). -/
def Tile.toClose (t : Tile) (n : Nat) : Bool := t.folding && n < 4 && t.sourceUsed n && !t.stream.closed.contains n

/-- Every source that is to stop has stopped, and at a fold every result port has written its end word. -/
def Tile.allStopped (t : Tile) : Bool := (List.range 32).all fun n => !t.toStop n && !t.toClose n

/-- A source stops: a drain's token leaves it, and at a fold a result port's end word after it. -/
def Tile.stopSource (t : Tile) (n : Nat) : Tile :=
  if t.toStop n then
    let t' := match t.stream.drainTok with
      | some d => t.emit n (.token d.1 d.2)
      | none => t
    { t' with stream := { t'.stream with stopped := t'.stream.stopped ++ [n] } }
  else
    let t' := t.emit n (.endWord 0)
    { t' with stream := { t'.stream with closed := t'.stream.closed ++ [n] } }

/-- GRAPH_SOURCE_STOP (R150, R152). -/
def execGraphSourceStop (p : Phys) (n : Fin 32) (s : State) : Out :=
  let t := s.tile p
  if (t.stream.drainTok.isSome ∨ t.folding) ∧ (t.toStop n ∨ t.toClose n) ∧ t.sourceFinished n ∧ t.sourceCredit n ∧ !t.frozen then
    .next (((s.modTile p fun t => t.stopSource n).streamsGo p).settle p)
  else s.noEvent

/-- The initial value of counter `n` in a slot (R137, R144). -/
def Tile.initialCounter (t : Tile) (slot n : Nat) : Counter :=
  let v := t.slots.readLE (4096 * slot + 0x1C0 + 16 * n) 16
  { count := bits v 31 0, terminal := bits v 63 32, opcode := bits v 71 64, arg := bits v 87 72, tapMode := bits v 89 88,
    reload := bit v 90, wake := bit v 91, matchOp := bits v 103 96, tapClass := bits v 106 104, tapIndex := bits v 111 107, overflow := bit v 120 }

/-- A tile takes up a slot (R150): routes, steering and counters are the slot's; steering state and slack queues are cleared;
its sources and sinks begin anew, and a stall that ran in it has ended with it. -/
def Tile.loadSlot (t : Tile) (slot : Nat) : Tile :=
  { t with
    counters := (List.range 16).foldl (fun c n => c.put {} n (t.initialCounter slot n)) []
    stream := { t.stream with
      slot, slackQ := [], sinkQ := t.stream.sinkQ.filter fun x => x.1 / 8 < 4, rows := [], taken := [], stopped := [],
      closed := [], sinkEnd := [], sinkCount := [], laneCount := [], sourcePos := [], stallSince := [], drainTok := none,
      quietSent := false } }

/-- The FOLD instruction of a task ends (R150 step 5): its register takes the previous slot, and the task goes on; a task that has been
stopped in the meantime stays as it is (R54, R77). -/
def State.foldEnds (s : State) (p k : Nat) (d : Reg) (slot : Nat) : State :=
  let x := (s.tile p).task k
  if x.state = .stalled ∧ x.stall = some (.fold d) then
    (s.modTile p fun t => t.modTask k fun x =>
      { (x.setReg d (BitVec.ofNat 64 slot)) with state := .ready, stall := none }).advance p k (waitWord (s.tile p) k)
  else s

/-- FOLD_SWITCH (R69, R150): terminals reached take effect before the counters are reloaded (R145); the previous slot goes to the FOLD
instruction's register. -/
def execFoldSwitch (p : Phys) (s : State) : Out :=
  let t := s.tile p
  match t.stream.folds with
  | f :: fs =>
    if t.folding && t.quiet && t.allStopped && !t.frozen then
      let s1 := (s.takeTerminals p).modTile p fun t =>
        let t := t.loadSlot f.slot
        { t with stream := { t.stream with folds := fs, folding := false } }
      let s2 := match f.task with
        | some (k, d) => s1.foldEnds p k d t.stream.slot
        | none => s1
      .next ((s2.streamsGo p).settle p)
    else s.noEvent
  | [] => s.noEvent

/-- The fabric address of element `e` of a meadow's permanently armed entry (R154, R181, R278). -/
def meadowEntryAddr (g e : Nat) : Nat := fld 4 60 + fld 4 44 + fld (0xFFFFFF00 + g) 12 + 8 * e

/-- QUIET_CONTRIBUTION (R154): once for a drain, and only when the duplicates of the tile's writes are acknowledged (R345). -/
def execQuietContribution (p : Phys) (s : State) : Out :=
  let t := s.tile p
  match t.meadow with
  | some g =>
    if t.quiet && t.allStopped && !t.stream.quietSent && t.ni.dups == [] && !t.folding then
      let s1 := s.tileRequest p 3 0x04 dupFlow 0 1 (meadowEntryAddr g 0) (1 + fld 8 32) 0 0 lastDeadline (toLE 8 1)
      .next (s1.modTile p fun t => { t with stream := { t.stream with quietSent := true } })
    else s.noEvent
  | none => s.noEvent

/-- A unit abandons its operations that use a stream port, without status (R155); one that waited takes the place of the first. -/
def OpUnit.flush (u : OpUnit) : OpUnit :=
  let left := u.ops.filter fun o => !o.streams
  { u with exec := left.head?, waiting := left[1]? }

/-- Words in a table of queues. -/
def queuedWords (q : Tbl (List StreamWord)) : Nat := (q.map fun x => x.2.length).foldl (· + ·) 0

/-- A tile's stream plane is flushed (R155). -/
def Tile.flush (t : Tile) : Tile :=
  { t with
    tensor := t.tensor.flush, vector := t.vector.flush
    counters := t.counters.mapVals {} fun _ c => { c with pending := 0 }
    stream := { t.stream with
      inQ := [], slackQ := [], sinkQ := [], taken := [], rows := [], sourcePos := [], sinkPos := [], stallSince := [] } }

/-- A flush of a tile, its discarded words counted (R155); terminals that its counters have reached take effect first (R145). -/
def State.flushTile (s : State) (p : Nat) : State :=
  let s := s.takeTerminals p
  let x := (s.tile p).stream
  let n := queuedWords x.inQ + queuedWords x.slackQ + queuedWords x.sinkQ
  let s := match (s.tile p).logical with
    | some l => s.addObe Ob.flush_discard l n 64
    | none => s
  s.modTile p Tile.flush

/-- The words of a meadow's links on the tiles between are discarded and counted; those of others stay (R136, R155). -/
def State.flushRelays (s : State) (g : Nat) : State :=
  let mine (r : Relay) : Bool := (s.members g).contains (r.link / 8192)
  s.tiles.foldl (fun s x =>
    let s := x.2.relays.foldl (fun (s : State) r => if mine r then s.addObe Ob.flush_discard (r.link / 8192) r.words.length 64 else s) s
    s.modTile x.1 fun t => { t with relays := t.relays.map fun r => if mine r then { r with words := [] } else r }) s

/-- A flush of a meadow's stream plane (R155). -/
def State.flushMeadow (s : State) (g : Nat) : State := ((s.memberTiles g).foldl State.flushTile s).flushRelays g

/-- Since when a drain of a tile has been asked for. -/
def Tile.drainingSince (t : Tile) : Option Nat := t.stream.drainTok.map fun _ => t.stream.drainSince

/-- DRAIN_TIMEOUT (R155): the meadow's oldest drain is `drain_timeout` old. The step in flight is not committed. -/
def execDrainTimeout (g : Meadow) (s : State) : Out :=
  let since := (s.memberTiles g).filterMap fun p => (s.tile p).drainingSince
  if since.any fun x => us (s.ob Ob.drain_timeout) ≤ s.now - x then
    let s1 := (s.memberTiles g).foldl (fun s p => s.modTile p fun t =>
      { t with stream := { t.stream with drainTok := none, quietSent := true } }) (s.flushMeadow g)
    let s2 := (s1.modJob g fun j => { j with stepPending := false }).modDie 0 fun d =>
      { d with meadowRed := d.meadowRed.mod {} g fun m => { m with quiet := 0 } }
    .next ((s2.raise { kind := 0x0402, unitClass := 6, meadow := g }).powerDrained g)
  else s.noEvent

/-! Telemetry (R159). -/

/-- A tile's stall cycles since the last sample: the entry with the most, and its count. -/
def Stream.laggard (x : Stream) : Nat × Nat :=
  x.stallCycles.foldl (fun m e =>
    let n := e.2 - Tbl.get 0 x.sampleBase e.1
    if m.2 < n then (e.1, n) else m) (0, 0)

/-- The stalls that run in a tile are counted so far, and run on. -/
def State.stallsSoFar (s : State) (p : Nat) : State :=
  ((s.tile p).stream.stallSince.map (·.1)).foldl (fun s e =>
    (s.stallTo p e).modTile p fun t => { t with stream := t.stream.stallFrom s.now e }) s

/-- A tile's sample. -/
def State.streamSample (s : State) (p : Nat) : State :=
  let s := s.stallsSoFar p
  let x := (s.tile p).stream
  match (s.tile p).logical with
  | some l =>
    let total := (x.stallCycles.map (·.2)).foldl (· + ·) 0
    ((s.putObe Ob.stream_laggard l (x.laggard.1 + fld (sat 48 x.laggard.2) 16)).putObe Ob.stream_stall l (total % 2 ^ 64)).modTile p
      fun t => { t with stream := { t.stream with sampleBase := t.stream.stallCycles } }
  | none => s

/-- STREAM_TELEMETRY_SAMPLE (R159): every 1 ms. -/
def execStreamTelemetrySample (s : State) : Out :=
  if s.now < s.telemetry.streamAt + ms 1 then s.noEvent
  else .next ((s.tiles.map (·.1)).foldl State.streamSample { s with telemetry := { s.telemetry with streamAt := s.now } })

end Sys2Proof.Machine
end

