-- ==== Sys2Proof/Machine/PacketOps.lean ====
section
/-! DEFINITION. The packet plane's operations (R162 to R180): units, epochs, routes, channels, replies, notices, the checks of
a destination, the wake of a tile in T2. -/

namespace Sys2Proof.Machine

/-! Units and time. -/

/-- The steward as a packet target. -/
def stewardTarget : Nat := 4610

/-- The unit that a packet's destination kind names, a tile under the map of the packet's epoch (R15, R163). -/
def State.unitOf (s : State) (ep : Bool) (kind logical : Nat) : Nat :=
  if kind = 0 then s.physAt ep logical else if kind = 1 then 4608 else if kind = 2 then 4609 else 4610

/-- The epoch bit a unit stamps and routes by: the one in force, or for a unit that missed the notice the one before (R186,
R276). -/
def State.epochBit (s : State) (unit : Nat) : Bool :=
  (s.ob Ob.route_epoch == 1) != (s.txn.missedFlip && s.txn.missed.contains unit)

/-! The mesh (R7, R169). -/

/-- The physical tile beside `r` in a direction. -/
def meshNeighbour (r dir : Nat) : Option Nat :=
  if dir = 0 then (if 0 < pRow r then some (r - 72) else none)
  else if dir = 1 then (if pCol r < 71 then some (r + 1) else none)
  else if dir = 2 then (if pRow r < 63 then some (r + 72) else none)
  else (if 0 < pCol r then some (r - 1) else none)

/-- The fenced links of the routing tables of an epoch bit: (physical id, mask) (R169, R187). -/
def State.fences (s : State) (ep : Bool) : Tbl Nat :=
  let inForce := s.dict.vals.filterMap fun x =>
    if x.1 / 65536 = Ob.link_fence then x.2.bind fun v => if v = 0 then none else some (x.1 % 65536, v) else none
  if b2n ep = s.ob Ob.route_epoch then inForce
  else s.txn.oldFence.foldl (fun m x => m.put 0 x.1 (x.2.getD 0)) inForce

/-- A position of the mesh that a packet makes for: a tile, or the edge exit of a port die at a row (R169, R172). -/
structure Goal where
  row : Nat
  col : Nat
  die : Option Nat := none
  deriving DecidableEq, Repr

/-- The number of a goal in a routing table: physical tiles, then edge exits (R169). -/
def Goal.id (g : Goal) : Nat :=
  match g.die with
  | none => g.row * 72 + g.col
  | some d => 4608 + 64 * d + g.row

/-- Where a packet makes for in its phase. The steward is reached through port die W (DEDUCED; log entry 52). -/
def Packet.goal (k : Packet) : Goal :=
  if !k.h.phase && k.h.cls < 3 then { row := k.h.interRow, col := k.h.interCol }
  else { row := k.h.routeRow, col := k.h.routeCol
         die := if k.h.dstKind = 0 then none else if k.h.dstKind = 2 then some 1 else some 0 }

/-- The router of a goal. -/
def Goal.router (g : Goal) : Nat := g.row * 72 + g.col

/-- The escape output of an epoch's table (4 local): on a mesh with nothing fenced X first; with fences, as the steward computed it
(R169). -/
def State.escapeOut (s : State) (ep : Bool) (r : Nat) (g : Goal) : Nat :=
  if r = g.router then 4
  else if s.fences ep = [] then
    if pCol r < g.col then 1 else if g.col < pCol r then 3 else if pRow r < g.row then 2 else 0
  else (Config.fencedEscape (s.fences ep) r g.id).val

/-- The C3 output of an epoch's table: Y first on a mesh with nothing fenced (R169). -/
def State.c3Out (s : State) (ep : Bool) (r : Nat) (g : Goal) : Nat :=
  if r = g.router then 4
  else if s.fences ep = [] then
    if pRow r < g.row then 2 else if g.row < pRow r then 0 else if pCol r < g.col then 1 else 3
  else (Config.fencedC3 (s.fences ep) r g.id).val

/-- The adaptive mask of an epoch's table: the minimal outputs that are not fenced (R169). -/
def State.adaptiveMask (s : State) (ep : Bool) (r : Nat) (g : Goal) : List Nat :=
  (List.range 4).filter fun d =>
    (if d = 0 then decide (g.row < pRow r) else if d = 1 then decide (pCol r < g.col)
     else if d = 2 then decide (pRow r < g.row) else decide (g.col < pCol r)) && !bit (Tbl.get 0 (s.fences ep) r) d

/-! Buffers (R167). -/

/-- Flits that the packets standing in a place hold of its buffer; a packet holds no more than the buffer's 4. -/
def State.flitsIn (s : State) (here : Packet → Bool) : Nat :=
  (s.net.filterMap fun x => match x.2 with
    | some k => if here k then some (min 4 (1 + k.h.length)) else none
    | none => none).foldl (· + ·) 0

/-- Flits held of a channel of an input port: 4 each (R167). -/
def State.chanFlits (s : State) (r port cls : Nat) (esc : Bool) : Nat :=
  s.flitsIn fun k => k.loc == .chan r port esc && k.h.cls == cls

/-- Flits held of the sink buffer that a class has reserved at an interface; a port die's is that of the exit row (R167). -/
def State.sinkFlits (s : State) (unit cls row : Nat) : Nat :=
  s.flitsIn fun k => k.loc == .sink && k.target == unit && k.h.cls == cls && (unit < 4608 || k.h.routeRow == row)

/-- A packet of a class finds room at an interface: C2, C3 and C5 have sink buffers of their own (R167); a C4 packet waits while its
tile's head SEND does (R196); C0 and C1 are taken as they come. -/
def State.sinkRoom (s : State) (unit cls row : Nat) : Bool :=
  if cls = 4 ∧ unit < 4608 then (s.tile unit).ni.c4head.isNone
  else if cls = 2 ∨ cls = 3 ∨ cls = 5 then s.sinkFlits unit cls row < 4
  else true

/-- The place of an output's channel in a router's table of tails. -/
def tailKey (dir cls : Nat) (esc : Bool) : Nat := dir * 16 + cls * 2 + b2n esc

/-- Free flits of the channel behind an output; none while a packet's tail holds the output (R167, R168). -/
def State.outSpace (s : State) (r dir cls : Nat) (esc : Bool) : Nat :=
  match meshNeighbour r dir with
  | some q =>
    if s.now < Tbl.get 0 (s.router r).tails (tailKey dir cls esc) then 0 else 4 - s.chanFlits q (opposite dir) cls esc
  | none => 0

/-! The egress sluices of the port dies (R126). -/

/-- A packet that leaves the module through a port die: in window form, a remote SEND, a page command, a group control (R106, R126,
R232). -/
def Packet.leaves (k : Packet) : Bool :=
  k.h.cls ≤ 1 && (k.h.dstKind == 1 || k.h.dstKind == 2) &&
    (bits k.h.addr 63 60 == 2 || (bits k.h.addr 63 60 == 4 && 5 ≤ bits k.h.addr 47 44 && bits k.h.addr 47 44 ≤ 7))

/-- The egress bucket of a meadow holds more than zero. -/
def State.egressOpen (s : State) (d g : Nat) : Bool := 0 < Tbl.get 0 (s.die d).egress g

/-- A packet waits at the mesh edge: its meadow's egress bucket is empty (R126), or its peer's traffic is held back for want of room (R220). -/
def State.egressHolds (s : State) (k : Packet) : Bool :=
  k.leaves && (!s.egressOpen (k.h.dstKind - 1) k.h.meadow || s.peerWaits (k.h.dstKind - 1) k)

/-- Takes a packet that leaves the module: its meadow's bucket is charged, and its wait counted. -/
def State.egress (s : State) (k : Packet) : State :=
  if !k.leaves then s
  else
    let s := s.modDie (k.h.dstKind - 1) fun x =>
      { x with egress := x.egress.mod 0 k.h.meadow fun b => b - ((64000 * (1 + k.h.length) : Nat) : Int) }
    match k.spaceAt with
    | some t => s.addObe Ob.sluice_wait k.h.meadow (s.now - t) 64
    | none => s

/-! Copied packets (R185, R187). -/

/-- The box that bounds the tiles a copied packet goes to, as (top, bottom, left, right): its meadow's under the map of its epoch; an
EPOCH notice goes to the whole mesh. -/
def State.boxOf (s : State) (h : Header) : Option (Nat × Nat × Nat × Nat) :=
  if h.cls = 5 ∧ h.op = 0x20 then some (0, 63, 0, 71)
  else match ((s.members h.meadow).map (s.physAt h.epoch)).filter (· < 4608) with
    | [] => none
    | p :: ps => some (ps.foldl (fun b q =>
        (min b.1 (pRow q), max b.2.1 (pRow q), min b.2.2.1 (pCol q), max b.2.2.2 (pCol q))) (pRow p, pRow p, pCol p, pCol p))

/-- A tile that is given a copy: one of the packet's meadow; of an EPOCH notice every tile that is not dark. -/
def State.copyHere (s : State) (h : Header) (r : Nat) : Bool :=
  if h.cls = 5 ∧ h.op = 0x20 then !darkRow s.variant r else (s.tile r).meadow == some h.meadow

/-- The outputs by which a router passes a copied packet on (4 its own tile): on the source's row straight on, north and south, off it
straight on, up to the edges of the box. Left of the box the row leads to it. An EPOCH notice leaves the row's end for port die E. -/
def State.fanOuts (s : State) (h : Header) (r port : Nat) : List Nat :=
  match s.boxOf h with
  | none => []
  | some (top, bottom, left, right) =>
    let inside := left ≤ pCol r && pCol r ≤ right
    let on := opposite port
    let more := if on = 0 then decide (top < pRow r) else if on = 2 then decide (pRow r < bottom)
      else if on = 1 then decide (pCol r < right) || (h.cls == 5 && h.op == 0x20) else decide (left < pCol r)
    (if inside && s.copyHere h r then [4] else []) ++
      (if inside && port % 2 == 1 && top < pRow r then [0] else []) ++
      (if inside && port % 2 == 1 && pRow r < bottom then [2] else []) ++ (if more then [on] else [])

/-! A router's choice (R168, R170, R172, R185). -/

/-- What a router does with a header: it takes it off the plane, passes a copy through an output, sends it through an output's channel,
or keeps it waiting. -/
inductive Hop where
  | deliver
  | copy (dir : Nat)
  | out (dir : Nat) (esc : Bool)
  | wait
  deriving DecidableEq, Repr

/-- The unit that a packet reaches when it leaves the plane at router `r`. -/
def Packet.unitAt (k : Packet) (r : Nat) : Nat :=
  if k.h.dstKind = 0 then r else if k.h.dstKind = 3 then stewardTarget else 4607 + k.h.dstKind

/-- The output by which a packet leaves the plane: its tile's, or the edge's. -/
def Packet.lastOut (k : Packet) : Nat := if k.h.dstKind = 0 then 4 else if k.h.dstKind = 2 then 1 else 3

/-- The adaptive output with the most free space, the lowest on ties. -/
def State.roomiest (s : State) (r : Nat) (k : Packet) : Option (Nat × Nat) :=
  (s.adaptiveMask k.h.epoch r k.goal).foldl (fun (m : Option (Nat × Nat)) d =>
    let f := s.outSpace r d k.h.cls false
    if f = 0 then m else match m with
      | some b => if b.2 < f then some (d, f) else m
      | none => some (d, f)) none

/-- A copy can leave by an output: into the channel behind it, to the tile, or past the edge to port die E. -/
def State.copyRoom (s : State) (r : Nat) (k : Packet) (dir : Nat) : Bool :=
  if dir = 4 then s.sinkRoom r k.h.cls (pRow r)
  else match meshNeighbour r dir with
    | some _ => 0 < s.outSpace r dir k.h.cls true
    | none => s.sinkRoom 4609 k.h.cls (pRow r)

/-- The router's choice for a packet that stands in it. A phase-0 packet at its intermediate goes on in phase 1 (R171). -/
def State.hop (s : State) (r : Nat) (k : Packet) : Hop :=
  match k.fan with
  | some outs => match outs.find? (s.copyRoom r k) with
    | some d => .copy d
    | none => .wait
  | none =>
    let g := k.goal
    if r = g.router ∧ (k.h.phase ∨ 3 ≤ k.h.cls) then
      if s.sinkRoom (k.unitAt r) k.h.cls k.h.routeRow && !s.egressHolds k then .deliver else .wait
    else if r = g.router then .out 4 false
    else if k.h.cls = 3 then
      if 0 < s.outSpace r (s.c3Out k.h.epoch r g) 3 true then .out (s.c3Out k.h.epoch r g) true else .wait
    else if k.h.escaped then
      if 0 < s.outSpace r (s.escapeOut k.h.epoch r g) k.h.cls true then .out (s.escapeOut k.h.epoch r g) true else .wait
    else match s.roomiest r k with
      | some b => .out b.1 false
      | none => .wait

/-- The output that a packet in a router is for, whether or not it can leave by it. -/
def State.wants (s : State) (r : Nat) (k : Packet) : Nat :=
  match s.hop r k, k.fan with
  | .out d _, _ => d
  | .copy d, _ => d
  | .deliver, _ => k.lastOut
  | .wait, some outs => outs.headD 4
  | .wait, none =>
    let g := k.goal
    if r = g.router then k.lastOut
    else if k.h.cls = 3 then s.c3Out k.h.epoch r g
    else if k.h.escaped then s.escapeOut k.h.epoch r g
    else (s.adaptiveMask k.h.epoch r g).headD (s.escapeOut k.h.epoch r g)

/-- The slack of a packet at a router (R128). -/
def State.slack (s : State) (k : Packet) : Int := signed 16 (k.h.deadline + 65536 - (s.now / 64) % 65536)

/-- A class's place in a router's order of priority (R168). -/
def classRank (cls : Nat) : Nat :=
  if cls = 5 then 0 else if cls = 2 then 2 else if cls = 3 then 3 else if cls = 1 then 4 else if cls = 4 then 5 else 6

/-- Of two requests the one with the least slack goes first, of equal ones the one that arrived first (R129). -/
def State.urgent (s : State) (a b : Nat × Packet) : Bool :=
  if s.slack a.2 ≠ s.slack b.2 then decide (s.slack a.2 < s.slack b.2)
  else if a.2.order ≠ b.2.order then decide (a.2.order < b.2.order)
  else decide (a.1 < b.1)

/-- Packet `a` goes before packet `b` at an output: C5, a class that is due there, the class order, then within a class, of whichever
channel, the least slack (R129, R168). -/
def State.before (s : State) (due : List Nat) (dir : Nat) (a b : Nat × Packet) : Bool :=
  let rank (k : Packet) : Nat := if k.h.cls ≠ 5 ∧ due.contains (dir * 8 + k.h.cls) then 1 else classRank k.h.cls
  if rank a.2 ≠ rank b.2 then decide (rank a.2 < rank b.2) else s.urgent a b

/-- The packets at the heads of a router's channels: (number, packet); a channel keeps the order of arrival (R162). -/
def State.routerHeads (s : State) (r : Nat) : List (Nat × Packet) :=
  let here := s.net.filterMap fun x => match x.2 with
    | some k => match k.loc with
      | .chan q _ _ => if q = r then some (x.1, k) else none
      | _ => none
    | none => none
  here.filter fun a => !here.any fun b =>
    b.2.loc == a.2.loc && b.2.h.cls == a.2.h.cls && b.1 != a.1 &&
      (b.2.order < a.2.order || (b.2.order == a.2.order && b.1 < a.1))

/-- The next place in the order of arrival. -/
def State.nextOrder (s : State) : Nat :=
  s.net.foldl (fun m x => match x.2 with
    | some k => max m (k.order + 1)
    | none => m) 0

/-! In-flight counts (R179, R187). -/

/-- What a packet counts: a REDUCE its contributors. -/
def Packet.weight (k : Packet) : Nat := if k.h.cls = 3 ∧ k.h.op = 4 then bits k.h.arg0 16 0 else 1

/-- Adds to a unit's count of the packets of an epoch that it has injected less those it has consumed; the steward's is port die
W's. -/
def State.countFlight (s : State) (unit : Nat) (ep : Bool) (n : Int) : State :=
  if unit < 4608 then s.modTile unit fun t => { t with ni := { t.ni with flight := t.ni.flight.mod 0 (b2n ep) (· + n) } }
  else s.modDie (if unit = 4609 then 1 else 0) fun d => { d with flight := d.flight.mod 0 (b2n ep) (· + n) }

/-- A packet ends at the unit where it stands: it is counted once as consumed. -/
def State.uncounted (s : State) (unit : Nat) (k : Packet) : State :=
  match k.counted with
  | some ep => s.countFlight unit ep (-(k.weight : Int))
  | none => s

/-- A packet is consumed and gone. -/
def State.consume (s : State) (n : Nat) (k : Packet) : State := (s.uncounted k.target k).dropPkt n

/-- A request is consumed, and answered later. -/
def State.owe (s : State) (n : Nat) (k : Packet) : State :=
  (s.uncounted k.target k).setPkt n { k with loc := .owed, counted := none }

/-! The counts of a router (R168, R189). -/

/-- Ends a class's wait at an output, `e` = output × 8 + class: the cycles in which a ready flit was not sent are counted. -/
def Router.endWait (x : Router) (now clock e : Nat) : Router :=
  match Tbl.get 0 x.waits e with
  | 0 => x
  | t + 1 => { x with stalls := x.stalls.mod 0 e (· + (now - t) * clock / 1000), waits := x.waits.put 0 e 0 }

/-- Flits of the classes and outputs listed are ready, of others not. -/
def Router.waiting (x : Router) (now clock : Nat) (want : List Nat) : Router :=
  let x := (x.waits.filter fun w => !want.contains w.1).foldl (fun x w => x.endWait now clock w.1) x
  want.foldl (fun x e => if Tbl.get 0 x.waits e = 0 then { x with waits := x.waits.put 0 e (now + 1) } else x) x

/-- Adds the samples of an input port's class up to now, `e` = port × 8 + class, and notes the occupancy from now on: one a cycle, none
of an empty class (R189). -/
def Router.sample (x : Router) (now clock e occ : Nat) : Router :=
  let old := Tbl.get (0, 0) x.occ e
  let h := Tbl.get [] x.depth e
  let h := if h = [] then List.replicate 8 0 else h
  let n := (now - old.2) * clock / 1000
  let x := if old.1 = 0 then x
    else { x with depth := x.depth.put [] e ((List.range 8).map fun i => h.getD i 0 + (if i + 1 = old.1 then n else 0)) }
  { x with occ := x.occ.put (0, 0) e (if occ = 0 then (0, 0) else (occ, now)) }

/-- Counts a packet that leaves through output `port` (R168, R189): its class is served there, and its tail holds the output's channel
until `until_`. -/
def Router.count (x : Router) (now clock port : Nat) (k : Packet) (esc fresh : Bool) (until_ : Nat) : Router :=
  let e := port * 8 + k.h.cls
  let x := x.endWait now clock e
  { x with
    flits := x.flits.mod 0 e (· + (1 + k.h.length))
    escapes := if fresh then x.escapes.mod 0 e (· + 1) else x.escapes
    due := x.due.filter (· != e), tails := if until_ = 0 then x.tails else x.tails.put 0 (tailKey port k.h.cls esc) until_ }

/-- Notes the occupancy of an input port's class, adaptive and escape together. -/
def State.sampleRouter (s : State) (r port cls : Nat) : State :=
  let occ := min 8 (s.chanFlits r port cls false + s.chanFlits r port cls true)
  s.modRouter r fun x => x.sample s.now (s.clockOf r) (port * 8 + cls) occ

/-- What a packet at the head of its channel has waited for so far: a free adaptive channel of its mask (R170), its meadow's egress
bucket (R126). -/
def State.headWait (s : State) (r : Nat) (k : Packet) : Packet :=
  let away := decide (r ≠ k.goal.router)
  let stuck := k.h.cls != 3 && !k.h.escaped && k.fan.isNone && away && (s.roomiest r k).isNone
  let held := !away && s.egressHolds k
  { k with blockedAt := if stuck then some (k.blockedAt.getD s.now) else none
           spaceAt := if held then some (k.spaceAt.getD s.now) else none }

/-- A router looks at the heads of its channels: which flits are ready, and which find no space. -/
def State.routerLook (s : State) (r : Nat) : State :=
  let heads := s.routerHeads r
  let want := (heads.map fun x => s.wants r x.2 * 8 + x.2.h.cls).eraseDups
  heads.foldl (fun s x => s.setPkt x.1 (s.headWait r x.2)) (s.modRouter r fun x => x.waiting s.now (s.clockOf r) want)

/-- A router and those beside it look again. -/
def State.routersLook (s : State) (r : Nat) : State :=
  (r :: (List.range 4).filterMap (meshNeighbour r)).foldl State.routerLook s

/-! Combining (R182). -/

/-- The elements of a REDUCE's data, by its type 2 LA, 3 INT32, 4 INT64 (R181). -/
def redWidth (ty : Nat) : Nat := if ty = 2 then 32 else if ty = 3 then 4 else 8

/-- Two elements added as the reduction adder adds them (R182, R184). -/
def redAdd (ty a b : Nat) : Nat :=
  if ty = 2 then ((LA.ofNat a).combine (LA.ofNat b)).toNat else (a + b) % 2 ^ (8 * redWidth ty)

/-- Splits bytes into elements of `w` bytes. -/
def elemsOf (w n : Nat) (bs : Bytes) : List Nat := (List.range n).map fun i => leNat ((bs.drop (w * i)).take w)

/-- A waiting REDUCE takes up an arriving one (R182). -/
def combineReduce (waiting arriving : Packet) : Packet :=
  let ty := bits waiting.h.addr 47 44
  let w := redWidth ty
  let n := waiting.data.length / w
  let sum := (List.range n).map fun i =>
    redAdd ty (leNat ((waiting.data.drop (w * i)).take w)) (leNat ((arriving.data.drop (w * i)).take w))
  { waiting with
    data := sum.flatMap (toLE w)
    h := { waiting.h with arg0 := waiting.h.arg0 + bits arriving.h.arg0 16 0 } }

/-- The packet that an arriving REDUCE combines with (R182): one with the same root die, id, type, offset and length that waits for the
same output. A router of a dark row combines as any other does (DESIGN CHOICE; log entry 46: R3 calls dark rows pass-through, R182
names no exception). -/
def State.partner (s : State) (r n : Nat) (k : Packet) : Option (Nat × Packet) :=
  if k.h.cls = 3 ∧ k.h.op = 4 then
    (s.net.filterMap fun x => match x.2 with
      | some m => match m.loc with
        | .chan q _ _ => if q = r ∧ x.1 ≠ n then some (x.1, m) else none
        | _ => none
      | none => none).find? fun x =>
        x.2.h.cls == 3 && x.2.h.op == 4 && x.2.h.addr == k.h.addr && x.2.h.dstKind == k.h.dstKind &&
          x.2.data.length == k.data.length && s.wants r x.2 == s.wants r k && bits x.2.h.arg0 16 0 + bits k.h.arg0 16 0 ≤ 65536
  else none

/-- The contributors of a combined packet are counted in the epoch of the packet that has taken them up (R179, R187). -/
def State.moveFlight (s : State) (r : Nat) (k m : Packet) : State :=
  match k.counted, m.counted with
  | some a, some b => if a = b then s else (s.countFlight r a (-(k.weight : Int))).countFlight r b (k.weight : Int)
  | _, _ => s

/-! Entering and leaving a router. -/

/-- A packet arrives at an input port of a router, where a REDUCE may combine and a copied packet is given its outputs; one that has none
ends there. -/
def State.enter (s : State) (n : Nat) (k : Packet) (r port : Nat) (esc : Bool) : State :=
  let k : Packet := { k with
    loc := .chan r port esc, since := s.now, order := s.nextOrder, reported := false, blockedAt := none, spaceAt := none
    fan := k.fan.map fun _ => s.fanOuts k.h r port }
  let s := if k.fan = some [] then (s.uncounted r k).dropPkt n
    else match s.partner r n k with
      | some m => ((s.moveFlight r k m.2).dropPkt n).setPkt m.1 (combineReduce m.2 k)
      | none => s.setPkt n k
  (s.sampleRouter r port k.h.cls).routerLook r

/-- The packet that waits to enter the mesh at an input port with the least slack of its class. -/
def State.injectNext (s : State) (r port cls : Nat) : Option (Nat × Packet) :=
  (s.net.filterMap fun x => match x.2 with
    | some k => if k.loc = .inject r port ∧ k.h.cls = cls then some (x.1, k) else none
    | none => none).foldl (fun (m : Option (Nat × Packet)) x => match m with
      | some y => if s.urgent x y then some x else m
      | none => some x) none

/-- The channel by which a packet enters: C3 and copied packets use escape channels only (R172). -/
def Packet.entersEscape (k : Packet) : Bool := k.h.cls == 3 || k.fan.isSome

/-- Packets enter at an input port while its channel has a free flit (R167). -/
def State.injectGo (s : State) (r port cls : Nat) : Nat → State
  | 0 => s
  | fuel + 1 => match s.injectNext r port cls with
    | some x =>
      if s.chanFlits r port cls x.2.entersEscape < 4 then (s.enter x.1 x.2 r port x.2.entersEscape).injectGo r port cls fuel else s
    | none => s

/-- A packet has left an input port: its flits are free, for packets that wait at the port's interface and for the neighbours. -/
def State.freed (s : State) (k : Packet) : State :=
  match k.loc with
  | .chan r port _ => ((s.sampleRouter r port k.h.cls).injectGo r port k.h.cls 4).routersLook r
  | _ => s

/-- Until when a packet's flits pass an output, at the slower of two clocks (R163, R168). -/
def State.tailTime (s : State) (r q : Nat) (k : Packet) : Nat := s.now + max (s.cycles r (1 + k.h.length)) (s.cycles q (1 + k.h.length))

/-- A header moves through an output into the next router (R163). -/
def State.forward (s : State) (r n : Nat) (k : Packet) (dir : Nat) (esc fresh : Bool) : State :=
  match meshNeighbour r dir with
  | none => s
  | some q =>
    let s := s.modRouter r fun x => x.count s.now (s.clockOf r) dir k esc fresh (s.tailTime r q k)
    ((s.enter n k q (opposite dir) esc).freed k)

/-- A packet leaves the plane at its goal: at the interface of the tile, or through the edge to the port die (R126). -/
def State.deliver (s : State) (r n : Nat) (k : Packet) : State :=
  let s := (s.modRouter r fun x => x.count s.now (s.clockOf r) k.lastOut k false false 0).egress k
  (s.setPkt n { k with loc := .sink, target := k.unitAt r, since := s.now, order := s.nextOrder }).freed k

/-- A copy leaves through an output; when every copy has left, the packet has (R185). -/
def State.copyOut (s : State) (r n : Nat) (k : Packet) (outs : List Nat) (dir : Nat) : State :=
  let rest := outs.filter (· != dir)
  let s := (s.modRouter r fun x => x.count s.now (s.clockOf r) dir k true false
    (match meshNeighbour r dir with
      | some q => s.tailTime r q k
      | none => 0)).countFlight r k.h.epoch (k.weight : Int)
  let m := s.nextPkt
  let s := if rest = [] then (s.uncounted r k).dropPkt n else s.setPkt n { k with fan := some rest }
  let there (u : Nat) : Packet := { k with loc := .sink, target := u, since := s.now, order := s.nextOrder, fan := some [] }
  let s := if dir = 4 then s.newPkt (there r)
    else match meshNeighbour r dir with
      | some q => (s.newPkt (there r)).enter m k q (opposite dir) true
      | none => s.newPkt (there 4609)
  if rest = [] then s.freed k else s.routerLook r

/-! Issue (R171, R172, R186). -/

/-- The router and port at which a unit's packets enter the mesh; a port die enters on the row given (R172), the steward through port
die W (DEDUCED; log entry 52). -/
def entryChan (unit row : Nat) : Nat × Nat :=
  if unit < 4608 then (unit, 4) else if unit = 4609 then (row * 72 + 71, 1) else (row * 72, 3)

/-- The row on which a packet enters the mesh (R172): its tile's; a port die's on the root row for a REDUCE, else on one that is free,
for a copied packet within the box that bounds its tiles. -/
def State.entryRow (s : State) (k : Packet) (unit : Nat) : Nat :=
  if k.h.cls = 3 ∧ k.h.op = 4 then bits k.h.addr 43 12 % 64
  else if unit < 4608 then pRow unit
  else match k.fan, s.boxOf k.h with
    | some _, some b => b.1 + s.freeVal 6 % (b.2.1 - b.1 + 1)
    | _, _ => s.freeVal 6 % 64

/-- The packet stamped with its unit's epoch, its route from the map of that epoch, and its intermediate (R15, R163, R171, R172,
R186). The logical tile drawn, and the row on which a port die enters the mesh, are free values. -/
def State.stamp (s : State) (k : Packet) (unit : Nat) : Packet × State :=
  let ep := s.epochBit unit
  let k : Packet := { k with h := { k.h with
    epoch := ep, dst := if k.h.dstKind = 0 then k.h.dst else 0, src := if unit < 4608 then k.h.src else 0xFFF } }
  let dst := s.unitOf ep k.h.dstKind k.h.dst
  let draw := s.freeVal 12 % logicalTiles s.variant
  let ip := s.physAt ep draw
  let src := if unit < 4608 then unit else 4608
  let drawn := k.h.cls < 3 && s.obe Ob.two_phase k.h.meadow == 1
  let two := drawn && ip < 4608 && ip != src && ip != dst
  let s1 := if drawn then s.drew else s
  let inRow := s1.entryRow k unit
  let s2 := if unit < 4608 ∨ (k.h.cls = 3 ∧ k.h.op = 4) then s1 else s1.drew
  let exitRow := if k.h.cls = 3 then inRow else if two then pRow ip else inRow
  let e := entryChan unit inRow
  let row := if k.fan.isSome then inRow else if dst < 4608 then pRow dst else exitRow
  let col := if k.fan.isSome then pCol e.1 else if dst < 4608 then pCol dst else if dst = 4609 then 71 else 0
  ({ k with
      h := { k.h with phase := !two, escaped := k.entersEscape, routeRow := row, routeCol := col,
                      interRow := if two then pRow ip else row, interCol := if two then pCol ip else col }
      loc := .inject e.1 e.2, since := s.now, reported := false, counted := some ep, order := s.nextOrder }, s2)

/-- A packet leaves its interface: to its own unit (R107), onto the standpipe that leads to its destination for its class (R160), else
into the mesh. It is counted as injected (R187). -/
def State.launch (s : State) (n : Nat) (k : Packet) (unit : Nat) : State :=
  let x := s.stamp k unit
  let k := { x.1 with root := n }
  let s := x.2.countFlight unit k.h.epoch (k.weight : Int)
  let dst := s.unitOf k.h.epoch k.h.dstKind k.h.dst
  let pipe := if unit < 4608 ∧ k.h.dstKind = 0 then (s.tile unit).pipeHead k.h.dst k.h.cls else none
  let e := match k.loc with
    | .inject r port => (r, port)
    | _ => (0, 0)
  if k.fan.isNone && (dst == unit || (4608 ≤ unit && unit != 4609 && 4608 ≤ dst && dst != 4609)) then
    s.setPkt n { k with loc := .sink, target := dst }
  else match pipe with
    | some i => s.ontoPipe unit i n k
    | none => (s.setPkt n k).injectGo e.1 e.2 k.h.cls 4

/-- Answers a request with a reply of the same flow, sequence, tag and deadline; it keeps the request's number in the model
(R165, R186). -/
def State.reply (s : State) (n : Nat) (k : Packet) (unit op status detail : Nat) (data : Bytes) : State :=
  (s.uncounted unit k).launch n { k with
    data, target := 0, fan := none, blockedAt := none, spaceAt := none
    h := { k.h with
      cls := 2, op, status, detail, length := ceilDiv data.length 64, addr := 0, arg0 := 0, arg1 := 0,
      src := k.h.dst, srcKind := k.h.dstKind, dst := k.h.src, dstKind := k.h.srcKind } } unit

/-- The reply operation to a request's operation. -/
def replyOp (op cls : Nat) : Nat := if cls = 4 then 0x12 else if op = 2 then 0x11 else 0x10

/-- Answers a request with a status and no data. -/
def State.answer (s : State) (n : Nat) (k : Packet) (unit status detail : Nat) : State :=
  s.reply n k unit (replyOp k.h.op k.h.cls) status detail []

/-- A tile refuses a request; statuses 0x07, 0x08 and 0x0C are reported (R180). -/
def State.refuse (s : State) (n : Nat) (k : Packet) (p status : Nat) : State :=
  let s := s.answer n k p status 0
  if status = 0x07 ∨ status = 0x08 ∨ status = 0x0C then s.raiseTile p 0x020A status else s

/-! C5 notices and multicast (R154, R165, R185). -/

/-- A C5 notice that waits at port die W or with the steward (R154, R165); one for a whole meadow is copied to its tiles. -/
def State.notice (s : State) (unit g op arg0 arg1 : Nat) (fan : Bool) : State :=
  s.newPkt {
    h := { cls := 5, op, meadow := g, arg0, arg1, flow := 0x80, src := 0xFFF, srcKind := unit - 4607
           dstKind := if fan then 0 else 3 }
    fan := if fan then some [] else none, since := s.now, issuer := unit, deadlineFull := lastDeadline }

/-- A multicast write of a port die, to be copied to every tile of its meadow (R185). -/
def State.mcast (s : State) (die g off : Nat) (data : Bytes) (counter : Option Nat) : State :=
  s.newPkt {
    h := { cls := 3, op := 5, meadow := g, addr := off, flow := 0x80, src := 0xFFF, srcKind := 1 + die
           length := ceilDiv data.length 64
           arg0 := data.length + (match counter with | some c => fld c 13 + fld 1 17 | none => 0) }
    data, fan := some [], since := s.now, issuer := 4608 + die, deadlineFull := lastDeadline }

/-! Consumption at a tile (R178, R335, R367). -/

/-- A tile's meadow is being reset, or the tile itself (R178, R335). -/
def State.resetting (s : State) (p : Nat) : Bool :=
  s.now < (s.tile p).resetUntil || (match (s.tile p).meadow with
    | some g => s.now < (s.job g).resetUntil
    | none => false)

/-- The status with which a tile refuses a packet, 0 where it takes it (R178, R286, R312, R367). -/
def State.consumeCheck (s : State) (p : Nat) (h : Header) : Nat :=
  let t := s.tile p
  let here := s.physAt h.epoch h.dst == p
  if !here then 0x07
  else if t.meadow ≠ some h.meadow then 0x08
  else if t.power.state = .t3 ∨ s.resetting p then 0x02
  else 0

/-- A tile takes a copied packet: it is of its meadow, and neither in T3 nor being reset (R178, R185). -/
def State.takesCopy (s : State) (p : Nat) (h : Header) : Bool :=
  (s.tile p).meadow == some h.meadow && (s.tile p).power.state != .t3 && !s.resetting p

/-- A request reaches a tile: in T2 its cistern and network interface wake (R367). -/
def Tile.served (t : Tile) (now : Nat) : Tile :=
  let t := { t with ni := { t.ni with lastServed := now } }
  match t.power.state with
  | .t2 => { t with power := { t.power with partWoken := true } }
  | .t0 => t
  | .t1 => t
  | .t3 => t

/-- A packet of the previous epoch stands at its tile's former place: it is forwarded, not acted on (R286). -/
def State.toForward (s : State) (k : Packet) : Bool :=
  k.target < 4608 && k.h.dstKind == 0 && (k.loc == .sink || k.loc == .head) && k.fan.isNone && k.h.cls != 5 &&
    (s.tile k.target).oldLogical == some k.h.dst && k.h.epoch != (s.ob Ob.route_epoch == 1)

/-- A packet stands at a port die and waits there for room (R220). -/
def State.waitsRoom (s : State) (k : Packet) : Bool := 4608 ≤ k.target && k.target < 4610 && s.lacksRoom (k.target - 4608) k

/-- A packet is the next of its class at the consumer where it stands: cisterns and port dies serve the least slack first (R129). -/
def State.nextAt (s : State) (n : Nat) (k : Packet) : Bool :=
  s.net.all fun x => match x.2 with
    | some m => x.1 == n || m.loc != .sink || m.target != k.target || m.h.cls != k.h.cls || s.toForward m || s.waitsRoom m ||
        s.urgent (n, k) (x.1, m)
    | none => true

/-- The packet of a number, where it stands at a sink and is the next to be acted on there. -/
def State.atSink (s : State) (n : Nat) : Option Packet :=
  match s.pkt n with
  | some k => if k.loc = .sink ∧ !s.toForward k ∧ s.nextAt n k then some k else none
  | none => none

/-- The bytes of a write's partly written words at its two ends hold an uncorrectable error (R103). -/
def Tile.edgePoison (t : Tile) (off len : Nat) : Bool :=
  (off % 8 != 0 && 2 ≤ t.poison off 1) || ((off + len) % 8 != 0 && 2 ≤ t.poison (off + len - 1) 1)

/-- A grouped write marks the ranges it overlaps (R229): a fill mark and the binding on each that is not yet bound to the
group; none where the tile has no free group slot. -/
def Tile.bindGroup (t : Tile) (grp off len : Nat) : Option Tile :=
  if !t.ni.groupSlots.contains grp ∧ 16 ≤ t.ni.groupSlots.length then none
  else
    let slots := if t.ni.groupSlots.contains grp then t.ni.groupSlots else t.ni.groupSlots ++ [grp]
    let t := { t with ni := { t.ni with groupSlots := slots } }
    some ((t.rangesAt off len).foldl (fun t r =>
      if (t.range r).groups.any fun g => g.1 == grp then t
      else
        let stamp := t.stamp + 1
        { t with stamp }.modRange r fun x =>
          { x with fills := x.fills ++ [stamp], groups := x.groups ++ [(grp, stamp)] }) t)

/-- A group's marks leave a tile: its ranges are Full, or Void with last abort 0x08 (R230, R231). -/
def Tile.endGroup (t : Tile) (grp : Nat) (abort : Bool) : Tile :=
  let t := (List.range 64).foldl (fun t r =>
    match (t.range r).groups.find? fun g => g.1 == grp with
    | some g => t.modRange r fun x =>
        { (x.endFill g.2 (if abort then 0x08 else 0)) with groups := x.groups.filter fun y => y.1 != grp }
    | none => t) t
  { t with ni := { t.ni with groupSlots := t.ni.groupSlots.filter (· != grp) } }

end Sys2Proof.Machine
end

