-- ==== Sys2Proof/Machine/Packets.lean ====
section
/-! DEFINITION. The commands of the packet plane at tiles and routers (R124 to R131, R162 to R180, R185, R189, R195, R196). -/

namespace Sys2Proof.Machine

/-! Sluices (R124 to R126). -/

/-- What a bucket gains and holds (R124): `rate` MB/s divided among `tiles`, up to `full` thousandths of a byte. -/
structure Share where
  rate : Nat
  tiles : Nat := 1
  full : Nat
  deriving DecidableEq, Repr

/-- A tile's own rate and burst. -/
def State.tileShare (s : State) (g : Nat) : Share :=
  { rate := s.obe Ob.sluice_tile_rate g, full := 1000 * s.obe Ob.sluice_tile_burst g }

/-- A tile's equal share of its meadow's rate and burst; of a meadow that states none, what a tile has of its own (R125). -/
def State.meadowShare (s : State) (g : Nat) : Share :=
  let tiles := max 1 (s.members g).length
  let own := s.tileShare g
  let mr := s.obe Ob.sluice_meadow_rate g
  let mb := s.obe Ob.sluice_meadow_burst g
  { rate := if mr = 0 then own.rate * tiles else mr, tiles, full := if mb = 0 then own.full else 1000 * mb / tiles }

/-- A port die's egress rate and burst for a meadow (R126). -/
def State.egressShare (s : State) (d g : Nat) : Share :=
  { rate := s.obe (if d = 0 then Ob.sluice_egress_w else Ob.sluice_egress_e) g, full := 1000 * s.obe Ob.sluice_egress_burst g }

/-- Thousandths of a byte that a share has gained in all at the `n`-th 64 ns multiple of fabric time. -/
def Share.gained (x : Share) (n : Nat) : Nat := x.rate * 64 * n / x.tiles

/-- A bucket after the refills from the `k`-th 64 ns multiple to the `n`-th, fractions carried. -/
def Share.refill (x : Share) (k n : Nat) (b : Int) : Int := min (b + (x.gained n - x.gained k : Nat)) (x.full : Int)

/-- A tile's buckets full (R124). -/
def State.fullSluice (s : State) (g : Nat) : Sluice :=
  { tile := ((s.tileShare g).full : Nat), meadow := ((s.meadowShare g).full : Nat) }

/-- The meadows that have a tile. -/
def State.meadows (s : State) : List Nat :=
  (List.range 256).filter fun g => (s.tiles.any fun x => x.2.meadow == some g)

/-- SLUICE_REFILL (R124): at each 64 ns multiple of fabric time since the last refill. -/
def execSluiceRefill (s : State) : Out :=
  let k := s.sluiceAt / 64
  let n := s.now / 64
  if n ≤ k then s.noEvent
  else
    let s1 := s.tiles.foldl (fun s x => match x.2.meadow with
      | some g => s.modTile x.1 fun t => { t with sluice := {
          tile := (s.tileShare g).refill k n t.sluice.tile, meadow := (s.meadowShare g).refill k n t.sluice.meadow } }
      | none => s) s
    let s2 := [0, 1].foldl (fun s d => s.meadows.foldl (fun s g => s.modDie d fun x =>
      { x with egress := x.egress.mod 0 g ((s.egressShare d g).refill k n) }) s) s1
    .next { s2 with sluiceAt := s.now }

/-- Flit bytes that a packet is charged, in thousandths: header and data, and for a read the reply's (R124). -/
def Packet.charge (k : Packet) : Nat :=
  64000 * (1 + k.h.length) + (if k.h.op = 1 ∧ k.h.cls = 0 then 64000 * (1 + ceilDiv k.want 64) else 0)

/-- The packets that wait at a unit's network interface: (number, packet). -/
def State.waitingAt (s : State) (unit : Nat) : List (Nat × Packet) :=
  s.net.filterMap fun x => match x.2 with
    | some k => if k.loc = .ni ∧ k.issuer = unit then some (x.1, k) else none
    | none => none

/-- A packet goes before another at an interface: the earlier deadline as it would be issued now, then the order of arrival (R124, R128,
R129). -/
def State.niBefore (s : State) (a b : Nat × Packet) : Bool :=
  let d (k : Packet) : Nat := max (s.now - 16384 * 64) (min (s.now + 16383 * 64) k.deadlineFull)
  if d a.2 ≠ d b.2 then decide (d a.2 < d b.2) else decide (a.1 < b.1)

/-- The reply space and trackers in use at a unit, and the READ that claims what frees (R174). -/
def State.replyState (s : State) (unit : Nat) : Nat × Nat × Option Nat :=
  if unit < 4608 then ((s.tile unit).ni.replyUsed, (s.tile unit).ni.trackers, (s.tile unit).ni.claim)
  else ((s.die (unit - 4608)).replyUsed, (s.die (unit - 4608)).trackers, (s.die (unit - 4608)).claim)

/-- Sets them. -/
def State.setReplyState (s : State) (unit used trackers : Nat) (claim : Option Nat) : State :=
  if unit < 4608 then s.modTile unit fun t => { t with ni := { t.ni with replyUsed := used, trackers, claim } }
  else s.modDie (unit - 4608) fun d => { d with replyUsed := used, trackers, claim }

/-- A READ that may leave its interface, and finds no reply space (R174). -/
def State.lacksSpace (s : State) (unit n : Nat) (k : Packet) : Bool :=
  let r := s.replyState unit
  0 < k.want && (4608 ≤ unit || k.admitted) && (32768 < r.1 + k.want || !(r.2.2 == none || r.2.2 == some n))

/-- Notes since when each READ of a unit has waited for reply space. -/
def State.spaceMarks (s : State) (unit : Nat) : State :=
  (s.waitingAt unit).foldl (fun s x =>
    s.setPkt x.1 { x.2 with spaceAt := if s.lacksSpace unit x.1 x.2 then some (x.2.spaceAt.getD s.now) else none }) s

/-- SLUICE_ADMIT (R124, R125): the packet with the earliest deadline is charged once both buckets hold more than zero; how long
it waited is counted. -/
def execSluiceAdmit (p : Phys) (n : PacketId) (s : State) : Out :=
  match s.pkt n with
  | some k =>
    let t := s.tile p
    let mine := k.loc == .ni && k.issuer == p.val && !k.admitted
    let first := (s.waitingAt p).all fun x => x.2.admitted || x.1 == n || s.niBefore (n, k) x
    if mine && first && 0 < t.sluice.tile && 0 < t.sluice.meadow then
      let c : Int := (k.charge : Nat)
      let wait := s.now - k.since
      let s1 := (s.setPkt n { k with admitted := true, since := s.now }).modTile p fun t =>
        let t := { t with sluice := { tile := t.sluice.tile - c, meadow := t.sluice.meadow - c } }
        if k.h.flow < 8 then t.modPump k.h.flow fun u => { u with sluiceWait := (u.sluiceWait + wait) % 2 ^ 64 } else t
      .next ((match t.meadow with
        | some g => s1.addObe Ob.sluice_wait g wait 64
        | none => s1).spaceMarks p)
    else s.noEvent
  | none => s.noEvent

/-! Issue (R160, R174). -/

/-- C5 requests of a unit that have left its interface and stand on the plane (R175). -/
def State.c5Outstanding (s : State) (unit : Nat) : Nat :=
  ((s.net.filterMap fun x => match x.2 with
    | some k => if k.h.cls = 5 ∧ k.issuer = unit ∧ k.loc ≠ .ni then some k.root else none
    | none => none).eraseDups).length

/-- A waiting request can be issued now (R124, R174, R175). -/
def State.issuable (s : State) (unit n : Nat) (k : Packet) : Bool :=
  if k.h.cls = 5 then s.c5Outstanding unit < 64
  else
    (4608 ≤ unit || k.admitted) &&
      (k.h.cls == 3 || ((s.replyState unit).2.1 < 256 && (k.want == 0 || !s.lacksSpace unit n k)))

/-- The destination of a request is no longer there: its logical tile is unplaced (R21, R107). The interface answers it 0x07 itself
(DESIGN CHOICE; log entry 48). -/
def State.noTarget (s : State) (k : Packet) : Bool :=
  k.fan.isNone && k.h.dstKind == 0 && !(s.physAt (s.epochBit k.issuer) k.h.dst < 4608)

/-- REQUEST_ISSUE (R171, R174, R175, R186): of a class's requests that can be issued the one with the least slack takes its tracker and
reply space and leaves the interface. -/
def execRequestIssue (n : PacketId) (s : State) : Out :=
  match s.pkt n with
  | some k =>
    if k.loc = .ni ∧ s.issuable k.issuer n k ∧
        (s.waitingAt k.issuer).all fun x =>
          x.1 == n || x.2.h.cls != k.h.cls || !s.issuable k.issuer x.1 x.2 || s.niBefore (n, k) x then
      let r := s.replyState k.issuer
      let s1 := if k.h.cls = 3 ∨ k.h.cls = 5 then s
        else s.setReplyState k.issuer (r.1 + k.want) (r.2.1 + 1)
          (if r.2.2 = some n then none else r.2.2)
      let k1 := { k with spaceAt := none, h := { k.h with deadline := deadlineField s.now k.deadlineFull } }
      .next ((if s.noTarget k then s1.answer n k1 k.issuer 0x07 0 else s1.launch n k1 k.issuer).spaceMarks k.issuer)
    else s.noEvent
  | none => s.noEvent

/-- READ_SPACE_CLAIM (R174): a READ has waited 256 cycles for reply space. -/
def execReadSpaceClaim (n : PacketId) (s : State) : Out :=
  match s.pkt n with
  | some k =>
    let r := s.replyState k.issuer
    let due : Bool := match k.spaceAt with
      | some t => decide (s.cycles k.issuer 256 ≤ s.now - t)
      | none => false
    if k.loc = .ni ∧ r.2.2 = none ∧ s.lacksSpace k.issuer n k ∧ due then
      .next ((s.setReplyState k.issuer r.1 r.2.1 (some n)).spaceMarks k.issuer)
    else s.noEvent
  | none => s.noEvent

/-! Routers (R164, R168 to R173, R182, R189). -/

/-- ROUTER_HEADER_ARRIVAL (R164, R168, R170 to R172, R182, R185): a header at the head of its channel. A malformed packet is discarded; a
packet whose output another goes before, or that finds no space, waits. -/
def execRouterHeaderArrival (n : PacketId) (s : State) : Out :=
  match s.pkt n with
  | some k => match k.loc with
    | .chan r _ _ =>
      let heads := s.routerHeads r
      if 6 ≤ k.h.cls ∨ 64 < k.h.length then
        .next ((((s.uncounted r k).dropPkt n).freed k).raise { kind := 0x0300, phys := r, unitClass := 1, meadow := k.h.meadow })
      else if !(heads.any fun x => x.1 == n) then s.noEvent
      else
        let k := if s.hop r k = .out 4 false then { k with h := { k.h with phase := true } } else k
        let s := s.setPkt n k
        let dir := s.wants r k
        let outranked := heads.any fun x =>
          x.1 != n && s.hop r x.2 != .wait && s.wants r x.2 == dir && s.before (s.router r).due dir x (n, k)
        match s.hop r k with
        | .wait => .next (s.routerLook r)
        | .deliver => if outranked then .next (s.routerLook r) else .next (s.deliver r n k)
        | .copy d => if outranked then .next (s.routerLook r) else .next (s.copyOut r n k (k.fan.getD []) d)
        | .out d esc => if outranked then .next (s.routerLook r) else .next (s.forward r n k d esc false)
    | _ => s.noEvent
  | none => s.noEvent

/-- ESCAPE_WAIT_EXPIRY (R170): no adaptive channel of the packet's mask has had space for `escape_wait` cycles, and the escape output's
channel has; at its destination's router that is the tile's own output. -/
def execEscapeWaitExpiry (n : PacketId) (s : State) : Out :=
  match s.pkt n with
  | some k => match k.loc, k.blockedAt with
    | .chan r _ false, some t =>
      let k1 := { k with h := { k.h with escaped := true, phase := true, interRow := k.h.routeRow, interCol := k.h.routeCol } }
      let dir := s.escapeOut k.h.epoch r k1.goal
      let first := (s.routerHeads r).any fun x => x.1 == n
      if !first ∨ s.now - t < s.cycles r (s.ob Ob.escape_wait) ∨ s.hop r k ≠ .wait then s.noEvent
      else if dir = 4 then if s.hop r k1 = .deliver then .next (s.deliver r n k1) else s.noEvent
      else if 0 < s.outSpace r dir k.h.cls true then .next (s.forward r n k1 dir true true)
      else s.noEvent
    | _, _ => s.noEvent
  | none => s.noEvent

/-- CLASS_WAIT_EXPIRY (R168): the packet's class has had a flit ready for its output for 256 cycles and is served there next. -/
def execClassWaitExpiry (n : PacketId) (s : State) : Out :=
  match s.pkt n with
  | some k => match k.loc with
    | .chan r _ _ =>
      let e := s.wants r k * 8 + k.h.cls
      let w := Tbl.get 0 (s.router r).waits e
      if (s.routerHeads r).any (fun x => x.1 == n) ∧ w ≠ 0 ∧ k.h.cls ≠ 5 ∧ !(s.router r).due.contains e ∧ s.cycles r 256 ≤ s.now + 1 - w then
        .next (s.modRouter r fun x => { x with due := x.due ++ [e] })
      else s.noEvent
    | _ => s.noEvent
  | none => s.noEvent

/-! Requests at a destination (R178 to R180, R185). -/

/-- Bytes asked for by a READ or written by a WRITE (R165). -/
def Header.bytes (h : Header) : Nat := bits h.arg0 12 0

/-- A host-form access at port die W (R106, R336). -/
def Packet.hostForm (k : Packet) : Bool := bits k.h.addr 63 60 == 3

/-- A page request that one port die forwards to the other; its address is a handle (R244). -/
def Packet.pageForward (k : Packet) : Bool :=
  4608 ≤ k.target && k.h.cls == 0 && k.h.srcKind != 0 && (k.h.op == 7 || k.h.op == 8)

/-- A request at a port die that none of its address forms takes (R106, R164). -/
def Packet.misplaced (k : Packet) : Bool :=
  4608 ≤ k.target && !k.pageForward && bits k.h.addr 63 60 != 3 && bits k.h.addr 63 60 != 4 &&
    !(bits k.h.addr 63 60 == 2 && k.h.cls == 0)

/-- An access to the result post aperture (R356). -/
def Packet.postAperture (k : Packet) : Bool := k.hostForm && bits k.h.addr 47 40 == 0xFF

/-- READ (R103, R112, R178, R367): at a tile, or in host form at port die W. A request of C0 or C1 with a reserved operation is
answered 0x0C (R164). -/
def execRead (n : PacketId) (s : State) : Out :=
  match s.atSink n with
  | some k =>
    if 1 < k.h.cls ∨ k.h.op = 2 ∨ k.pageForward then s.noEvent
    else if k.target < 4608 then
      let p := k.target
      let c := s.consumeCheck p k.h
      let off := bits k.h.addr 22 0
      if c ≠ 0 then .next (s.refuse n k p c)
      else
        let s := s.modTile p fun t => t.served s.now
        if k.h.op ≠ 1 then .next (s.refuse n k p 0x0C)
        else if cisternBytes s.variant < off + k.h.bytes then .next (s.answer n k p 0x01 0)
        else if 2 ≤ (s.tile p).poison off k.h.bytes then .next ((s.uncorrectable p off).answer n k p 0x03 0)
        else .next ((s.corrected p off k.h.bytes).reply n k p 0x10 0 0 (s.cisternRead p off k.h.bytes))
    else if k.hostForm then
      let a := bits k.h.addr 47 0
      if k.h.op ≠ 1 then .next (s.answer n k k.target 0x0C 0)
      else if k.postAperture ∨ !s.host.linkUp then .next (s.answer n k k.target 0x0A 0)
      else .next (s.reply n k k.target 0x10 0 0 (s.hostBytes a k.h.bytes))
    else if k.misplaced then .next (s.answer n k k.target 0x0C 0)
    else s.noEvent
  | none => s.noEvent

/-- WRITE (R178, R229, R345): at a tile, or in host form at port die W. -/
def execWrite (n : PacketId) (s : State) : Out :=
  match s.atSink n with
  | some k =>
    if 1 < k.h.cls ∨ k.h.op ≠ 2 then s.noEvent
    else if k.target < 4608 then
      let p := k.target
      let c := s.consumeCheck p k.h
      let off := bits k.h.addr 22 0
      let data := k.data.take k.h.bytes
      if c ≠ 0 then .next (s.refuse n k p c)
      else
        let s := s.modTile p fun t => t.served s.now
        if cisternBytes s.variant < off + data.length then .next (s.answer n k p 0x01 0)
        else if (s.tile p).edgePoison off data.length then .next ((s.uncorrectable p off).answer n k p 0x03 0)
        else
          let bound := if k.h.cls = 1 ∧ bit k.h.arg1 9 then (s.tile p).bindGroup (k.h.arg1 % 512) off data.length
            else some (s.tile p)
          match bound with
          | none => .next (s.answer n k p 0x0B 0)
          | some t' =>
            let s1 := s.setTile p t'
            let before := t'.ni.dups.length
            let s2 := s1.cisternWrite p off data
            let dups := (s2.tile p).ni.dups.drop before
            if dups = [] then .next (s2.answer n k p 0 0)
            else .next ((s2.owe n k).modTile p fun t =>
              { t with ni := { t.ni with owed := t.ni.owed ++ [{ request := n, dups }] } })
    else if k.hostForm && !k.postAperture then
      if !s.host.linkUp then .next (s.answer n k k.target 0x0A 0)
      else .next ((s.hostWrite (bits k.h.addr 47 0) (k.data.take k.h.bytes)).answer n k k.target 0 0)
    else if k.misplaced then .next (s.answer n k k.target 0x0C 0)
    else s.noEvent
  | none => s.noEvent

/-- MCAST_WRITE (R185): bytes at the header's local offset, and one for the counter it names. A C3 packet with another operation
at a tile is discarded (R164). -/
def execMcastWrite (n : PacketId) (s : State) : Out :=
  match s.atSink n with
  | some k =>
    if k.h.cls ≠ 3 ∨ 4608 ≤ k.target then s.noEvent
    else
      let p := k.target
      let off := bits k.h.addr 22 0
      let data := k.data.take k.h.bytes
      let s1 := s.consume n k
      if k.h.op ≠ 5 ∨ !s.takesCopy p k.h ∨ cisternBytes s.variant < off + data.length then
        .next s1
      else
        let s2 := s1.cisternWrite p off data
        .next ((if bit k.h.arg0 17 then s2.countUp p (bits k.h.arg0 16 13) else s2).settle p)
  | none => s.noEvent

/-! SENDs (R176, R178, R195, R196). -/

/-- A SEND's descriptors. -/
def Packet.descs (k : Packet) : List Nat := elemsOf 64 (k.data.length / 64) k.data

/-- The sender that a message carries: the logical tile, 0xFFF for a port die (R200, R201). -/
def Packet.sender (k : Packet) : Nat := if k.h.srcKind = 0 then k.h.src else 0xFFF

/-- Checks 3 to 8 of R195: the status, or none where the SEND waits for room. -/
def State.placeCheck (s : State) (p : Nat) (k : Packet) : Option Nat :=
  let w := (s.tile p).well (bits k.h.arg0 14 12)
  if k.h.arg1 ≤ s.now then some 0x0F
  else match w.state with
    | .closed => some 0x04
    | .resetting => some 0x05
    | .opened =>
      if w.gen ≠ bits k.h.arg0 23 16 then some 0x06
      else if wellEntries - w.entries < k.descs.length then none
      else some 0

/-- A completion that a unit or a pump holds fits a well (R94, R120, R197). -/
def Tile.completionFits (t : Tile) (w : Nat) : Bool :=
  let x := t.well w
  x.state == .opened && x.binding == 0 && x.entries < wellEntries &&
    ((t.tensor.held.toList ++ t.vector.held.toList ++ t.pumps.flatMap fun u => u.2.held.take 1).any fun c => c.well == some w)

/-- As `placeCheck`; a completion that can be placed in the same well goes before (R197). -/
def State.placeNow (s : State) (p : Nat) (k : Packet) : Option Nat :=
  if s.placeCheck p k = some 0 ∧ (s.tile p).completionFits (bits k.h.arg0 14 12) then none else s.placeCheck p k

/-- Answers a SEND at a tile with a status that check 3 to 8 gave: placed, or refused and counted (R191, R195). -/
def State.finishSend (s : State) (n p : Nat) (k : Packet) (st : Nat) : State :=
  let w := bits k.h.arg0 14 12
  let s1 := s.modTile p fun t => t.modWell w fun x =>
    if st = 0 then x.place s.now k.sender k.descs
    else if st = 0x0F then { x with expired := (x.expired + 1) % 65536 }
    else { x with refused := (x.refused + 1) % 65536 }
  let s2 := if st = 0 then s1.wakeTasks p else s1
  (s2.answer n k p st 0).settle p

/-- C4_SEND_ARRIVAL (R195). -/
def execC4SendArrival (n : PacketId) (s : State) : Out :=
  match s.atSink n with
  | some k =>
    let p := k.target
    if k.h.cls ≠ 4 ∨ 4608 ≤ p ∨ (s.tile p).ni.c4head.isSome then s.noEvent
    else
      let c := s.consumeCheck p k.h
      if c ≠ 0 then .next (s.refuse n k p c)
      else
        let s := s.modTile p fun t => t.served s.now
        if k.h.op ≠ 3 ∨ !wellOperandOk k.h.arg0 ∨ 4 < k.descs.length then .next (s.refuse n k p 0x0C)
        else match s.placeNow p k with
          | some st => .next (s.finishSend n p k st)
          | none => .next ((s.setPkt n { k with loc := .head, since := s.now }).modTile p fun t =>
              { t with ni := { t.ni with c4head := some n } })
  | none => s.noEvent

/-- The SEND at the head of a tile's C4 input. -/
def State.headSend (s : State) (p : Nat) : Option (Nat × Packet) :=
  match (s.tile p).ni.c4head with
  | some n => (s.pkt n).map fun k => (n, k)
  | none => none

/-- A waiting SEND leaves the head. -/
def State.leaveHead (s : State) (p : Nat) : State :=
  s.modTile p fun t => { t with ni := { t.ni with c4head := none } }

/-- SEND_PLACE (R196): the head SEND has room, or is refused because its well was closed or reset under it. -/
def execSendPlace (p : Phys) (s : State) : Out :=
  match s.headSend p with
  | some x => match s.placeNow p x.2 with
    | some st => if st = 0x0F then s.noEvent else .next ((s.leaveHead p).finishSend x.1 p x.2 st)
    | none => s.noEvent
  | none => s.noEvent

/-- SEND_EXPIRY (R176, R196). -/
def execSendExpiry (p : Phys) (s : State) : Out :=
  match s.headSend p with
  | some x => if s.placeCheck p x.2 = some 0x0F then .next ((s.leaveHead p).finishSend x.1 p x.2 0x0F) else s.noEvent
  | none => s.noEvent

/-! Notices (R152, R154, R165, R278). -/

/-- A tile's barrier completes (R73, R278): completed and generation advance, wake event [11], and the stalled tasks' result. -/
def State.barrierDone (s : State) (p b result : Nat) : State :=
  let s := s.modTile p fun t => (t.modBarrier b fun x =>
    { x with completed := (x.completed + 1) % 65536, gen := (x.gen + 1) % 256, arrivals := 0 }).latch 0x800
  let s := (List.range 16).foldl (fun s k =>
    let x := (s.tile p).task k
    match x.state, x.stall with
    | .stalled, some (.barrier n d) =>
      if n = b then
        (s.modTile p fun t => t.modTask k fun x =>
          { (x.setReg d (BitVec.ofNat 64 (if b = 15 then result else ((s.tile p).barrier b).completed))) with
            state := .ready, stall := none }).advance p k (waitWord (s.tile p) k)
      else s
    | _, _ => s) s
  (s.wakeTasks p).settle p

/-- The notice of a C5 packet's operation that has reached a unit, and the state without it; a tile that is not to take it discards it
(R178). -/
def State.noticed (s : State) (n op : Nat) : Option (Packet × Bool × State) :=
  match s.atSink n with
  | some k =>
    if k.h.cls ≠ 5 ∨ k.h.op ≠ op then none
    else some (k, decide (k.target < 4608) && s.takesCopy k.target k.h, s.consume n k)
  | none => none

/-- The steward has the quiet notice of a meadow (R154, R279, R370): the count that was full was of an END_STEP's drain, or a power
command's. -/
def State.quietReached (s : State) (g : Nat) : State :=
  (s.modJob g fun j => { j with drained := j.drained || j.quietStep, quietStep := false }).powerDrained g

/-- A C5 operation that is none of those that a notice carries. -/
def Header.strayC5 (h : Header) : Bool := h.cls == 5 && !(0x20 ≤ h.op && h.op ≤ 0x23)

/-- QUIET (R154, R278): argument 0 is 0 for the quiet notice, else 1 + the barrier that has completed. A C5 packet with another
operation than a notice has is discarded (R164). -/
def execQuiet (n : PacketId) (s : State) : Out :=
  match s.noticed n 0x21 with
  | some (k, here, s1) =>
    if k.target = stewardTarget then .next (s1.quietReached k.h.meadow)
    else if !here then .next s1
    else if k.h.arg0 = 0 then
      .next (s1.modTile k.target fun t => { t with stream := { t.stream with drainTok := none } })
    else .next (s1.barrierDone k.target (k.h.arg0 - 1) k.h.arg1)
  | none => match s.atSink n with
    | some k => if k.h.strayC5 then .next (s.consume n k) else s.noEvent
    | none => s.noEvent

/-- DRAIN (R152). -/
def execDrain (n : PacketId) (s : State) : Out :=
  match s.noticed n 0x22 with
  | some (k, here, s1) => .next (if here then s1.modTile k.target fun t => t.requestDrain s.now 5 0 else s1)
  | none => s.noEvent

/-- RESUME (R152, R165). -/
def execResume (n : PacketId) (s : State) : Out :=
  match s.noticed n 0x23 with
  | some (k, here, s1) =>
    .next (if here then ((s1.modTile k.target Tile.resumeGates).streamsGo k.target).settle k.target else s1)
  | none => s.noEvent

/-! Telemetry (R189). -/

/-- A router's counts up to now: the waits and the samples in progress. -/
def Router.upTo (x : Router) (now clock : Nat) : Router :=
  let want := x.waits.map (·.1)
  let x := (x.waiting now clock []).waiting now clock want
  x.occ.foldl (fun x o => x.sample now clock o.1 o.2.1) x

/-- PACKET_TELEMETRY_PUBLISH (R189): every 1 ms counts are published, and the histograms begin anew. -/
def execPacketTelemetryPublish (s : State) : Out :=
  if s.now - s.telemetry.packetAt < ms 1 then s.noEvent
  else
    let s := { s with telemetry := { s.telemetry with packetAt := s.now } }
    .next (s.routers.foldl (fun s x =>
      let r := x.2.upTo s.now (s.clockOf x.1)
      let s := (List.range 5).foldl (fun s port => (List.range 6).foldl (fun s cls =>
        let e := x.1 * 5 + port
        let i := port * 8 + cls
        let h := Tbl.get [] r.depth i
        (((s.putObe (Ob.pkt_flits0 + cls) e (Tbl.get 0 r.flits i)).putObe (Ob.pkt_stall0 + cls) e
          (Tbl.get 0 r.stalls i)).putObe (Ob.pkt_escape0 + cls) e (Tbl.get 0 r.escapes i)).putObe (Ob.pkt_depth0 + cls) e
          (leNat (h.flatMap fun v => toLE 4 v))) s) s
      s.modRouter x.1 fun _ => { r with depth := [] }) s)

end Sys2Proof.Machine
end

