-- ==== Sys2Proof/Machine/Wire.lean ====
section
/-! DEFINITION. The bytes of the frames that a port die puts on the wire (R9, R206, R207, R211, R237). What the standards leave to a
sender (flow label, hop limit, identification, the MAC address of a next hop) and the frame check sequence are free values (log entry
54). -/

namespace Sys2Proof.Machine

/-- `n` bytes of a number, most significant first, as the standards' own fields stand. -/
def toBE (n v : Nat) : Bytes := (toLE n v).reverse

/-- The sum of bytes taken in pairs, the first of a pair its high half; an odd one is filled with zero. -/
def pairSum : Bytes → Nat
  | hi :: lo :: rest => 256 * hi.toNat + lo.toNat + pairSum rest
  | [last] => 256 * last.toNat
  | [] => 0

/-- The complement of that sum in ones' complement, as IP, ICMP and UDP carry it. -/
def checksum (bs : Bytes) : Nat := (65535 - pairSum bs % 65535) % 65535

/-- A 16 B address block is an IPv4 address in IPv6 form (R206). -/
def isV4 (a : Nat) : Bool := a % 2 ^ 80 == 0 && bits a 95 80 == 0xFFFF

/-- The 16 B block of an IPv4 address. -/
def v4Block (a : Nat) : Nat := fld 0xFFFF 80 + fld (leNat (toBE 4 a)) 96

/-- The bytes of an address as its protocol's header holds them. -/
def addrBytes (a : Nat) : Bytes := if isV4 a then (toLE 16 a).drop 12 else toLE 16 a

/-- A sub-port's own address of the family of another (R203, R206). -/
def State.ownAddr (s : State) (sp a : Nat) : Nat :=
  if isV4 a then v4Block (s.obe Ob.port_ipv4 sp) else s.obe Ob.port_ipv6 sp

/-- The MAC address that a packet for an address goes to: that of the gateway, or of a peer on the link (R206). -/
def State.nextHop (s : State) (sp a : Nat) : Nat :=
  let via := s.obe Ob.port_gateway sp
  Config.nextHopMac sp (if via = 0 then a else via) % 2 ^ 48

/-- An Ethernet frame of a sub-port (R211): with `tagged` it carries the 802.1Q tag of `port_vlan`, where that is not zero. -/
def State.ether (s : State) (sp dst type : Nat) (tagged : Bool) (body : Bytes) : Bytes :=
  let v := s.obe Ob.port_vlan sp
  let tag := if tagged ∧ v ≠ 0 then toBE 2 0x8100 ++ toBE 2 (bits v 11 0 + fld (bits v 14 12) 13) else []
  let frame := toBE 6 dst ++ toBE 6 (s.obe Ob.port_mac sp) ++ tag ++ toBE 2 type ++ body
  frame ++ toLE 4 (Config.frameCheck frame).toNat

/-- An IP packet (R211): IPv6 with no extension headers, or IPv4 with DF set and no options. -/
def State.ipPacket (s : State) (sp tos proto dst : Nat) (body : Bytes) : Bytes :=
  let hops := Config.freeNat "hop limit" s.free
  if isV4 dst then
    let ends := addrBytes (s.ownAddr sp dst) ++ addrBytes dst
    let front := toBE 1 0x45 ++ toBE 1 tos ++ toBE 2 (20 + body.length) ++ toBE 2 (Config.freeNat "identification" s.free) ++
      toBE 2 0x4000 ++ toBE 1 hops ++ toBE 1 proto
    front ++ toBE 2 (checksum (front ++ ends)) ++ ends ++ body
  else
    toBE 4 (fld 6 28 + fld tos 20 + Config.freeNat "flow label" s.free % 2 ^ 20) ++ toBE 2 body.length ++ toBE 1 proto ++
      toBE 1 hops ++ addrBytes (s.ownAddr sp dst) ++ addrBytes dst ++ body

/-- The pseudo-header that UDP's and ICMPv6's checksums cover. -/
def State.pseudo (s : State) (sp proto dst len : Nat) : Bytes :=
  addrBytes (s.ownAddr sp dst) ++ addrBytes dst ++ toBE 4 len ++ toBE 4 proto

/-- A UDP datagram, its checksum computed (R211). -/
def State.udp (s : State) (sp srcPort dstPort dst : Nat) (body : Bytes) : Bytes :=
  let front := toBE 2 srcPort ++ toBE 2 dstPort ++ toBE 2 (8 + body.length)
  let sum := checksum (s.pseudo sp 17 dst (8 + body.length) ++ front ++ body)
  front ++ toBE 2 (if sum = 0 then 0xFFFF else sum) ++ body

/-- An ICMP or ICMPv6 message of a type, by the family of the address it goes to; `body` follows the checksum. -/
def State.icmp (s : State) (sp type4 type6 dst : Nat) (body : Bytes) : Bytes :=
  if isV4 dst then
    let front := toBE 1 type4 ++ toBE 1 0
    s.ipPacket sp 0 1 dst (front ++ toBE 2 (checksum (front ++ body)) ++ body)
  else
    let front := toBE 1 type6 ++ toBE 1 0
    let sum := checksum (s.pseudo sp 58 dst (4 + body.length) ++ front ++ body)
    s.ipPacket sp 0 58 dst (front ++ toBE 2 sum ++ body)

/-- The type that Ethernet gives the family of an address. -/
def etherType (a : Nat) : Nat := if isV4 a then 0x0800 else 0x86DD

/-- The Trashandi header of a frame (R211): 64 B, little-endian; the sequence stands in data frames only. -/
def frameHeader (f : Frame) : Bytes :=
  toLE 64 (f.version + fld f.kind 4 + fld f.space 8 + fld (b2n f.ceEcho) 10 + fld (b2n f.retx) 11 + fld f.op 16 + fld f.status 24 +
    fld f.dstRole 32 + fld f.dstEpoch 48 + fld f.srcRole 64 + fld f.srcEpoch 80 + fld (if f.kind = 0 then f.seq else 0) 96 +
    fld f.payloadLen 128 + fld f.winIndex 144 + fld f.winGen 156 + fld f.offset 160 + fld f.id 200 + fld f.answered 232 +
    fld f.count 264 + fld f.type 281 + fld f.groupBytes 288 + fld f.sendTime 320 + fld f.cumulative 384 + fld f.sack 416)

/-- The UDP port of Trashandi (R211). -/
def trashandiPort : Nat := 47290

/-- A Trashandi frame as it stands on the wire of a sub-port (R211): its DSCP from `port_dscp`, its ECN field ECT(0). -/
def State.frameBytes (s : State) (sp : Nat) (f : Frame) : Bytes :=
  s.ether sp (s.nextHop sp f.addr) (etherType f.addr) true
    (s.ipPacket sp (fld (s.ob Ob.port_dscp) 2 + 2) 17 f.addr (s.udp sp f.port trashandiPort f.addr (frameHeader f ++ f.payload)))

end Sys2Proof.Machine
end

