-- ==== Sys2Proof/Machine/PortOps.lean ====
section
/-! DEFINITION. The port dies' operations (R203 to R237): sub-ports, endpoints and peers, frames and sequence spaces, the inbound
checks, requests to peers and into the mesh, write groups, reduction entries. -/

namespace Sys2Proof.Machine

/-! Sub-ports (R203, R205). -/

/-- The port die of a sub-port (R2). -/
def dieOfSub (sp : Nat) : Nat := sp / 128

/-- A sub-port is up: states 2 to 4 of R206. -/
def State.subUp (s : State) (sp : Nat) : Bool :=
  let x := s.obe Ob.port_state sp
  2 ≤ x && x ≤ 4

/-- The sub-ports of a die that are up. -/
def State.upSubs (s : State) (d : Nat) : List Nat :=
  ((List.range 128).map (· + 128 * d)).filter s.subUp

/-- Adds to U64 field `i` of a sub-port's `port_counts`: 0 frames in, 1 frames out, 2 corrected and 3 uncorrectable codewords, 4
drops of unknown type, 5 UDP checksum, 6 bad version, 7 bad kind, 8 too long, 9 PAUSE and PFC (log entry 14). -/
def State.countPort (s : State) (sp i : Nat) : State := s.addRec Ob.port_counts sp i 1

/-- Adds to U64 field `i` of a peer's `peer_counts`: 0 sent, 1 received, 2 retransmissions, 3 drops, 4 CE echoes, 5 + r NACKs
with reason r below 32 (log entry 14). -/
def State.countPeer (s : State) (peer i : Nat) : State := s.addRec Ob.peer_counts peer i 1

/-! Endpoints and peers (R208, R209, R236). -/

/-- A peer entry is bound (R209). -/
def State.bound (s : State) (peer : Nat) : Bool := s.obe Ob.peer_endpoint peer % 65536 != 0xFFFF

/-- The bound peers homed on a die. -/
def State.peersOf (s : State) (d : Nat) : List Nat :=
  (List.range 4096).filter fun i => s.bound i && s.obe Ob.peer_home i == d

/-- The peer of an endpoint, homed on a die (R209). -/
def State.findPeer (s : State) (d role epoch : Nat) : Option Nat :=
  (s.peersOf d).find? fun i => s.obe Ob.peer_endpoint i == role + fld epoch 16

/-- The meadow bound to an endpoint (R208). -/
def State.endpointMeadow (s : State) (role epoch : Nat) : Option Nat :=
  if role = 0xFFFF then none
  else (List.range 256).find? fun g => s.obe Ob.role_id g == role && s.obe Ob.role_epoch g == epoch

/-- The fence entry that a source endpoint falls under (R236). -/
def State.fenceOf (s : State) (role epoch : Nat) : Option Nat :=
  (List.range 256).find? fun e =>
    let v := s.obe Ob.fence_role e
    v % 65536 != 0xFFFF && v % 65536 == role && epoch < bits v 31 16

/-- A peer stands under a fence. -/
def State.peerFenced (s : State) (peer : Nat) : Bool :=
  let v := s.obe Ob.peer_endpoint peer
  (s.fenceOf (v % 65536) (bits v 31 16)).isSome

/-- What a port die holds of a peer. -/
def State.peer (s : State) (d i : Nat) : PeerSt := Tbl.get {} (s.die d).peers i

/-- Changes it. -/
def State.modPeer (s : State) (d i : Nat) (f : PeerSt → PeerSt) : State :=
  s.modDie d fun x => { x with peers := x.peers.mod {} i f }

/-- A sequence space. -/
def PeerSt.space (x : PeerSt) (sp : Nat) : SeqSpace := Tbl.get {} x.spaces sp

/-- Changes a sequence space. -/
def PeerSt.modSpace (x : PeerSt) (sp : Nat) (f : SeqSpace → SeqSpace) : PeerSt :=
  { x with spaces := x.spaces.mod {} sp f }

/-! Frames (R211). -/

/-- An empty frame of a kind. -/
def blankFrame (d : Nat) (kind : Nat) : Frame where
  die := if d = 0 then 0 else 1
  subPort := 0
  ce := false
  version := 1
  kind := kind
  space := 0
  ceEcho := false
  retx := false
  op := 0
  status := 0
  dstRole := 0
  dstEpoch := 0
  srcRole := 0
  srcEpoch := 0
  seq := 0
  payloadLen := 0
  winIndex := 0
  winGen := 0
  offset := 0
  id := 0
  answered := 0
  count := 0
  type := 0
  groupBytes := 0
  sendTime := 0
  cumulative := 0
  sack := 0
  payload := []

/-- A space number as a frame's field. -/
def spaceOf (n : Nat) : Space := if n = 1 then 1 else if n = 2 then 2 else if n = 3 then 3 else 0

/-- A sub-port number as a frame's field. -/
def subOf (n : Nat) : SubPort := ⟨n % 256, Nat.mod_lt _ (by decide)⟩

/-- The rate of a sub-port that is up, in units of 100 Gb/s (R203, R205). -/
def State.subRate (s : State) (sp : Nat) : Nat :=
  let mode := s.obe Ob.port_mode (sp / 8)
  if mode = 3 then 1 else if mode = 2 ∨ s.obe Ob.port_state sp ≠ 2 then 4 else 8

/-- A sub-port for a packet, drawn among the die's sub-ports that are up in proportion to their rates, another than `avoid` where there is
one (R215, R218). -/
def State.drawSub (s : State) (d : Nat) (avoid : Option Nat) : Option Nat :=
  let up := s.upSubs d
  let subs := match avoid with
    | some a => if up.any (· != a) then up.filter (· != a) else up
    | none => up
  let shares := subs.flatMap fun sp => List.replicate (s.subRate sp) sp
  if shares = [] then none else some (shares.getD (s.freeVal 16 % shares.length) 0)

/-- A source port for a packet to a peer: 0xC000 and an entropy value, neither barred (R218) nor the one to be avoided. -/
def State.drawPort (s : State) (x : PeerSt) (avoid : Nat) : Nat :=
  let from_ := s.freeVal 14
  let free (p : Nat) : Bool := p != avoid && !x.barred.any fun b => b.1 == p && s.now - b.2 < ms 1
  ((((List.range 16384).map fun i => 0xC000 + (from_ + i) % 16384).find? free).getD (0xC000 + from_ % 16384))

/-- Source ports are not to be used again for 1 ms (R218); those whose time is over are forgotten. -/
def PeerSt.bar (x : PeerSt) (now : Nat) (ports : List Nat) : PeerSt :=
  { x with barred := (x.barred.filter fun b => now - b.2 < ms 1) ++ ports.map fun p => (p, now) }

/-- The addresses of a peer, unused entries left out (R210). -/
def State.peerAddrs (s : State) (peer : Nat) : List Nat :=
  let block := s.obe Ob.peer_addr peer
  ((List.range 16).map fun i => bits block (128 * i + 127) (128 * i)).filter (· != 0)

/-- Directs a frame to a peer: the next of its addresses in rotation, and a source port (R218). -/
def State.direct (s : State) (d peer avoid : Nat) (f : Frame) : Frame :=
  let x := s.peer d peer
  let xs := s.peerAddrs peer
  { f with addr := xs.getD (x.addrNext % max 1 xs.length) 0, port := s.drawPort x avoid }

/-- Puts a frame on the wire of a sub-port; with none it goes nowhere. Its send time is now, an ACK's that of the newest packet
it covers. -/
def State.wire (s : State) (d : Nat) (sub : Option Nat) (f : Frame) : State :=
  match sub with
  | none => s
  | some sp =>
    let f := { f with subPort := subOf sp, sendTime := if f.kind = 1 then f.sendTime else s.now }
    ((s.drew).countPort sp 1).modDie d fun x =>
      { x with frames := x.frames ++ [f], wires := x.wires ++ [s.frameBytes sp f] }

/-- Sends a frame through a sub-port drawn among those that are up. -/
def State.transmit (s : State) (d : Nat) (f : Frame) : State := s.wire d (s.drawSub d none) f

/-- The source port and the address that a peer's newest packet took are noted. -/
def State.directed (s : State) (d peer : Nat) (f : Frame) : State :=
  s.modPeer d peer fun x => { x with addrNext := (x.addrNext + 1) % 16, lastPort := f.port }

/-- Sends an unsequenced frame to a peer, on another source port than its newest packet's (R210, R214). -/
def State.transmitTo (s : State) (d peer : Nat) (f : Frame) : State :=
  let f := s.direct d peer (s.peer d peer).lastPort f
  (s.directed d peer f).transmit d f

/-- Addresses a frame from a meadow's endpoint to a peer's. -/
def State.address (s : State) (g peer : Nat) (f : Frame) : Frame :=
  let v := s.obe Ob.peer_endpoint peer
  { f with srcRole := s.obe Ob.role_id g, srcEpoch := s.obe Ob.role_epoch g, dstRole := v % 65536, dstEpoch := bits v 31 16 }

/-- Payload bytes in flight to a peer, over its spaces. -/
def PeerSt.inFlight (x : PeerSt) : Nat :=
  (x.spaces.map fun e => (e.2.unacked.map fun u => u.frame.payload.length).foldl (· + ·) 0).foldl (· + ·) 0

/-- A data packet must wait: 4,096 of its space are unacknowledged, or the congestion window is full (R213, R218). -/
def PeerSt.mustHold (x : PeerSt) (sp len : Nat) : Bool :=
  4096 ≤ (x.space sp).unacked.length || (0 < x.inFlight && x.cwnd < x.inFlight + len)

/-- Puts a data packet on the wire: the next sequence, kept until it is acknowledged (R213, R215, R218). -/
def State.putOn (s : State) (d peer sp : Nat) (f : Frame) : State :=
  let y := (s.peer d peer).space sp
  let sub := s.drawSub d none
  let f := { s.direct d peer 0 f with seq := y.txNext, subPort := subOf (sub.getD 0) }
  let u : TxPkt := { seq := y.txNext, frame := f, sentAt := s.now, timeout := us (s.ob Ob.rto_base) }
  let s := (s.modPeer d peer fun x =>
    x.modSpace sp fun y => { y with txNext := (y.txNext + 1) % 2 ^ 32, unacked := y.unacked ++ [u] }).directed d peer f
  (s.countPeer peer 0).wire d sub f

/-- Sends a data packet to a peer in a space, behind those held; it is held where it must wait. -/
def State.sendData (s : State) (d peer sp : Nat) (f : Frame) : State :=
  let x := s.peer d peer
  let f := { f with kind := 0, space := spaceOf sp, payloadLen := f.payload.length }
  if (x.space sp).held ≠ [] ∨ x.mustHold sp f.payload.length then
    s.modPeer d peer fun x => x.modSpace sp fun y => { y with held := y.held ++ [f] }
  else s.putOn d peer sp f

/-- Sends the held packets of a space that the windows now admit. -/
def State.sendHeld (s : State) (d peer sp : Nat) : Nat → State
  | 0 => s
  | n + 1 =>
    let x := s.peer d peer
    match (x.space sp).held with
    | [] => s
    | f :: fs =>
      if x.mustHold sp f.payload.length then s
      else ((s.modPeer d peer fun x => x.modSpace sp fun y => { y with held := fs }).putOn d peer sp f).sendHeld d peer sp n

/-- The bytes of data that a request's reply brings: READ's and page READ's, an ATTEND's partial records (R212, R245). -/
def State.replyData (s : State) (g : Nat) (f : Frame) : Nat :=
  if f.op = 2 then f.count
  else if f.op ≠ 7 then 0
  else if bits f.id 27 24 = 1 then (f.type + 1) * (8 + 4 * s.obe Ob.page_head_width g) else 4096

/-- Sends a request to a peer and keeps it until its reply (R216): the sequence it takes is the next of its space, those held
before it included. -/
def State.sendRequest (s : State) (d peer sp g : Nat) (why : OutWhy) (group : Option Nat) (f : Frame) : State :=
  let y := (s.peer d peer).space sp
  let seq := (y.txNext + y.held.length) % 2 ^ 32
  let s := s.modDie d fun x => { x with outReqs := x.outReqs ++ [{ peer, space := sp, seq, op := f.op, why, group, meadow := g, want := s.replyData g f }] }
  s.sendData d peer sp (s.address g peer f)

/-- The space of a reply to a request of a space (R212). -/
def replySpaceOf (sp : Nat) : Nat := if sp = 3 then 3 else 1

/-- Answers a peer's request with a frame: the outcome is recorded and the reply sent as a data packet (R212, R216, R217). -/
def State.sendReply (s : State) (d peer sp seq : Nat) (f : Frame) : State :=
  let s := s.modPeer d peer fun x => { x with
    outcomes := (x.outcomes.filter fun o => !(o.space == sp && o.seq == seq) &&
      (o.space != sp || (seq + 2 ^ 32 - o.seq) % 2 ^ 32 ≤ 4096 || 2 ^ 31 ≤ (seq + 2 ^ 32 - o.seq) % 2 ^ 32)) ++
      [{ space := sp, seq, reply := some f }] }
  s.sendData d peer (replySpaceOf sp) f

/-- Answers a peer's request from a meadow's endpoint. -/
def State.peerReply (s : State) (d peer g sp seq op status : Nat) (payload : Bytes) : State :=
  s.sendReply d peer sp seq
    (s.address g peer { blankFrame d 0 with op := 0x80 + op, status, answered := seq, payload })

/-- Answers a peer's request from the endpoint it named. -/
def State.replyTo (s : State) (peer : Nat) (f : Frame) (status : Nat) (payload : Bytes) : State :=
  s.sendReply f.die.val peer f.space f.seq { blankFrame f.die.val 0 with
    op := 0x80 + f.op % 128, status, answered := f.seq, payload,
    dstRole := f.srcRole, dstEpoch := f.srcEpoch, srcRole := f.dstRole, srcEpoch := f.dstEpoch }

/-- Sends an ACK of a space (R214): everything received so far. -/
def State.sendAck (s : State) (d peer sp : Nat) : State :=
  let y := (s.peer d peer).space sp
  let sack := y.rxSet.foldl (fun m q =>
    let i := (q + 2 ^ 32 - (y.rxCum + 1)) % 2 ^ 32
    if i < 64 then m ||| 2 ^ i else m) 0
  let v := s.obe Ob.peer_endpoint peer
  let f := { blankFrame d 1 with
    space := spaceOf sp, ceEcho := y.rxCe, cumulative := y.rxCum, sack, sendTime := y.rxSendTime,
    dstRole := v % 65536, dstEpoch := bits v 31 16, srcRole := y.rxDst % 65536, srcEpoch := bits y.rxDst 31 16 }
  (s.transmitTo d peer f).modPeer d peer fun x => x.modSpace sp fun y => { y with rxSinceAck := 0, rxCe := false }

/-- Sequence `seq` has been received: the cumulative count passes everything that is now in order. -/
def SeqSpace.advance (y : SeqSpace) : Nat → SeqSpace
  | 0 => y
  | n + 1 =>
    if y.rxSet.contains y.rxCum then
      ({ y with rxSet := y.rxSet.filter (· != y.rxCum), rxCum := (y.rxCum + 1) % 2 ^ 32 }).advance n
    else y

/-- Takes up a data packet's sequence (R213, R214). -/
def SeqSpace.receive (y : SeqSpace) (now seq sendTime dst : Nat) (ce : Bool) : SeqSpace :=
  let y := { y with
    rxSet := if y.rxSet.contains seq then y.rxSet else y.rxSet ++ [seq]
    rxFirstAt := if y.rxSinceAck = 0 then now else y.rxFirstAt
    rxSinceAck := y.rxSinceAck + 1, rxCe := y.rxCe || ce, rxSendTime := sendTime, rxDst := dst }
  y.advance (y.rxSet.length + 1)

/-- A sequence has been received before. -/
def SeqSpace.has (y : SeqSpace) (seq : Nat) : Bool :=
  y.rxSet.contains seq || 2 ^ 31 ≤ (seq + 2 ^ 32 - y.rxCum) % 2 ^ 32

/-- What becomes of an arriving frame before its own meaning (R206, R209 to R217, R236). `gone`: nothing further happens. -/
inductive Inbound where
  | noFrame
  | gone (s : State)
  | taken (s : State) (peer : Nat)

/-- A packet of any kind from a peer (R210): it has been heard, and an unreachable peer is up again. -/
def State.heard (s : State) (d peer : Nat) : State :=
  let s := (s.modPeer d peer fun x => { x with lastHeard := s.now }).countPeer peer 1
  if s.obe Ob.peer_state peer = 2 then s.putObe Ob.peer_state peer 1 else s

/-- An arriving frame up to its own meaning: the port is up; version and kind are those of the event; a source under a fence is
dropped and counted; a source that is no peer of the die is answered 0x07, with no sequence; a data packet beyond the window is
dropped; a duplicate is answered from the record, but a READ is acted on again (R209, R213, R217, R236). In recovery mode every packet
but the recovery endpoint's DICT is dropped (R385). -/
def State.inbound (s : State) (f : Frame) (kind : Nat) : Inbound :=
  let d := f.die.val
  if !(s.subUp f.subPort) ∨ dieOfSub f.subPort ≠ d ∨ f.version ≠ 1 ∨ f.kind ≠ kind then .noFrame
  else
    let s := s.countPort f.subPort 0
    if s.boot.steward = .recovery then .gone s
    else match s.fenceOf f.srcRole f.srcEpoch with
    | some e => .gone (s.addObe Ob.fence_drops e 1 64)
    | none => match s.findPeer d f.srcRole f.srcEpoch with
      | none =>
        if kind = 0 then
          .gone (s.transmit d { blankFrame d 0 with
            space := spaceOf (replySpaceOf f.space), op := 0x80 + f.op % 128, status := 0x07, answered := f.seq,
            addr := f.addr, port := s.drawPort {} 0, dstRole := f.srcRole, dstEpoch := f.srcEpoch, srcRole := f.dstRole, srcEpoch := f.dstEpoch })
        else .gone s
      | some i =>
        let s := s.heard d i
        if kind ≠ 0 then .taken s i
        else
          let y := (s.peer d i).space f.space
          let ahead := (f.seq + 2 ^ 32 - y.rxCum) % 2 ^ 32
          if 4096 ≤ ahead ∧ ahead < 2 ^ 31 then .gone (s.countPeer i 3)
          else
            let dup := y.has f.seq
            let s := s.modPeer d i fun x => x.modSpace f.space fun y => y.receive s.now f.seq f.sendTime (f.dstRole + fld f.dstEpoch 16) f.ce
            let s := if 16 ≤ ((s.peer d i).space f.space).rxSinceAck then s.sendAck d i f.space else s
            if dup ∧ f.op ≠ 2 then
              match (s.peer d i).outcomes.find? fun o => o.space == f.space.val && o.seq == f.seq with
              | some { reply := some r, .. } => .gone (s.sendData d i (replySpaceOf f.space) r)
              | _ => .gone s
            else if 0x80 ≤ f.op then .taken s i
            else .taken (s.modPeer d i fun x =>
              { x with outcomes := x.outcomes ++ [{ space := f.space, seq := f.seq, reply := none }] }) i

/-! The inbound checks (R223, R335). -/

/-- The meadow that a data packet is for (R223 check 1): its endpoint is bound. -/
def State.dstMeadow (s : State) (f : Frame) : Option Nat := s.endpointMeadow f.dstRole f.dstEpoch

/-- An inbound window's reason for refusing an operation, 0 where it takes it: checks 4 to 8 of R223; `perm` is the bit of
win_perm that the operation needs. -/
def State.windowCheck (s : State) (g peer perm : Nat) (f : Frame) (len : Nat) : Nat :=
  let w := f.winIndex
  if s.obe Ob.win_kind w ≠ 1 ∨ s.obe Ob.win_meadow w ≠ g ∨ s.obe Ob.win_state w ≠ 1 then 0x01
  else if s.obe Ob.win_gen w ≠ f.winGen then 0x02
  else if !bit (s.obe Ob.win_peers w) peer then 0x04
  else if !bit (s.obe Ob.win_perm w) perm then 0x05
  else if s.obe Ob.win_length w < f.offset + len then 0x03
  else 0

/-- The inbound buffer's capacity in bytes (R219). -/
def inboundBuffer : Nat := 32 * 1024 * 1024

/-! Mesh requests of a port die (R174, R224). -/

/-- The next key of a port die's work. -/
def State.newJob (s : State) (d : Nat) (j : DieJob) : Nat × State :=
  ((s.die d).nextJob, s.modDie d fun x =>
    { x with jobs := x.jobs.put none x.nextJob (some j), nextJob := x.nextJob + 1 })

/-- Work of a port die. -/
def State.dieJob (s : State) (d key : Nat) : Option DieJob := Tbl.get none (s.die d).jobs key

/-- A request of a port die into the mesh, waiting at its interface: the work's key is its tag; a read's offset within the
work is kept. -/
def State.dieRequest (s : State) (d cls op g dst dstKind addr arg0 arg1 tag landing want deadline : Nat) (data : Bytes) :
    State :=
  let seq := Tbl.get 0 (s.die d).seqs 0x80
  let s := s.modDie d fun x => { x with seqs := x.seqs.put 0 0x80 ((seq + 1) % 65536) }
  s.newPkt {
    h := { cls, op, meadow := g, flow := 0x80, seq, dst, dstKind, src := 0xFFF, srcKind := 1 + d, addr, arg0, arg1, tag,
           length := ceilDiv data.length 64 }
    data, since := s.now, issuer := 4608 + d, deadlineFull := deadline, landing, want }

/-- The pieces of an extent of a meadow's memory at a local-form or spread-form base: (logical tile, offset, place, bytes), cut at
4 KiB of the translated address (R107, R224). -/
def State.meshPieces (s : State) (g base len : Nat) : List (Nat × Nat × Nat × Nat) :=
  (pieces (base % 4096) len).filterMap fun pc =>
    if bits base 63 60 = 0 then some (bits base 47 36, bits base 22 0 + pc.1, pc.1, pc.2)
    else (s.spread g (bits base 39 0 + pc.1)).map fun x => (x.1, x.2, pc.1, pc.2)

/-- An address in local or spread form, the bits that these leave zero being zero (R106). -/
def meadowForm (a : Nat) : Bool :=
  (bits a 63 60 == 0 && bits a 59 48 == 0 && bits a 35 23 == 0) || (bits a 63 60 == 1 && bits a 59 40 == 0)

/-- The number of an extent's pieces, where the whole of it lies in the meadow; 0 where the address is refused (R106, R107). -/
def State.meshParts (s : State) (g base len : Nat) : Nat :=
  let m := (s.meshPieces g base len).length
  if meadowForm base ∧ m = (pieces (base % 4096) len).length then m else 0

/-- Writes bytes into a meadow by C1 WRITEs that a work waits for; the number of packets. -/
def State.meshWrite (s : State) (d g base key arg1 : Nat) (bs : Bytes) : State :=
  (s.meshPieces g base bs.length).foldl (fun s x =>
    s.dieRequest d 1 0x02 g x.1 0 (mkLoc x.1 x.2.1) x.2.2.2 arg1 key 0 0 lastDeadline
      ((bs.drop x.2.2.1).take x.2.2.2)) s

/-- Reads bytes of a meadow by C1 READs that a work waits for. -/
def State.meshRead (s : State) (d g base key len : Nat) : State :=
  (s.meshPieces g base len).foldl (fun s x =>
    s.dieRequest d 1 0x01 g x.1 0 (mkLoc x.1 x.2.1) x.2.2.2 0 key x.2.2.1 x.2.2.2 lastDeadline []) s

/-! Inbound write groups (R229 to R231). -/

/-- An inbound group entry. -/
def State.inGroup (s : State) (d e : Nat) : Option InGroup := Tbl.get none (s.die d).inGroups e

/-- Sets an inbound group entry. -/
def State.setInGroup (s : State) (d e : Nat) (x : Option InGroup) : State :=
  s.modDie d fun y => { y with inGroups := y.inGroups.put none e x }

/-- The entry of a peer's group. -/
def State.findGroup (s : State) (d peer id : Nat) : Option Nat :=
  ((s.die d).inGroups.find? fun x => match x.2 with
    | some y => y.peer == peer && y.id == id
    | none => false).map (·.1)

/-- A group entry's number as tiles know it (R229): entry in [7:0], die in [8]. -/
def groupNumber (d e : Nat) : Nat := e + 256 * d

/-- Ends a group at every tile it touched (R230, R231). -/
def State.endGroupTiles (s : State) (d e : Nat) (x : InGroup) (abort : Bool) : State :=
  x.tiles.foldl (fun s l =>
    let p := s.physOf l
    (s.modTile p fun t => t.endGroup (groupNumber d e) abort).wakeTasks p) s

/-- The meadow of a window. -/
def State.windowMeadow (s : State) (w : Nat) : Nat := s.obe Ob.win_meadow w

/-- Aborts a group (R231): its ranges become Void, a waiting GROUP_COMMIT is answered 0x0D. A group whose ring phase has begun is
left to it. -/
def State.abortGroup (s : State) (d e : Nat) : State :=
  match s.inGroup d e with
  | some x =>
    if x.committing then s
    else
      let s1 := (s.endGroupTiles d e x true).setInGroup d e none
      let s2 := s1.modDie d fun y => { y with doneGroups := y.doneGroups ++ [(x.peer, x.id)] }
      match x.commit with
      | some f => s2.peerReply d x.peer (s.windowMeadow x.window) f.space f.seq f.op 0x0D []
      | none => s2
  | none => s

/-- Aborts the groups that a test selects. -/
def State.abortGroups (s : State) (d : Nat) (f : InGroup → Bool) : State :=
  (s.die d).inGroups.foldl (fun s x => match x.2 with
    | some y => if f y then s.abortGroup d x.1 else s
    | none => s) s

/-! Peers that cannot be reached (R210, R215, R236). -/

/-- A request that a die keeps completes locally with a reason: how the unit that asked for it is told is left to `tell`. -/
def State.failOut (s : State) (d : Nat) (f : OutReq → Bool) (reason : Nat) (tell : State → OutReq → Nat → State) : State :=
  let gone := (s.die d).outReqs.filter f
  let s := s.modDie d fun x => { x with outReqs := x.outReqs.filter fun r => !f r }
  gone.foldl (fun s r => tell s r reason) s

/-! Reduction entries (R183, R184, R233). -/

/-- The key of a reduction id's entry: 1,024 program entries from 0; the module's 16 ids from 1024. -/
def State.findRed (s : State) (d id : Nat) : Option Nat :=
  ((s.die d).red.find? fun x => match x.2 with
    | some y => y.id == id
    | none => false).map (·.1)

/-- A free program entry (R183). -/
def State.freeRed (s : State) (d : Nat) : Option Nat :=
  (List.range 1024).find? fun k => Tbl.get none (s.die d).red k == none

/-- An entry of a key. -/
def State.redOf (s : State) (d key : Nat) : Option RedEntry := Tbl.get none (s.die d).red key

/-- Sets an entry. -/
def State.setRed (s : State) (d key : Nat) (x : Option RedEntry) : State :=
  s.modDie d fun y => { y with red := y.red.put none key x }

/-- Adds a contribution's elements into an entry (R184). -/
def RedEntry.add (x : RedEntry) (off : Nat) (data : Bytes) : RedEntry :=
  let w := redWidth x.type
  (List.range (data.length / w)).foldl (fun x i =>
    let v := leNat ((data.drop (w * i)).take w)
    let e := off / w + i
    let sum := match Tbl.get none x.vec e with
      | some y => redAdd x.type y v
      | none => if x.type = 2 then ({ LA.ofNat v with flags := { (LA.ofNat v).flags with part := true } }).toNat else v
    { x with vec := x.vec.put none e (some sum) }) x

/-- The vector that an entry delivers (R184): uncovered LA elements take the window of the lowest covered record; an LA element's
residue is checked; an invalid entry's LA records are invalid. Where the check fails, the residue delivered is the one accumulated, so that
LACVT finds the mismatch again: R184's "residue of the unsaturated sum" can be read either way [DESIGN CHOICE, log entry 46]. -/
def RedEntry.vector (x : RedEntry) : Bytes :=
  let w := redWidth x.type
  let window : Int := (x.vec.findSome? fun e => e.2.map fun v => (LA.ofNat v).w).getD 0
  (List.range (x.bytes / w)).flatMap fun e =>
    let v := match Tbl.get none x.vec e with
      | some v =>
        if x.type = 2 then
          let r := LA.ofNat v
          let bad := r.residue != resOf r.a
          ({ r with flags := { r.flags with resMis := r.flags.resMis || bad, invalid := r.flags.invalid || x.invalid } }).toNat
        else v
      | none =>
        if x.type = 2 then
          (⟨0, window, 0, { ({} : LaFlags) with part := true, invalid := x.invalid }⟩ : LA).toNat
        else 0
    toLE w v

/-- The LA elements of an entry whose residue check fails at the root (R44, R184). -/
def RedEntry.mismatches (x : RedEntry) : Nat :=
  if x.type ≠ 2 then 0
  else (x.vec.filter fun e => match e.2 with
    | some v => (LA.ofNat v).residue != resOf (LA.ofNat v).a
    | none => false).length

end Sys2Proof.Machine
end

