-- ==== Sys2Proof/Machine/Defects.lean ====
section
/-! DEFINITION. The state of each physical tile towards the defect list (R302, R309), the hops of a logical
link and the validity of a map (R304, R305), the candidates for a place (R306), and the records of the error log (R324, R327). -/

namespace Sys2Proof.Machine

/-! Physical tiles (R302, R309, R310). -/

/-- A tile is retired. -/
def State.retired (s : State) (p : Nat) : Bool := s.allDefects.any fun x => x.disposition == 2 && x.unit == p && x.kind != 0x0B && x.kind != 0x0C

/-- A tile is retired because its router or stream switch failed (R304). -/
def State.routerDead (s : State) (p : Nat) : Bool := s.allDefects.any fun x => x.disposition == 2 && x.unit == p && x.kind == 6

/-- The logical tile that a physical tile holds under the committed map. -/
def State.roleOf (s : State) (p : Nat) : Option Nat :=
  (List.range (logicalTiles s.variant)).find? fun l => s.physOf l == p

/-- A tile is under test (R316). -/
def State.underTest (s : State) (p : Nat) : Bool := s.test.slots.any fun r => 2 ≤ r.2.step && r.2.phys == p

/-- `tile_status` of a physical tile (R302). -/
def State.tileStatus (s : State) (p : Nat) : Nat :=
  if darkRow s.variant p then 4
  else if s.retired p then 3
  else if s.underTest p then 2
  else if (s.roleOf p).isSome then 0
  else 1

/-- A set of numbers as the bits of one number. -/
def bitsOf (l : List Nat) : Nat := l.foldl (fun m p => m ||| (1 <<< p)) 0

/-- The physical tiles that the committed map places, as a set. -/
def State.placedSet (s : State) : Nat := bitsOf (((List.range (logicalTiles s.variant)).map s.physOf).filter (· < 4608))

/-- The heath: healthy fallow tiles (R302) that are no migration's spare. -/
def State.heath (s : State) : List Nat :=
  let placed := s.placedSet
  (List.range 4608).filter fun p => !darkRow s.variant p && !s.retired p && !s.underTest p && !placed.testBit p &&
    !(s.migs.any fun m => m.2.step != 0 && m.2.spare == p)

/-! Hops of a logical link and valid maps (R304, R305). -/

/-- The link out of a tile in a direction is fenced, at either of its ends. -/
def State.linkFenced (s : State) (r dir : Nat) : Bool :=
  bit (s.obe Ob.link_fence r) dir || match meshNeighbour r dir with
    | some q => bit (s.obe Ob.link_fence q) (opposite dir)
    | none => true

/-- The tiles one physical hop away over unfenced links and live routers. -/
def State.oneHop (s : State) (r : Nat) : List Nat :=
  (List.range 4).filterMap fun d => match meshNeighbour r d with
    | some q => if s.linkFenced r d || s.routerDead q then none else some q
    | none => none

/-- The tiles that a bypass output reaches: two positions on in a straight line (R134). -/
def State.twoHops (s : State) (r : Nat) : List Nat :=
  (List.range 4).filterMap fun d => match (meshNeighbour r d).bind fun q => meshNeighbour q d with
    | some q => if s.routerDead q then none else some q
    | none => none

/-- The length of the shortest path, up to `fuel` hops on: `one` are the tiles `n` hops away, `two` those `n` − 1 away. -/
def State.pathLen (s : State) (goal : Nat) : Nat → Nat → List Nat → List Nat → Option Nat
  | 0, _, _, _ => none
  | fuel + 1, n, one, two =>
    if one.contains goal then some n
    else s.pathLen goal fuel (n + 1) (one.flatMap s.oneHop ++ two.flatMap s.twoHops).eraseDups one

/-- Hops of the link of two logical tiles on two physical tiles (R304); none beyond 16. -/
def State.linkHops (s : State) (l m p q : Nat) : Option Nat :=
  (s.pathLen q 17 0 [p] []).map fun h =>
    if s.variant = 1 ∧ ((lRow l = 23 ∧ lRow m = 24) ∨ (lRow l = 24 ∧ lRow m = 23)) then h - 8 else h

/-- The logical neighbours of a logical tile. -/
def logicalNeighbours (variant l : Nat) : List Nat :=
  (if 0 < lRow l then [l - 64] else []) ++ (if lCol l < 63 then [l + 1] else []) ++
    (if l + 64 < logicalTiles variant then [l + 64] else []) ++ (if 0 < lCol l then [l - 1] else [])

/-- The die of a logical tile's nominal position. -/
def nominalDie (variant l : Nat) : Nat := dieOf (nominalMap variant l)

/-- The hops of every link of `l` on `p` to the placed tiles of a map; none where a link to some neighbour `n` is beyond 1 + `d n`
hops. -/
def State.linksOf (s : State) (m : Nat → Nat) (l p : Nat) (d : Nat → Nat) : Option (List Nat) :=
  ((logicalNeighbours s.variant l).filter fun n => m n != 0xFFFF).mapM fun n =>
    match s.linkHops l n p (m n) with
    | some h => if h ≤ 1 + d n then some h else none
    | none => none

/-- No number stands twice in a list. -/
def noRepeat (l : List Nat) : Bool :=
  (l.foldl (fun (x : Nat × Bool) p => (x.1 ||| (1 <<< p), x.2 && !x.1.testBit p)) (0, true)).2

/-- A map is valid (R305). -/
def State.mapValid (s : State) (map : Nat → Nat) (d : Nat) : Bool :=
  let held := ((List.range (logicalTiles s.variant)).map map).toArray
  let m := fun l => held.getD l 0xFFFF
  let placed := (List.range (logicalTiles s.variant)).filter fun l => m l != 0xFFFF
  let phys := placed.map m
  noRepeat phys && placed.all fun l =>
    decide (m l < 4608) && !s.retired (m l) && !darkRow s.variant (m l) && dieOf (m l) == nominalDie s.variant l &&
      (s.linksOf m l (m l) fun _ => d).isSome

/-- The candidates for a logical tile's new place with their total hops (R306). -/
def State.candidates (s : State) (heath : List Nat) (m : Nat → Nat) (l : Nat) (d : Nat → Nat) : List (Nat × Nat) :=
  (heath.filter fun p => dieOf p == nominalDie s.variant l).filterMap fun p =>
    (s.linksOf m l p d).map fun hs => (p, hs.foldl (· + ·) 0)

/-- The candidate with the least total hops, then the lowest physical id (R306). -/
def bestOf (cs : List (Nat × Nat)) : Option Nat :=
  (cs.foldl (fun (b : Option (Nat × Nat)) c => match b with
    | some x => if c.2 < x.2 ∨ (c.2 = x.2 ∧ c.1 < x.1) then some c else b
    | none => some c) none).map (·.1)

/-- The declared D of the image loaded into a logical tile's meadow; none where none is loaded. -/
def State.imageD (s : State) (l : Nat) : Option Nat :=
  if s.obe Ob.tile_meadow l < 256 then (s.job (s.obe Ob.tile_meadow l)).image.map (·.declaredD) else none

/-! Records of the error log (R324, R327). -/

/-- Bits 0 to 479 of the record of a report, numbered `seq`. -/
def Report.body (r : Report) (seq : Nat) : Nat :=
  r.kind % 65536 + fld (sat 16 r.count) 16 + fld (r.phys % 8192) 32 + fld (r.unitClass % 8) 45 + fld (r.logical % 4096) 48 +
    fld (r.time % 2 ^ 64) 64 + fld (r.meadow % 256) 128 + fld (r.subUnit % 256) 136 + fld (r.job % 65536) 144 +
    fld (r.step % 2 ^ 64) 160 + fld (r.slot % 8) 224 + fld (r.task % 16) 227 + fld (b2n r.opValid) 231 +
    fld (r.desc % 65536) 232 + fld (r.temp % 65536) 256 + fld (r.volt % 65536) 272 + fld (r.detail % 2 ^ 32) 288 +
    fld (r.tag % 2 ^ 32) 320 + fld (r.detail2 % 2 ^ 64) 352 + fld (seq % 2 ^ 32) 416

/-- The 64 B record (R324). -/
def Report.word (r : Report) (seq : Nat) : Nat := r.body seq + fld (Config.crc32 (toLE 60 (r.body seq))).toNat 480

/-- Records that the error log partition holds (R327). -/
def logRecords : Nat := 2 ^ 27

/-- The record of a sequence number; zero where it has been overwritten or not yet written (R327). -/
def State.logRecord (s : State) (n : Nat) : Nat :=
  let next := s.ob Ob.errlog_next
  if n < next ∧ next ≤ n + logRecords then Tbl.get 0 s.errs.log n else 0

end Sys2Proof.Machine
end

