-- ==== Sys2Proof/Machine/Resets.lean ====
section
/-! DEFINITION. Reset domains D1 to D3, what they do to jobs, pages, groups and migrations, dumps, and the hang action (R79,
R155, R193, R251, R287, R333 to R342, R351). -/

namespace Sys2Proof.Machine

/-! Page frames (R241, R251). -/

/-- Answers the client of a page request with a reason (R244, R251). -/
def State.pageAnswer (s : State) (d : Nat) (c : PageClient) (g op status handle : Nat) (payload : Bytes) : State :=
  match c with
  | .peer i seq => s.peerReply d i g 0 seq op status payload
  | .otherDie h =>
    let k : Packet := {
      data := payload, issuer := 4608 + d
      h := { h with cls := 2, op := if op = 8 then 0x11 else 0x10, status := if status = 0 then 0 else 0x09, detail := status,
                    length := ceilDiv payload.length 64, addr := 0, arg0 := handle, arg1 := 0,
                    src := h.dst, srcKind := h.dstKind, dst := h.src, dstKind := h.srcKind } }
    (s.newPkt k).launch s.nextPkt k (4608 + d)

/-- The ATTENDs held or queued for a tile end with a reason (R251); a FREE that waited for them takes effect (R246). -/
def State.attendsEnd (s : State) (g l reason : Nat) : State :=
  let d := pageDie l
  let q : AttendQ := Tbl.get {} (s.die d).attends l
  let s := s.modDie d fun x => { x with attends := x.attends.put {} l {} }
  (q.held ++ q.queued).foldl (fun s a => (s.frameDone d (frameKey l a.frame)).pageAnswer d a.client g 7 reason 0 []) s

/-- A tile of a page store loses its cistern contents: its ATTENDs end as requests for the pages' handles do, and its frames are freed
and reported (R251). -/
def State.storeLost (s : State) (l p : Nat) : State :=
  (match (s.tile p).meadow with
    | some g => s.attendsEnd g l 0x15
    | none => s).pagesLost l p

/-! Regions (R350, R351). -/

/-- A region is lost (R351): marked, the job is lost, and one report for each stream of the last scan and a final one. -/
def State.regionLost (s : State) (g r : Nat) : State :=
  let e := g * 64 + r
  let s := s.putObe Ob.region_table e (setBits (s.obe Ob.region_table e) 192 192 1)
  let s := if s.obe Ob.job_state g = 0 then s else s.putObe Ob.job_state g 6
  let s := s.modJob g fun j => { j with fills := j.fills.filter fun f => f.region != r }
  ((s.job g).scan ++ [(0xFFFFFFFF, 0)]).foldl (fun (s : State) (x : Nat × Nat) =>
    s.raise { kind := 0x0804, unitClass := 6, meadow := g, detail := x.1, detail2 := x.2 }) s

/-- The copy of a region that a tile holds has failed (R350, R351): with no other whole copy the region is lost, else it is to
be filled again from its partner. -/
def State.copyFailed (s : State) (g l : Nat) : State :=
  (s.regions g).foldl (fun s x =>
    let r := x.2
    let first := bits r 15 4 == l
    let second := bit r 3 && bits r 27 16 == l
    if !regionPrecious r ∨ !(first || second) ∨ bit r 192 then s
    else if !bit r 3 ∨ (s.job g).fills.any fun f => f.region == x.1 && f.fromTile == l then s.regionLost g x.1
    else s.modJob g fun j => { j with fills := (j.fills.filter fun f => f.region != x.1) ++
      [if first then { region := x.1, fromTile := bits r 27 16, fromBase := bits r 86 64, toTile := l, toBase := bits r 54 32,
                       length := bits r 127 96 }
       else { region := x.1, fromTile := bits r 15 4, fromBase := bits r 54 32, toTile := l, toBase := bits r 86 64,
              length := bits r 127 96 }] }) s

/-! Migrations (R287). -/

/-- A migration whose EPOCH notice has not been sent is abandoned (R285, R287): the tile thaws, the spare is released;
`count` is the field of `migrate_counts`, 2 at the freeze limit, 3 by a reset or fault. A rotation's visit ends with it (R317). -/
def State.abandonMigration (s : State) (m count : Nat) : State :=
  let x := s.mig m
  let s := s.modMig m fun _ => {}
  let mine (c : Commit) : Bool := c.why == CommitWhy.migration m && c.step != CommitStep.sent
  let ended := (s.txn.current.toList ++ s.txn.queue).filter mine
  let s := { s with txn := { s.txn with
    queue := s.txn.queue.filter fun c => !mine c, own := s.txn.own.filter fun c => !mine c, current := s.txn.current.filter fun c => !mine c } }
  let s := ended.foldl (fun s c => s.releaseOwn c.values) s
  let s := s.modTile x.oldPhys fun t => { t with frozen := false, trackDirty := false, dirty := [] }
  let s := s.modTile x.spare fun t => t.blank
  let s := match x.rotation with
    | some i => { (s.addRec Ob.rotation_counts 0 6 1) with test := { s.test with slots := s.test.slots.put {} i {} } }
    | none => s
  (s.dropPipe m).addRec Ob.migrate_counts 0 count 1

/-- The migrations of a physical tile that a reset or fault of it abandons. -/
def State.migrationsOf (s : State) (p : Nat) : List Nat :=
  (s.migs.filter fun x => x.2.step != 0 && !x.2.sentEpoch && (x.2.oldPhys == p || x.2.spare == p)).map (·.1)

/-! Shadows (R320 to R323, R332). -/

/-- Counts `n` ns that a tile has lost to background work, in the second of fabric time (R332). -/
def Tile.lost (t : Tile) (now n : Nat) : Tile :=
  let x := t.shadow
  let old := if x.holdWindow = now / sec 1 then x.holdTotal else 0
  { t with shadow := { x with holdWindow := now / sec 1, holdTotal := old + n } }

/-- No operation of a unit is shadowed any more. -/
def OpUnit.unshadow (u : OpUnit) : OpUnit :=
  { u with exec := u.exec.map fun o => { o with shadowed := false }, waiting := u.waiting.map fun o => { o with shadowed := false } }

/-- A tile's shadowed operation is over; its assignment stands. -/
def Tile.endShadow (t : Tile) : Tile :=
  { t with
    tensor := t.tensor.unshadow, vector := t.vector.unshadow
    shadow := { assigned := t.shadow.assigned, holdWindow := t.shadow.holdWindow, holdTotal := t.shadow.holdTotal } }

/-- A tile's shadowed operation is abandoned and counted (R321). -/
def State.abandonShadow (s : State) (p : Nat) : State :=
  if (s.tile p).shadow.outstanding.isSome then (s.addRec Ob.shadow_counts 0 5 1).modTile p Tile.endShadow else s

/-- The source tiles whose shadow tile is `q`. -/
def State.shadowedBy (s : State) (q : Nat) : List Nat := (s.tiles.filter fun x => x.2.shadow.assigned == some q).map (·.1)

/-- The shadows that a physical tile takes part in, as source or as shadow, are abandoned (R321). -/
def State.abandonShadows (s : State) (p : Nat) : State := (s.shadowedBy p).foldl State.abandonShadow (s.abandonShadow p)

/-- They are abandoned, and their assignments end. -/
def State.dropShadows (s : State) (p : Nat) : State :=
  let qs := s.shadowedBy p ++ [p]
  qs.foldl (fun s q => s.modTile q fun t => { t with shadow := { t.shadow with assigned := none } }) (s.abandonShadows p)

/-! D1 and D2 (R79, R193, R333, R335). -/

/-- What a D1 leaves of a tile (R79, R193, R333): every task Idle with zero registers, t_ objects at their defaults but for the
generation and completed fields of barriers and the well generations. Instruction memory, slots, router and stream switch are
kept; the cistern is cleared on request. -/
def Tile.reset1 (t : Tile) (clear : Bool) : Tile :=
  { t with
    seq := {}
    ranges := []
    pumps := []
    troughs := []
    wells := t.wells.mapVals {} fun _ w => { gen := w.gen }
    counters := []
    barriers := t.barriers.mapVals {} fun _ b => { gen := b.gen, completed := b.completed }
    tensor := {}
    vector := {}
    stream := { t.stream with
      rows := [], sinkQ := t.stream.sinkQ.filter fun x => !(4 ≤ x.1 / 8 && x.1 / 8 < 16),
      folds := t.stream.folds.filter fun f => f.task == none }
    ni := { t.ni with groupSlots := [], c4head := none, claim := none }
    power := { state := if t.power.state = .t3 then .t3 else .t1 }
    shadow := { assigned := t.shadow.assigned, holdWindow := t.shadow.holdWindow, holdTotal := t.shadow.holdTotal }
    frozen := false
    ecc := if clear then { t.ecc with cistern := [], writeBack := [] } else t.ecc
    cistern := if clear then [] else t.cistern }

/-- The packets that a tile's pumps and tasks have given to its interface and that are not issued go with them. -/
def State.dropUnissued (s : State) (p : Nat) : State :=
  { s with net := s.net.filter fun x => match x.2 with
      | some k => !(k.loc == .ni && k.issuer == p && k.h.flow != dupFlow)
      | none => true }

/-- A reset of a tile's sequencer and engines (R79, R333, R335); how long it lasts, at most `limit` ns, is a free value. -/
def State.resetTile (s : State) (p : Nat) (clear : Bool) (limit : Nat) : State :=
  let s := match s.headSend p with
    | some x => s.answer x.1 x.2 p 0x02 0
    | none => s
  let s := ((s.migrationsOf p).foldl (fun s m => s.abandonMigration m 3) s).abandonShadows p
  let s := s.dropUnissued p
  let until_ := s.now + s.freeVal 20 % (limit + 1)
  let s := (s.drew.modTile p fun t => { t.reset1 clear with resetUntil := until_ }).leftRun (s.tile p) p
  let s := match (s.tile p).meadow with
    | some g => let full := s.fullSluice g
      s.modTile p fun t => { t with sluice := full }
    | none => s
  match (s.tile p).logical, (s.tile p).meadow with
  | some l, some g => if clear then (s.storeLost l p).copyFailed g l else s
  | _, _ => s

/-- D2: a tile's router and stream switch; their tables reload from the active buffers (R333). Packets in the router's channels
are gone. -/
def State.resetRouter (s : State) (p : Nat) : State :=
  let gone := s.net.filterMap fun x => match x.2 with
    | some k => match k.loc with
      | .chan r _ _ => if r = p then some (x.1, k) else none
      | _ => none
    | none => none
  let s := gone.foldl (fun s x => (s.uncounted p x.2).dropPkt x.1) { s with routers := s.routers.put {} p {} }
  s.modTile p fun t => { t with
    stream := { slot := t.stream.slot, via := t.stream.via }, relays := t.relays.map fun r => { r with words := [] } }

/-! D3 (R251, R333, R335). -/

/-- The tiles of a meadow, with their logical ids. -/
def State.memberPairs (s : State) (g : Nat) : List (Nat × Nat) := (s.members g).map fun l => (l, s.physOf l)

/-- D3 of a meadow (R333): D1 of every member, a flush, its write groups aborted, its program reduction entries and barrier
counts cleared; a cache-role meadow keeps its cisterns, and its pending ATTENDs are answered 0x0C (R251). -/
def State.resetMeadow (s : State) (g : Nat) (clear : Bool) : State :=
  let clear := clear && s.obe Ob.role g != 3
  let s := (s.flushMeadow g).powerDropped g
  let s := (s.memberPairs g).foldl (fun s x =>
    ((s.attendsEnd g x.1 0x0C).resetTile x.2 clear 1000000).modTile x.2 fun t =>
      { t.openGates with stream := { t.openGates.stream with folds := [], folding := false } }) s
  let s := [0, 1].foldl (fun s d =>
    let s := s.abortGroups d fun x => s.windowMeadow x.window == g
    s.modDie d fun x => { x with
      red := x.red.filter fun e => match e.2 with
        | some y => !(e.1 < 1024 && y.meadow == g)
        | none => true
      meadowRed := x.meadowRed.mod {} g fun m =>
        { m with quiet := 0, barriers := m.barriers.mapVals {} fun _ b => { gen := b.gen } } }) s
  let until_ := (s.memberPairs g).foldl (fun m x => max m (s.tile x.2).resetUntil) s.now
  s.modJob g fun j => { j with
    drained := false, released := false, arrived := false, stepPending := false, resetUntil := until_ }

/-- Counts a reset of a domain (R334). -/
def State.countReset (s : State) (dom : Nat) : State := s.addObe Ob.reset_counts (dom - 1) 1 64

/-! Dumps (R339 to R341). -/

/-- A dump. -/
def State.dump (s : State) (n : Nat) : Option Dump := Tbl.get none s.dumps n

/-- The dump that a new one takes the place of: the first empty one, else the oldest that is not protected (R341). -/
def State.dumpPlace (s : State) : Option Nat :=
  match (List.range 8).find? fun n => (s.dump n).isNone with
  | some n => some n
  | none =>
    ((List.range 8).foldl (fun (m : Option (Nat × Nat)) n => match s.dump n with
      | some x =>
        if x.protect then m
        else match m with
          | some b => if x.start < b.2 then some (n, x.start) else m
          | none => some (n, x.start)
      | none => m) none).map (·.1)

/-- The section of a unit: a tile with its router, or a port die (R339). A cistern is part of it only on request. -/
def State.dumpSection (s : State) (cistern : Bool) (u : Nat) : DumpSection :=
  if u < 4608 then
    { phys := u, unitClass := 0, tile := some { s.tile u with cistern := if cistern then (s.tile u).cistern else [] }
      router := some (s.router u) }
  else { phys := u - 4608, unitClass := 4, die := some (s.die (u - 4608)) }

/-- Takes a dump of units; none where every dump is protected (R341). -/
def State.takeDump (s : State) (units : List Nat) (cistern protect : Bool) (cause : Nat) : Option State :=
  s.dumpPlace.map fun n => { s.drew with dumps := s.dumps.put none n (some {
    protect, cause, start := s.now, left := units, cistern, done := true, layout := s.free
    sections := units.map (s.dumpSection cistern) }) }

/-- The units of a meadow: its tiles with their routers, and both port dies. -/
def State.meadowUnits (s : State) (g : Nat) : List Nat := (s.memberTiles g).filter (· < 4608) ++ [4608, 4609]

/-! Hangs (R337, R338). -/

/-- A hang of a source has been found in a meadow: the one automatic action, where the job runs and the source's bit is set
(R338). -/
def State.hangFound (s : State) (g source : Nat) : State :=
  if g < 256 ∧ s.obe Ob.job_state g = 2 ∧ bit (s.obe Ob.hang_action g) source then
    let s := if s.obe Ob.dump_auto g = 1 then (s.takeDump (s.meadowUnits g) false false 1).getD s else s
    let s := ((s.resetMeadow g false).countReset 3).putObe Ob.job_state g 3
    s.raise { kind := 0x0801, unitClass := 6, meadow := g, detail := source }
  else s

/-- STALL_DETECT (R189, R337): one report for each packet whose head has not advanced for `stall_limit`. -/
def execStallDetect (n : PacketId) (s : State) : Out :=
  match s.pkt n with
  | some k =>
    let held : Option (Nat × Nat × Bool) := match k.loc with
      | .chan r port esc => if (s.routerHeads r).any fun x => x.1 == n then some (r, port, esc) else none
      | .head => some (k.target, 4, false)
      | _ => none
    match held with
    | some (r, port, esc) =>
      if !k.reported ∧ us (s.ob Ob.stall_limit) ≤ s.now - k.since then
        let s1 := (s.setPkt n { k with reported := true }).addObe Ob.stall_reports k.h.cls 1 64
        let s2 := s1.raise {
          kind := 0x0301, phys := r, unitClass := 1, meadow := k.h.meadow, tag := k.h.tag % 2 ^ 32
          subUnit := port + fld k.h.cls 3 + fld (b2n esc) 6
          detail := k.h.flow + fld k.h.seq 8 + fld k.h.srcKind 24 + fld k.h.dstKind 26, detail2 := k.h.src + fld k.h.dst 16 }
        .next (s2.hangFound k.h.meadow 2)
      else s.noEvent
    | none => s.noEvent
  | none => s.noEvent

/-- WATCHDOG_EXPIRY (R74, R337, R338). -/
def execWatchdogExpiry (p : Phys) (k : Task16) (s : State) : Out :=
  let t := s.tile p
  let x := t.task k
  if x.wdEnable && t.seq.wdPeriod != 0 && x.state.live && x.state != .waiting && t.power.state != .t3 &&
      us t.seq.wdPeriod ≤ s.now - x.wdSince then
    let s1 := s.modTile p fun t =>
      let t := t.modTask k fun x => { x with wdSince := s.now }
      { t with seq := { t.seq with hang := true } }
    let s2 := s1.raise { t.report p 0x0400 with task := k }
    .next (s2.hangFound (t.meadow.getD 256) 0)
  else s.noEvent

end Sys2Proof.Machine
end

