-- ==== Sys2Proof/Machine/Wakes.lean ====
section
/-! DEFINITION. Loading an image into a tile, waking, power entries of one tile, and the commands of wells (R71, R79, R137, R191
to R194, R363 to R369). -/

namespace Sys2Proof.Machine

/-! Loading (R79, R137, R344, R369). -/

/-- Writes little-endian instruction words from an offset. -/
def Mem.writeWords (m : Mem) (a : Nat) : List (BitVec 32) → Mem
  | [] => m
  | w :: ws => (m.writeLE a 4 w.toNat).writeWords (a + 4) ws

/-- A tile's instruction memory, slots and static regions as an image gives them; each slot with contents is marked loaded
(R137). -/
def Tile.loadImage (t : Tile) (x : ImageTile) : Tile :=
  let slots := x.slots.foldl (fun (m : Mem) b => Mem.write m b.1 b.2) []
  let slots := (List.range 8).foldl (fun (m : Mem) n =>
    if x.slots.any fun b => b.1 / 4096 == n then Mem.write m (4096 * n + 1) (Mem.read m (4096 * n + 1) ||| 1) else m) slots
  let cistern := x.data.foldl (fun m d => m.writeBytes d.1 d.2) t.cistern
  { t with imem := Mem.writeWords [] 0 x.code, slots, cistern, ecc := { t.ecc with imem := [] } }.loadSlot 0

/-- Starts a tile at an entry point (R79): task 0's pc, its start command, the run bit. -/
def Tile.startAt (t : Tile) (now entry : Nat) : Tile :=
  let t := t.modTask 0 fun x =>
    { x with pc := BitVec.ofNat 16 entry, regs := [], state := .ready, stall := none, pend := 0, wdSince := now }
  { t with seq := { t.seq with run := true } }

/-- The image of a meadow's job for a logical tile. -/
def State.imageTile (s : State) (g l : Nat) : Option ImageTile :=
  (s.job g).image.bind fun x => x.tiles.find? fun y => y.tile == l

/-- Loads and starts a physical tile from its meadow's image (R79); one of a page store has the page program instead (R239). -/
def State.startTile (s : State) (g l p : Nat) : State :=
  match s.imageTile g l with
  | some x => (s.modTile p fun t => (t.loadImage x).startAt s.now x.entry).settle p
  | none => if s.obe Ob.role g = 3 then s.pageProgram p else s

/-! Waking (R367 to R369). -/

/-- A tile wakes from T3 (R369): a D1 with its cistern cleared, woke dark set, and a reload where a job is loaded. -/
def State.wakeT3 (s : State) (p : Nat) : State :=
  let s := s.resetTile p true 50000
  let s := s.modTile p fun t =>
    { t with power := { t.power with state := .t1, wokeDark := true, sourceNow := true, source := true } }
  match (s.tile p).meadow, (s.tile p).logical with
  | some g, some l => s.startTile g l p
  | _, _ => s

/-- A tile's tasks are woken where their events have come; a member in T3 wakes where a Waiting task honours one (R367). -/
def State.eventWake (s : State) (p : Nat) : State :=
  let t := s.tile p
  if t.power.state = .t3 then
    if t.meadow.isSome && (List.range 16).any fun k =>
      (t.task k).state == .waiting && (t.waitResult k (t.task k).waitMask.toNat).isSome then s.wakeT3 p else s
  else (s.wakeTasks p).settle p

/-- TIMER_WAKE (R71, R77): fabric time has reached t_timer. -/
def execTimerWake (p : Phys) (s : State) : Out :=
  let t := s.tile p
  if t.seq.timerArmed ∧ t.seq.timer ≤ s.now then
    .next ((s.modTile p fun t =>
      { t with seq := { t.seq with timerArmed := false } }.latch 0x400).eventWake p)
  else s.noEvent

/-- MAINTENANCE_REQUEST (R71). -/
def execMaintenanceRequest (p : Phys) (s : State) : Out :=
  .next ((s.modTile p fun t => t.latch 0x2000).eventWake p)

/-! Entries of one tile (R365 to R367, R370). -/

/-- The depth of the entry that a tile is due to make: the one commanded, else its own. -/
def Tile.entryDepth (t : Tile) : Nat := t.power.commanded.getD t.power.depth

/-- POWER_ENTRY_RETRY (R366): the unit that refused no longer does. -/
def execPowerEntryRetry (p : Phys) (s : State) : Out :=
  let t := s.tile p
  let depth := t.entryDepth
  if t.power.refused && t.power.state == .t1 && (depth == 1 || depth == 2) &&
      (t.allWaiting || t.power.commanded.isSome) && s.refuser p depth != t.power.lastRefuser then
    .next (if t.power.commanded.isSome then s.enterNow p depth else s.enterPower p depth)
  else s.noEvent

/-- T2_RETURN_TIMER (R367): 10 µs without a request. -/
def execT2ReturnTimer (p : Phys) (s : State) : Out :=
  let t := s.tile p
  if t.power.state = .t2 ∧ t.power.partWoken ∧ t.power.entering.isNone ∧ us 10 ≤ s.now - t.ni.lastServed then .next (s.enterPower p 1)
  else s.noEvent

/-! Wells (R191 to R194). -/

/-- WELL_OPEN (R193). -/
def execWellOpen (p : Phys) (w : Fin 8) (fr : StoreFrom) (s : State) : Out :=
  storeRow p (0x600B00 + 16 * w) (fun v => bits v 7 4 == 1) fr s

/-- WELL_CLOSE (R193, R194). -/
def execWellClose (p : Phys) (w : Fin 8) (fr : StoreFrom) (s : State) : Out :=
  storeRow p (0x600B00 + 16 * w) (fun v => bits v 7 4 == 2) fr s

/-- WELL_RESET (R193, R194). -/
def execWellReset (p : Phys) (w : Fin 8) (fr : StoreFrom) (s : State) : Out :=
  storeRow p (0x600B00 + 16 * w) (fun v => bits v 7 4 == 3) fr s

/-- The head SEND of a tile is refused while its well is Resetting (R196). -/
def State.refuseHead (s : State) (p w : Nat) : State :=
  match s.headSend p with
  | some x =>
    if bits x.2.h.arg0 14 12 ≠ w then s
    else match s.placeCheck p x.2 with
      | some st => (s.leaveHead p).finishSend x.1 p x.2 st
      | none => s
  | none => s

/-- WELL_RESETTING_DONE (R194): Closed after a close; after a reset Open, with the next generation. -/
def execWellResettingDone (p : Phys) (w : Fin 8) (s : State) : Out :=
  let x := (s.tile p).well w
  if x.state = .resetting then
    .next (((s.refuseHead p w).modTile p fun t => t.modWell w fun x => if x.reopen then x.toOpen else { x with state := .closed }).settle p)
  else s.noEvent

end Sys2Proof.Machine
end

