-- ==== Sys2Proof/Machine/RedOps.lean ====
section
/-! DEFINITION. Reduction units, barriers and the quiet count, step groups, outbound windows (R154, R183, R184, R222, R233, R234,
R278, R282). -/

namespace Sys2Proof.Machine

/-! Requests to peers (R208, R210, R215, R222, R236). -/

/-- Why a meadow can send no request to a peer from a die now: 0x07 where the meadow or the peer is unbound or the die is not the
peer's home (R208, R209), 0x08 fenced, 0x13 unreachable; 0 where it can. -/
def State.peerReason (s : State) (d g peer : Nat) : Nat :=
  if s.obe Ob.role_id g = 0xFFFF ∨ !s.bound peer ∨ s.obe Ob.peer_home peer ≠ d then 0x07
  else if s.peerFenced peer then 0x08
  else if s.obe Ob.peer_state peer = 2 then 0x13
  else 0

/-- Why an outbound window refuses an access of a meadow (R222): not open or another meadow's, another generation, inbound; then
its peer's reason. -/
def State.outReason (s : State) (d g w gen : Nat) : Nat :=
  if s.obe Ob.win_state w ≠ 1 ∨ s.obe Ob.win_meadow w ≠ g then 0x01
  else if s.obe Ob.win_gen w ≠ gen then 0x02
  else if s.obe Ob.win_kind w ≠ 2 then 0x05
  else s.peerReason d g (s.windowPeer w)

/-- A frame addressed to an outbound window's remote handle. -/
def State.remoteHandle (s : State) (w : Nat) (f : Frame) : Frame :=
  let r := s.obe Ob.win_remote w
  { f with winIndex := bits r 23 12, winGen := bits r 27 24 }

/-- Adds 1 to a tile's counter over the maintenance ring (R230, R233, R249). -/
def State.notifyCounter (s : State) (l c : Nat) : State :=
  let p := s.physOf l
  if p < 4608 then (s.countUp p c).settle p else s

/-! Delivery (R184, R233). -/

/-- An entry's delivery is done: the notify counter, and the entry is freed. -/
def State.redDone (s : State) (d key : Nat) : State :=
  match s.redOf d key with
  | some x =>
    let s := s.setRed d key none
    if x.notifyOn then s.notifyCounter x.notifyTile x.notifyCounter else s
  | none => s

/-- An entry's delivery has been refused with a status: freed in mode 0; in mode 1 it stays armed; reported (R233). -/
def State.redRefused (s : State) (d key status : Nat) : State :=
  match s.redOf d key with
  | some x =>
    let s := s.raise { kind := 0x0307, phys := d, unitClass := 4, meadow := x.meadow, detail := status, detail2 := x.id }
    if x.mode = 0 then s.setRed d key none else s.setRed d key (some { x with delivering := false })
  | none => s

/-- Sends a reduction on to a remote root (R233 mode 1). -/
def State.redForward (s : State) (d key : Nat) (x : RedEntry) : State :=
  let r := s.outReason d x.meadow x.window x.windowGen
  if r ≠ 0 then s.redRefused d key r
  else
    let f := s.remoteHandle x.window { blankFrame d 0 with
      op := 4, id := x.remoteId, count := x.expected, type := x.type, payload := x.vector }
    s.sendRequest d (s.windowPeer x.window) 2 x.meadow (.forward key) none f

/-- A complete entry delivers (R184, R233): its LA residues are checked. -/
def State.redDeliver (s : State) (d key : Nat) : State :=
  match s.redOf d key with
  | some x =>
    let s := if x.mismatches = 0 then s
      else s.raise { kind := 0x0100, phys := d, unitClass := 4, meadow := x.meadow, detail := x.mismatches, detail2 := x.id }
    let x := { x with delivering := true }
    let s := s.setRed d key (some x)
    if x.mode = 0 then
      let n := s.meshParts x.meadow x.delivery x.bytes
      if n = 0 then s.redRefused d key 0x01
      else
        let j := s.newJob d { work := .deliver key, left := n, total := 0 }
        j.2.meshWrite d x.meadow x.delivery j.1 0 x.vector
    else s.redForward d key x
  | none => s

/-- A complete, armed entry begins its delivery. -/
def State.redCheck (s : State) (d key : Nat) : State :=
  match s.redOf d key with
  | some x => if x.armed && !x.delivering && x.expected ≤ x.count then s.redDeliver d key else s
  | none => s

/-! Contributions (R183). -/

/-- Contributions beyond an entry's expected total (R183). -/
def State.redOver (s : State) (d key n : Nat) : State :=
  match s.redOf d key with
  | some x =>
    ((s.setRed d key (some { x with invalid := true })).addObe Ob.reduce_overcount d n 64).raise
      { kind := 0x0303, phys := d, unitClass := 4, meadow := x.meadow, detail := n, detail2 := x.id }
  | none => s

/-- A contribution to a program reduction (R183): a first one takes a free entry; with none it is lost. -/
def State.redProgram (s : State) (d g id type count off : Nat) (data : Bytes) : State :=
  let key := match s.findRed d id with
    | some k => some k
    | none => s.freeRed d
  match key with
  | none => (s.addObe Ob.reduce_lost d 1 64).raise
      { kind := 0x0302, phys := d, unitClass := 4, meadow := g, detail2 := id }
  | some k =>
    let x := (s.redOf d k).getD { id, type, meadow := g }
    let fresh := if x.armed then x.expected - x.count else count
    let bad := x.type != type
    let y := if bad then { x with invalid := true } else if x.delivering then x else x.add off data
    let s := s.setRed d k (some { y with count := x.count + count })
    let s := if bad then s.raise { kind := 0x0303, phys := d, unitClass := 4, meadow := x.meadow, detail2 := id } else s
    let s := if x.armed ∧ fresh < count then s.redOver d k (count - fresh) else s
    s.redCheck d k

/-! The meadow's permanently armed entry (R154, R278). -/

/-- Some tile of a meadow drains for END_STEP. -/
def State.stepDrains (s : State) (g : Nat) : Bool :=
  (s.memberTiles g).any fun p => match (s.tile p).stream.drainTok with
    | some x => x.1 == 3
    | none => false

/-- A port die's quiet count of a meadow is full: the notice to the steward and every tile (R154). -/
def State.quietNotice (s : State) (d g : Nat) : State :=
  let step := s.stepDrains g
  ((s.modJob g fun j => { j with quietStep := step }).notice (4608 + d) g 0x21 0 0 true).notice (4608 + d) g 0x21 0 0 false

/-- A contribution to the quiet count (R154). -/
def State.quietCount (s : State) (d g n : Nat) : State :=
  let q := (Tbl.get {} (s.die d).meadowRed g).quiet + n
  let full := decide (q = (s.members g).length)
  let s := s.modDie d fun d => { d with meadowRed := d.meadowRed.mod {} g fun m => { m with quiet := if full then 0 else q } }
  if full then s.quietNotice d g else s

/-- Changes a barrier element. -/
def State.modBarElem (s : State) (d g b : Nat) (f : BarElem → BarElem) : State :=
  s.modDie d fun d => { d with meadowRed := d.meadowRed.mod {} g fun m => { m with barriers := m.barriers.mod {} b f } }

/-- A barrier element. -/
def State.barElem (s : State) (d g b : Nat) : BarElem := Tbl.get {} (Tbl.get {} (s.die d).meadowRed g).barriers b

/-- An arrival at a barrier (R278): of another generation or expected total it is discarded and reported. Barrier 15's count,
once full, waits for STEP_COMMIT (R279). -/
def State.barrierArrival (s : State) (d g b v expected gen : Nat) : State :=
  let x := s.barElem d g b
  if x.gen ≠ gen ∨ (x.sum ≠ 0 ∧ x.expected ≠ expected) ∨ (b = 15 ∧ (s.job g).stepPending) then
    s.raise { kind := 0x0306, unitClass := 4, meadow := g, detail := expected + fld gen 16 }
  else
    let sum := x.sum + v
    let s := s.modBarElem d g b fun x => { x with expected, sum }
    if sum ≠ expected then s
    else if b = 15 then s.modJob g fun j => { j with stepPending := true }
    else (s.modBarElem d g b fun x => { gen := (x.gen + 1) % 256 }).notice (4608 + d) g 0x21 (1 + b) 0 true

/-! Step groups (R282, R283). -/

/-- A meadow's step_group record. -/
def State.stepGroup (s : State) (g : Nat) : Nat := s.obe Ob.step_group g

/-- The meadow whose step group uses a slot: as a member (`root` false), or as the root of that slot. -/
def State.slotMeadow (s : State) (slot : Nat) (root : Bool) : Option Nat :=
  (List.range 256).find? fun g =>
    let r := s.stepGroup g
    bit r 0 && bits r 4 2 == slot && (!root || bit r 1)

/-- A step mismatch (R282). -/
def State.stepMismatch (s : State) (g : Nat) : State := s.raise { kind := 0x0401, unitClass := 6, meadow := g }

/-- The release has arrived at a member (R282). -/
def State.stepReleased (s : State) (g v : Nat) : State :=
  if v = (s.obe Ob.step_number g + 1) % 2 ^ 64 then s.modJob g fun j => { j with released := true }
  else s.stepMismatch g

/-- The root sends the releases (R282): to each entry of step_release, and to itself. -/
def State.sendReleases (s : State) (g : Nat) : State :=
  let v := (s.obe Ob.step_number g + 1) % 2 ^ 64
  let block := s.obe Ob.step_release g
  let s := (List.range (bits (s.stepGroup g) 14 8 - 1)).foldl (fun s i =>
    let e := bits block (32 * i + 31) (32 * i)
    let w := bits e 11 0
    let home := s.windowHome w
    if s.outReason home g w (bits e 15 12) ≠ 0 then s
    else s.sendRequest home (s.windowPeer w) 2 g .stepMsg none
      (s.remoteHandle w { blankFrame home 0 with
        op := 4, id := 0xFFFFFE08 + bits e 18 16, count := 1, type := 4, payload := toLE 8 v })) s
  s.stepReleased g v

/-- A contribution to one of the module's own ids (R283): an arrival at a root, or a release at a member; the entry is armed again
when it completes. Another type, and an overcount, make it invalid (R183). What peers send to 0xFFFF_FE00, whose units are the module's own, and to the reserved 0xFFFF_FE08 stays in their
entries. -/
def State.redModule (s : State) (d id type count : Nat) (data : Bytes) : State :=
  let n := id - 0xFFFFFE00
  let v := leNat (data.take 8)
  let x := (s.redOf d (1024 + n)).getD { id, type := 4, bytes := 8, armed := true }
  let x := { (if type = 4 then x.add 0 data else { x with invalid := true }) with count := x.count + count }
  let s := if type = 4 then s else s.raise { kind := 0x0303, phys := d, unitClass := 4, meadow := x.meadow, detail2 := id }
  if n = 0 ∨ n = 8 then s.setRed d (1024 + n) (some x)
  else if 8 < n then
    match s.slotMeadow (n - 8) false with
    | some g => s.stepReleased g v
    | none => s
  else match s.slotMeadow n true with
    | none => s
    | some g =>
      let x := { x with meadow := g }
      if x.count < bits (s.stepGroup g) 14 8 then s.setRed d (1024 + n) (some x)
      else
        let sum := ((Tbl.get none x.vec 0).getD 0) % 2 ^ 64
        let excess := x.count - bits (s.stepGroup g) 14 8
        let s := if excess = 0 then s else (s.setRed d (1024 + n) (some x)).redOver d (1024 + n) excess
        let s := s.setRed d (1024 + n) none
        if sum = (bits (s.stepGroup g) 14 8 * s.obe Ob.step_number g) % 2 ^ 64 then s.sendReleases g
        else s.stepMismatch g

/-- A meadow's arrival at its root (R282 step 1). -/
def State.stepArrive (s : State) (g : Nat) : State :=
  let r := s.stepGroup g
  let v := toLE 8 (s.obe Ob.step_number g)
  let s := s.modJob g fun j => { j with arrived := true }
  let w := bits r 27 16
  let home := s.windowHome w
  if bit r 1 then s.redModule (s.windowHome (bits (s.obe Ob.step_release g) 11 0)) (0xFFFFFE00 + bits r 4 2) 4 1 v
  else if s.outReason home g w (bits r 31 28) ≠ 0 then s
  else s.sendRequest home (s.windowPeer w) 2 g .stepMsg none
    (s.remoteHandle w { blankFrame home 0 with
      op := 4, id := 0xFFFFFE00 + bits r 7 5, count := 1, type := 4, payload := v })

/-- A REDUCE reaches a port die's reduction unit (R154, R183, R278, R282). -/
def State.redArrive (s : State) (d g id type count off arg1 : Nat) (data : Bytes) : State :=
  if 0xFFFFFF00 ≤ id then
    let g := id - 0xFFFFFF00
    if off = 0 then s.quietCount d g count
    else s.barrierArrival d g (off / 8 - 1) (leNat (data.take 8)) (arg1 % 65536) (bits arg1 23 16)
  else if 0xFFFFFE10 ≤ id then s
  else if 0xFFFFFE00 ≤ id then s.redModule d id type count data
  else s.redProgram d g id type count off data

/-- REDUCE (R183). A C3 packet with another operation at a port die is discarded (R164). -/
def execReduce (n : PacketId) (s : State) : Out :=
  match s.atSink n with
  | some k =>
    if k.h.cls ≠ 3 ∨ k.target < 4608 ∨ 4610 ≤ k.target then s.noEvent
    else
      let s1 := s.consume n k
      if k.h.op ≠ 4 then .next s1
      else .next (s1.redArrive (k.target - 4608) k.h.meadow (bits k.h.addr 43 12) (bits k.h.addr 47 44)
        (bits k.h.arg0 16 0) (bits k.h.addr 11 0) k.h.arg1 (k.data.take (bits k.h.arg0 44 32)))
  | none => s.noEvent

/-! Arming (R233). -/

/-- An arm record's fields are good (R232). -/
def armOk (r : Nat) : Bool :=
  let ty := bits r 2 0
  let bytes := bits r 15 3
  (ty == 2 || ty == 3 || ty == 4) && 0 < bytes && bytes ≤ 4096 && bytes % redWidth ty == 0 &&
    0 < bits r 33 17 && bits r 33 17 ≤ 65536 && bits r 63 34 == 0 && bits r 511 193 == 0 &&
    (bit r 16 || meadowForm (bits r 127 64))

/-- An entry armed by a record (R233). -/
def RedEntry.arm (x : RedEntry) (r g : Nat) : RedEntry :=
  { x with
    type := bits r 2 0, bytes := bits r 15 3, armed := true, expected := bits r 33 17, mode := b2n (bit r 16),
    delivery := bits r 127 64, window := bits r 139 128, windowGen := bits r 143 140, remoteId := bits r 175 144,
    notifyTile := bits r 187 176, notifyCounter := bits r 191 188, notifyOn := bit r 192, meadow := g,
    invalid := x.invalid || x.type != bits r 2 0 }

/-- Whether a C0 packet at a port die is a write of one of its objects (R232). -/
def Packet.objectWrite (k : Packet) (kind : Nat) : Bool :=
  4608 ≤ k.target && k.target < 4610 && k.h.cls ≤ 1 && k.h.op == 2 && bits k.h.addr 63 60 == 4 && bits k.h.addr 47 44 == kind

/-- REDUCTION_ARM (R233). -/
def execReductionArm (n : PacketId) (s : State) : Out :=
  match s.atSink n with
  | some k =>
    if !k.objectWrite 1 then s.noEvent
    else
      let d := k.target - 4608
      let id := bits k.h.addr 43 12
      let r := leNat (k.data.take 64)
      let key := match s.findRed d id with
        | some e => some e
        | none => s.freeRed d
      match key with
      | none => .next (s.answer n k k.target 0x0C 0)
      | some e =>
        let x := (s.redOf d e).getD { id, type := bits r 2 0 }
        if !armOk r ∨ 0xFFFFFE00 ≤ id ∨ x.armed then .next (s.answer n k k.target 0x0C 0)
        else
          let y := x.arm r k.h.meadow
          let s1 := (s.setRed d e (some y)).answer n k k.target 0 0
          let s2 := if x.type = bits r 2 0 then s1
            else s1.raise { kind := 0x0303, phys := d, unitClass := 4, meadow := y.meadow, detail2 := id }
          let s3 := if y.expected < y.count then s2.redOver d e (y.count - y.expected) else s2
          .next (s3.redCheck d e)
  | none => s.noEvent

end Sys2Proof.Machine
end

