-- ==== Sys2Proof/Machine/PageOps.lean ====
section
/-! DEFINITION. The key/value page store (R238 to R251): geometry, frames, allocation, page requests at the die that holds the frame,
attention next to the pages, forwarding between the port dies. -/

namespace Sys2Proof.Machine

/-! Geometry (R240, R241). -/

/-- KV heads H of a meadow. -/
def State.pageHeads (s : State) (g : Nat) : Nat := s.obe Ob.page_kv_heads g

/-- Tokens T of a page. -/
def State.pageTokens (s : State) (g : Nat) : Nat := s.pageSize g / (2 * s.pageHeads g * s.pageWidth g)

/-- Frames F of a tile. -/
def State.pageFramesPer (s : State) (g : Nat) : Nat := (cisternBytes s.variant - 32768) / s.pageSize g

/-- A page handle (R241). -/
def pageHandle (tile frame gen g : Nat) : Nat := tile + fld frame 12 + fld gen 24 + fld g 48

/-- A page request (R245): PAGE_GET (7) or PAGE_PUT (8), its subop, handle, chunk, flags and scale fields, and payload. -/
structure PageReq where
  op : Nat
  subop : Nat
  handle : Nat
  chunk : Nat
  flags : Nat
  scale : Nat
  payload : Bytes
  deriving DecidableEq, Repr

/-- ATTEND's fields: tokens n, KV head h, query heads Q. -/
def PageReq.tokens (r : PageReq) : Nat := bits r.chunk 9 0
def PageReq.head (r : PageReq) : Nat := bits r.chunk 15 10
def PageReq.queries (r : PageReq) : Nat := r.flags + 1

/-- The tile and frame that a request's handle names. -/
def PageReq.tile (r : PageReq) : Nat := bits r.handle 11 0
def PageReq.frame (r : PageReq) : Nat := bits r.handle 21 12

/-- The request is an ALLOC; a FREE. -/
def PageReq.isAlloc (r : PageReq) : Bool := r.op == 8 && r.subop == 0
def PageReq.isFree (r : PageReq) : Bool := r.op == 8 && r.subop == 2
def PageReq.isWrite (r : PageReq) : Bool := r.op == 8 && r.subop == 1
def PageReq.isRead (r : PageReq) : Bool := r.op == 7 && r.subop == 0

/-- The request's fields are good (R245). -/
def State.pageFieldsOk (s : State) (g : Nat) (r : PageReq) : Bool :=
  if r.isAlloc then r.handle == 0 && r.payload == []
  else if r.isFree then r.payload == []
  else if r.isWrite then r.chunk % 4096 == 0 && r.chunk < s.pageSize g && r.payload.length == 4096
  else if r.isRead then r.chunk % 4096 == 0 && r.chunk < s.pageSize g && r.payload == []
  else r.op == 7 && r.subop == 1 && r.queries * (8 + 4 * s.pageWidth g) ≤ 4096 && r.head < s.pageHeads g &&
    0 < r.tokens && r.tokens ≤ s.pageTokens g && !bit r.chunk 16 && r.payload.length == r.queries * s.pageWidth g

/-- The handle names a frame of this page store (R250, reason 0x14 otherwise). -/
def State.pageKnown (s : State) (g h : Nat) : Bool :=
  s.obe Ob.tile_meadow (bits h 11 0) == g && s.physOf (bits h 11 0) < 4608 && bits h 21 12 < s.pageFramesPer g &&
    bits h 23 22 == 0 && bits h 55 48 == g && bits h 63 56 == 0

/-- Counts and answers a refusal (R250). -/
def State.pageRefuse (s : State) (d : Nat) (c : PageClient) (g op reason : Nat) : State :=
  (s.addRec Ob.page_counts g (5 + reason) 1).pageAnswer d c g op reason 0 []

/-! Allocation (R242, R243). -/

/-- The tiles of a cache-role meadow in a die's half. -/
def State.pageTiles (s : State) (d g : Nat) : List Nat :=
  (s.members g).filter fun l => pageDie l == d && s.physOf l < 4608

/-- Free frames on a tile. -/
def State.freeFrames (s : State) (g l : Nat) : Nat := s.pageFramesPer g - (s.framesOn l).length

/-- The Free frame to be taken in a half: on the tile with the most, the lowest tile on ties, the lowest frame. -/
def State.pickFree (s : State) (d g : Nat) : Option (Nat × Nat) :=
  let best := (s.pageTiles d g).foldl (fun (m : Option (Nat × Nat)) l =>
    let n := s.freeFrames g l
    match m with
    | some b => if b.2 < n then some (l, n) else m
    | none => if 0 < n then some (l, n) else none) none
  match best with
  | some b =>
    ((List.range (s.pageFramesPer g)).find? fun f => (s.frame d (frameKey b.1 f)).state == .free).map fun f => (b.1, f)
  | none => none

/-- The frame to be evicted in a half: Sealed, evictable, nothing pending, the oldest last use. -/
def State.pickEvict (s : State) (d g : Nat) : Option (Nat × Nat) :=
  ((s.die d).pages.foldl (fun (m : Option ((Nat × Nat) × Nat)) x =>
    let l := x.1 / 1024
    let f := x.2
    if s.obe Ob.tile_meadow l = g ∧ f.state = .sealed ∧ f.evictable ∧ f.pendingOps = 0 ∧ !f.freeing then
      match m with
      | some b => if f.lastUse < b.2 then some ((l, x.1 % 1024), f.lastUse) else m
      | none => some ((l, x.1 % 1024), f.lastUse)
    else m) none).map (·.1)

/-- Takes a frame for a peer: Allocated, with the time of ALLOC; a page that nothing has read counts as used then (log entry 22). -/
def State.takeFrame (s : State) (d g peer flags : Nat) (x : Nat × Nat) : Nat × State :=
  let key := frameKey x.1 x.2
  let gen := (s.frame d key).gen
  (pageHandle x.1 x.2 gen g, (s.addRec Ob.page_counts g 0 1).modFrame d key fun _ =>
    { state := .allocated, gen, peer, evictable := bit flags 0, allocAt := s.now, lastUse := s.now })

/-- ALLOC in one half: a Free frame, or with `evict` an evicted one. -/
def State.allocHalf (s : State) (d g peer flags : Nat) (evict : Bool) : Option (Nat × State) :=
  if evict then
    (s.pickEvict d g).map fun x =>
      ((s.addRec Ob.page_counts g 1 1).modFrame d (frameKey x.1 x.2) PageFrame.freed).takeFrame d g peer flags x
  else (s.pickFree d g).map fun x => s.takeFrame d g peer flags x

/-! Requests on a frame, at the die that holds it (R242, R244, R246). -/

/-- An ATTEND joins those of its tile: 2 held by the page program, 8 queued, then refused 0x06 (R246). -/
def State.attendAdd (s : State) (d g key : Nat) (a : AttendReq) : State :=
  let q : AttendQ := Tbl.get {} (s.die d).attends a.tile
  let put (q : AttendQ) : State :=
    ((s.modDie d fun x => { x with attends := x.attends.put {} a.tile q }).addRec Ob.page_counts g 4 1).modFrame d key
      fun f => { f with pendingOps := f.pendingOps + 1, lastUse := s.now }
  if q.held.length < 2 then put { q with held := q.held ++ [a] }
  else if q.queued.length < 8 then put { q with queued := q.queued ++ [a] }
  else s.pageRefuse d a.client g 7 0x06

/-- A page request with a handle, at the die that holds the frame. -/
def State.pageAct (s : State) (d : Nat) (c : PageClient) (g : Nat) (r : PageReq) (held : Nat) : State :=
  let key := frameKey r.tile r.frame
  let f := s.frame d key
  let at_ := r.frame * s.pageSize g
  if f.gen ≠ bits r.handle 47 24 ∨ f.state = .free ∨ f.freeing then s.pageRefuse d c g r.op 0x15
  else if r.isFree then
    (s.modFrame d key fun f => if f.pendingOps = 0 then f.freed else { f with freeing := true }).pageAnswer d c g r.op 0 0 []
  else if r.isWrite then
    let chunk := r.chunk / 4096
    if f.state = .sealed ∨ f.chunks.contains chunk then s.pageRefuse d c g r.op 0x17
    else
      let s := s.modFrame d key fun f => { f with chunks := f.chunks ++ [chunk] }
      let j := s.newJob d { work := .pageWrite c g r.tile r.frame chunk f.gen, left := 1, total := held }
      j.2.meshWrite d g (mkLoc r.tile (at_ + r.chunk)) j.1 0 r.payload
  else if f.state ≠ .sealed then s.pageRefuse d c g r.op 0x16
  else if r.isRead then
    let s := s.modFrame d key fun f => { f with pendingOps := f.pendingOps + 1, lastUse := s.now }
    let j := s.newJob d { work := .pageRead c g r.tile r.frame, left := 1 }
    j.2.meshRead d g (mkLoc r.tile (at_ + r.chunk)) j.1 4096
  else s.attendAdd d g key {
    client := c, tile := r.tile, frame := r.frame, tokens := r.tokens, head := r.head, queries := r.queries
    scale := r.scale, query := r.payload }

/-- A chunk's WRITE has ended (R242): the frame is Sealed once every chunk stands; one whose WRITE failed may be written again. -/
def State.pageWritten (s : State) (d : Nat) (c : PageClient) (g tile frame chunk gen reason : Nat) : State :=
  let key := frameKey tile frame
  let f := s.frame d key
  let s := if f.state ≠ .allocated ∨ f.gen ≠ gen then s
    else s.modFrame d key fun f =>
      if reason ≠ 0 then { f with chunks := f.chunks.filter (· != chunk) }
      else
        let landed := f.landed ++ [chunk]
        { f with landed, state := if landed.length = s.pageSize g / 4096 then .sealed else .allocated }
  if reason = 0 then s.pageAnswer d c g 8 0 0 [] else s.pageRefuse d c g 8 reason

/-! Forwarding between the port dies (R244). -/

/-- Passes a request on to the other port die as a C0 packet: the handle is its address, the fields its arguments, the work's key
its tag; the space for the reply is reserved at issue. ALLOC's subop 3 asks for an eviction (R243). -/
def State.pageForward (s : State) (d peer seq g : Nat) (r : PageReq) : State :=
  let j := s.newJob d { work := .forwarded peer seq g r.op r.subop r.flags, left := 1 }
  let want := if r.isRead then 4096 else if r.op = 7 then r.queries * (8 + 4 * s.pageWidth g) else 0
  j.2.dieRequest d 0 r.op g 0 (2 - d) r.handle (r.subop + fld r.op 8 + fld r.flags 16 + fld r.chunk 24)
    (r.scale + fld peer 32) j.1 0 want lastDeadline r.payload

/-- ALLOC's sources in order, from `stage` 0: own Free, other Free, own evicted, other evicted (R243). -/
def State.allocFrom (s : State) (d peer seq g flags stage : Nat) : State :=
  let answer (x : Nat × State) : State := x.2.pageAnswer d (.peer peer seq) g 8 0 x.1 (toLE 8 x.1)
  let forward (subop : Nat) : State :=
    s.pageForward d peer seq g { op := 8, subop, handle := 0, chunk := 0, flags, scale := 0, payload := [] }
  if stage = 0 then
    match s.allocHalf d g peer flags false with
    | some x => answer x
    | none => forward 0
  else
    match s.allocHalf d g peer flags true with
    | some x => answer x
    | none => forward 3

/-- The reply to a forwarded request (R244). -/
def State.pageForwarded (s : State) (d peer seq g op subop flags reason handle : Nat) (payload : Bytes) : State :=
  if op = 8 ∧ (subop = 0 ∨ subop = 3) then
    if reason = 0 then s.pageAnswer d (.peer peer seq) g 8 0 handle (toLE 8 handle)
    else if subop = 0 then s.allocFrom d peer seq g flags 1
    else s.pageRefuse d (.peer peer seq) g 8 reason
  else s.pageAnswer d (.peer peer seq) g op reason 0 payload

/-- A page request of a peer, its sender and meadow checked (R239, R243 to R246). -/
def State.pageRequest (s : State) (d peer seq g : Nat) (r : PageReq) (held : Nat) : State :=
  let c := PageClient.peer peer seq
  if s.obe Ob.role g ≠ 3 then s.pageRefuse d c g r.op 0x1A
  else if !s.pageFieldsOk g r then s.pageRefuse d c g r.op 0x19
  else if r.isAlloc then s.allocFrom d peer seq g r.flags 0
  else if !s.pageKnown g r.handle then s.pageRefuse d c g r.op 0x14
  else if pageDie r.tile ≠ d then s.pageForward d peer seq g r
  else s.pageAct d c g r held

/-! Attention (R247). -/

/-- FP8 E4M3 elements of bytes. -/
def e4m3s (bs : Bytes) : List Num := bs.map fun b => decodeElem 3 b.toNat

/-- A VDOT of one cell (R99): each product rounded once to binary32, summed in the lane order. -/
def dot32 (xs ys : List Num) : Num := (laneSum ((zipRow fmul xs ys).map (·.v))).v

/-- Bytes of a binary32 value. -/
def f32Bytes (x : Num) : Bytes := toLE 4 x.code32

/-- The partial record of one query row (R247). -/
def partialRecord (q : List Num) (keys : List (List Num)) (values : List (List Num)) (scale : Num) : Bytes :=
  let sc := keys.map fun k => (fmul (dot32 q k) scale).v
  let m := laneMax sc
  let p := sc.map fun x => (fexp (fadd x m.neg).v).v
  f32Bytes m ++ f32Bytes (laneSum p).v ++ values.flatMap fun v => f32Bytes (dot32 p v)

/-- The bytes of an ATTEND's K rows and V rows, as (offset, length) in the cistern. -/
def State.attendRows (s : State) (g : Nat) (a : AttendReq) : List (Nat × Nat) × List (Nat × Nat) :=
  let t := s.pageTokens g
  let w := s.pageWidth g
  let base := a.frame * s.pageSize g
  ((List.range a.tokens).map fun i => (base + (a.head * t + i) * w, w),
   (List.range w).map fun j => (base + s.pageHeads g * t * w + (a.head * w + j) * t, a.tokens))

/-- The partial records of an ATTEND, one per query head; none where the page holds an uncorrectable error. -/
def State.attendResult (s : State) (p g : Nat) (a : AttendReq) : Option Bytes :=
  let rows := s.attendRows g a
  let t := s.tile p
  if (rows.1 ++ rows.2).any fun x => 2 ≤ t.poison x.1 x.2 then none
  else
    let w := s.pageWidth g
    let keys := rows.1.map fun x => e4m3s (s.cisternRead p x.1 x.2)
    let values := rows.2.map fun x => e4m3s (s.cisternRead p x.1 x.2)
    some ((List.range a.queries).flatMap fun i =>
      partialRecord (e4m3s ((a.query.drop (i * w)).take w)) keys values (decodeFloat b32 a.scale))

end Sys2Proof.Machine
end

