-- ==== Sys2Proof/Machine/CmdOps.lean ====
section
/-! DEFINITION. Page commands of tiles at their peer's home die (R249): reading local data, the requests to the peer, writing the
results, the result record, the answer to the pump's write. -/

namespace Sys2Proof.Machine

/-- A page command in progress, by the number of the pump's packet. -/
def State.cmd (s : State) (d n : Nat) : Option PageCmd := Tbl.get none (s.die d).cmds n

/-- Sets it. -/
def State.setCmd (s : State) (d n : Nat) (c : Option PageCmd) : State :=
  s.modDie d fun x => { x with cmds := x.cmds.put none n c }

/-- A record's fields are good: reserved bits zero, a known operation, addresses in local or spread form. -/
def pageCmdOk (r : Nat) : Bool :=
  1 ≤ pcOp r && pcOp r ≤ 4 && bits r 7 5 == 0 && bits r 23 20 == 0 && bits r 63 43 == 0 && bits r 511 369 == 0 &&
    meadowForm (pcResult r) && (pcOp r == 4 || meadowForm (pcData r)) && (pcOp r != 3 || meadowForm (pcPartial r))

/-- Answers the pump's write, after the notify of a written result record. -/
def State.cmdFinish (s : State) (d n reason : Nat) (wrote : Bool) : State :=
  match s.cmd d n with
  | some c =>
    let r := c.record
    let s := s.setCmd d n none
    let s := if wrote ∧ bit r 368 then s.notifyCounter (bits r 363 352) (bits r 367 364) else s
    match s.pkt n with
    | some k => s.answer n k (4608 + d) (if reason = 0 then 0 else 0x09) reason
    | none => s
  | none => s

/-- Writes bytes into the command's meadow; the command goes on when their WRITE_ACKs are in. None where the address is refused. -/
def State.cmdStore (s : State) (d n g base : Nat) (bs : Bytes) : Option State :=
  let m := s.meshParts g base bs.length
  if m = 0 then none
  else
    let j := s.newJob d { work := .cmdWrite n, left := m }
    some (j.2.meshWrite d g base j.1 0 bs)

/-- Writes the result record. -/
def State.cmdResult (s : State) (d n : Nat) : State :=
  match s.cmd d n with
  | some c =>
    let v := b2n (c.failed != 0) + fld c.failed 8 + fld c.handle 64 + fld s.now 128
    let s := s.setCmd d n (some { c with phase := 5, room := (0, 0) })
    match s.cmdStore d n c.meadow (pcResult c.record) (toLE 64 v) with
    | some s' => s'
    | none => s.cmdFinish d n 0x03 false
  | none => s

/-- Sends one page request of a command; `tag` is the chunk's offset. -/
def State.cmdSend (s : State) (d n : Nat) (c : PageCmd) (op subop handle chunk flags scale tag : Nat) (payload : Bytes) : State :=
  s.sendRequest d (pcPeer c.record) 0 c.meadow (.page n tag) none { blankFrame d 0 with
    op, offset := bits handle 39 0, id := bits handle 63 40 + fld subop 24, count := chunk, type := flags
    groupBytes := scale, payload }

/-- A refused command: a page allocated for it is freed first, where the peer can be reached; the FREE ends at once where it cannot (R215,
R236). -/
def State.cmdFailed (s : State) (d n : Nat) : State :=
  match s.cmd d n with
  | some c =>
    if c.allocated ∧ s.peerReason d c.meadow (pcPeer c.record) = 0 then
      (s.setCmd d n (some { c with phase := 4, waiting := 1, room := (0, 0) })).cmdSend d n c 8 2 c.handle 0 0 0 0 []
    else s.cmdResult d n
  | none => s

/-- Sends the WRITE of every chunk, none waiting on another; to a peer that can no longer be reached none is sent. -/
def State.cmdChunks (s : State) (d n : Nat) : State :=
  match s.cmd d n with
  | some c =>
    let m := s.pageSize c.meadow / 4096
    let why := s.peerReason d c.meadow (pcPeer c.record)
    if why ≠ 0 then (s.setCmd d n (some { c with failed := why })).cmdFailed d n
    else (List.range m).foldl (fun s i =>
      s.cmdSend d n c 8 1 c.handle (4096 * i) 0 0 (4096 * i) (c.data.readBytes (4096 * i) 4096))
      (s.setCmd d n (some { c with phase := 2, waiting := m, room := (64, 0) }))
  | none => s

/-- The local data of a command has been read. -/
def State.cmdLoaded (s : State) (d n reason : Nat) (data : Mem) : State :=
  match s.cmd d n with
  | some c =>
    let c := { c with data, failed := reason }
    let s := s.setCmd d n (some c)
    let r := c.record
    let why := if reason ≠ 0 then reason else s.peerReason d c.meadow (pcPeer r)
    if why ≠ 0 then (s.setCmd d n (some { c with failed := why })).cmdFailed d n
    else if pcOp r = 3 then
      let qs := pcQueries r
      (s.setCmd d n (some { c with phase := 2, waiting := 1, room := (0, 0) })).cmdSend d n c 7 1 c.handle (bits r 33 24 + fld (bits r 39 34) 10)
        (qs - 1) (bits r 351 320) 0 (data.readBytes 0 (qs * s.pageWidth c.meadow))
    else if c.handle = 0 then
      (s.setCmd d n (some { c with phase := 1, waiting := 1 })).cmdSend d n c 8 0 0 0 (b2n (bit r 4)) 0 0 []
    else s.cmdChunks d n
  | none => s

/-- Reads a command's local data. -/
def State.cmdLoad (s : State) (d n g base len : Nat) : State :=
  let m := s.meshParts g base len
  if m = 0 then s.cmdLoaded d n 0x03 []
  else
    let j := s.newJob d { work := .cmdRead n, left := m }
    j.2.meshRead d g base j.1 len

/-- A command begins. -/
def State.cmdStart (s : State) (d n : Nat) (k : Packet) : State :=
  let r := leNat (k.data.take 64)
  let g := k.h.meadow
  let c : PageCmd := { record := r, meadow := g, handle := pcHandle r, room := s.cmdNeeds g r }
  let s := (s.owe n k).setCmd d n (some c)
  let why := s.peerReason d g (pcPeer r)
  if why ≠ 0 then (s.setCmd d n (some { c with failed := why })).cmdResult d n
  else if pcOp r = 1 then s.cmdLoad d n g (pcData r) (s.pageSize g)
  else if pcOp r = 3 then s.cmdLoad d n g (pcData r) (pcQueries r * s.pageWidth g)
  else if pcOp r = 2 then
    let m := s.pageSize g / 4096
    (List.range m).foldl (fun s i => s.cmdSend d n c 7 0 c.handle (4096 * i) 0 0 (4096 * i) [])
      (s.setCmd d n (some { c with phase := 2, waiting := m, room := (0, 0) }))
  else (s.setCmd d n (some { c with phase := 2, waiting := 1, room := (0, 0) })).cmdSend d n c 8 2 c.handle 0 0 0 0 []

/-- Every request of a command is answered: results are written, or the refusal is dealt with. -/
def State.cmdAnswered (s : State) (d n : Nat) : State :=
  match s.cmd d n with
  | some c =>
    let r := c.record
    if c.failed ≠ 0 then s.cmdFailed d n
    else if pcOp r = 2 ∨ pcOp r = 3 then
      let base := if pcOp r = 2 then pcData r else pcPartial r
      let len := if pcOp r = 2 then s.pageSize c.meadow else pcQueries r * (8 + 4 * s.pageWidth c.meadow)
      let s1 := s.setCmd d n (some { c with phase := 3 })
      match s1.cmdStore d n c.meadow base (c.data.readBytes 0 len) with
      | some s' => s'
      | none => (s.setCmd d n (some { c with failed := 0x03 })).cmdResult d n
    else s.cmdResult d n
  | none => s

/-- The peer's reply to one request of a command. -/
def State.cmdReply (s : State) (d n tag reason : Nat) (payload : Bytes) : State :=
  match s.cmd d n with
  | some c =>
    if c.phase = 1 then
      if reason ≠ 0 then (s.setCmd d n (some { c with failed := reason })).cmdFailed d n
      else (s.setCmd d n (some { c with handle := leNat (payload.take 8), allocated := true })).cmdChunks d n
    else if c.phase = 2 then
      let c := { c with
        waiting := c.waiting - 1, failed := if c.failed = 0 then reason else c.failed
        data := if reason = 0 ∧ pcOp c.record ≠ 1 then c.data.writeBytes tag payload else c.data }
      let s := s.setCmd d n (some c)
      if c.waiting = 0 then s.cmdAnswered d n else s
    else if c.phase = 4 then s.cmdResult d n
    else s
  | none => s

/-- The WRITE_ACKs of a command's results, or of its result record, are in. -/
def State.cmdWrote (s : State) (d n reason : Nat) : State :=
  match s.cmd d n with
  | some c =>
    if c.phase = 3 then (s.setCmd d n (some { c with failed := reason })).cmdResult d n
    else s.cmdFinish d n (if reason = 0 then c.failed else reason) (reason == 0)
  | none => s

end Sys2Proof.Machine
end

