-- ==== Sys2Proof/Machine/HostOps.lean ====
section
/-! DEFINITION. The host side of port die W (R355 to R361): result queues, doorbells, the BAR2 aperture. -/

namespace Sys2Proof.Machine

/-! Result queues (R355 to R359). -/

/-- A result queue. -/
def State.rq (s : State) (q : Nat) : RQueue := Tbl.get {} s.host.queues q

/-- Changes a result queue; the count of posts held now follows (R357). -/
def State.modRq (s : State) (q : Nat) (f : RQueue → RQueue) : State :=
  let s := { s with host := { s.host with queues := s.host.queues.put {} q (f (s.rq q)) } }
  let v := s.obe Ob.rq_counts q
  s.putObe Ob.rq_counts q (setBits v 255 192 (s.rq q).held.length)

/-- The next expected sequence of a stream of a queue. -/
def State.rqNext (s : State) (q stream : Nat) : Nat := s.obe Ob.rq_stream_next (q * 1024 + stream)

/-- The ring, or the 64 records of an MMIO queue, has room (R357, R359). -/
def State.rqRoom (s : State) (q : Nat) : Bool :=
  let x := s.rq q
  if s.obe Ob.rq_mode q = 2 then x.mmio.length < 64 else (x.next - x.consumed) < s.obe Ob.rq_entries q

/-- Answers the packet that brought a post. -/
def State.postAnswer (s : State) (n status : Nat) : State :=
  match s.pkt n with
  | some k => s.answer n k 4608 status 0
  | none => s

/-- A post is refused with status 0x0A (R356, R357). -/
def State.postRefuse (s : State) (q n : Nat) : State := (s.addRec Ob.rq_counts q 2 1).postAnswer n 0x0A

/-- Bytes of a completion record but for its valid word (R357). -/
def Post.body (x : Post) : Bytes :=
  toLE 8 x.seq ++ toLE 2 x.stream ++ toLE 2 x.job ++ toLE 4 x.length ++ toLE 4 x.status ++ toLE 4 0

/-- Writes a delivered result: payload, record, valid word, then the MSI-X message (R357, R359). -/
def State.rqWrite (s : State) (q : Nat) (x : Post) (payload : Bytes) : State :=
  let n := (s.rq q).next
  let slot := n % s.obe Ob.rq_entries q
  let s :=
    if s.obe Ob.rq_mode q = 2 then
      s.modRq q fun y => { y with mmio := y.mmio ++
        [{ ring := n, record := x.body ++ toLE 8 (n + 1), payload := payload ++ List.replicate (32 - payload.length) 0 }] }
    else
      let rec_ := s.obe Ob.rq_record_base q + 32 * slot
      ((s.hostWrite (s.obe Ob.rq_payload_base q + slot * s.obe Ob.rq_slot_size q) payload).hostWrite rec_ x.body).hostWrite
        (rec_ + 24) (toLE 8 (n + 1))
  let v := s.obe Ob.rq_vector q
  let s := if bit v 6 then { s with host := { s.host with msix := s.host.msix ++ [bits v 5 0] } } else s
  let s := s.postAnswer x.packet 0
  let s := s.putObe Ob.rq_stream_next (q * 1024 + x.stream) (x.seq + 1)
  (s.addRec Ob.rq_counts q 0 1).modRq q fun y => { y with next := n + 1, busy := none }

/-- Begins the delivery of a post that is next (R357): its payload is read by C1 READs; one without payload, or whose address is
refused, ends at once. -/
def State.rqStart (s : State) (q : Nat) (x : Post) : State :=
  let g := s.obe Ob.rq_meadow q
  if x.length = 0 then s.rqWrite q x []
  else
    let m := s.meshParts g x.payload x.length
    if m = 0 then s.postRefuse q x.packet
    else
      let s := s.modRq q fun y => { y with busy := some x }
      let j := s.newJob 0 { work := .post q, left := m }
      j.2.meshRead 0 g x.payload j.1 x.length

/-- A held post that is now next is delivered; one that finds the ring full is refused (R357). -/
def State.rqGo (s : State) (q : Nat) : Nat → State
  | 0 => s
  | k + 1 =>
    if (s.rq q).busy.isSome then s
    else match (s.rq q).held.find? fun x => x.seq == s.rqNext q x.stream with
      | some x =>
        let s := s.modRq q fun y => { y with held := y.held.filter (· != x) }
        if s.rqRoom q then (s.rqStart q x).rqGo q k else (s.postRefuse q x.packet).rqGo q k
      | none => s

/-- The payload of the post under delivery has been read. -/
def State.postRead (s : State) (q reason : Nat) (bytes : Mem) : State :=
  match (s.rq q).busy with
  | some x =>
    let s := s.modRq q fun y => { y with busy := none }
    let s := if reason = 0 then s.rqWrite q x (bytes.readBytes 0 x.length) else s.postRefuse q x.packet
    s.rqGo q 257
  | none => s

/-- A post reaches the result engine (R356, R357). -/
def State.postArrive (s : State) (q : Nat) (x : Post) : State :=
  let e := s.rqNext q x.stream
  let y := s.rq q
  let same (z : Post) : Bool := z.stream == x.stream && z.seq == x.seq
  let busy := match y.busy with
    | some z => same z
    | none => false
  if decide (x.seq < e) || busy || y.held.any same then (s.addRec Ob.rq_counts q 1 1).postAnswer x.packet 0
  else if e < x.seq ∨ y.busy.isSome then
    if 256 ≤ y.held.length then s.postRefuse q x.packet else s.modRq q fun y => { y with held := y.held ++ [x] }
  else if !s.rqRoom q then s.postRefuse q x.packet
  else (s.rqStart q x).rqGo q 257

/-! Doorbells (R360). -/

/-- A doorbell. -/
def State.doorbell (s : State) (d : Nat) : Doorbell := Tbl.get {} s.host.doorbells d

/-- Changes a doorbell. -/
def State.modDoorbell (s : State) (d : Nat) (f : Doorbell → Doorbell) : State :=
  { s with host := { s.host with doorbells := s.host.doorbells.put {} d (f (s.doorbell d)) } }

/-- The SEND of a doorbell's value has been answered. -/
def State.doorbellDone (s : State) (d status : Nat) : State :=
  s.modDoorbell d fun x =>
    if status = 0 then { x with outstanding := false, accepted := (x.accepted + 1) % 2 ^ 32 }
    else { x with outstanding := false, refused := (x.refused + 1) % 2 ^ 32 }

/-- A doorbell's oldest value is sent (R360). -/
def State.doorbellSend (s : State) (d v : Nat) : State :=
  let r := s.obe Ob.doorbell_target d
  let s := s.modDoorbell d fun x => { x with vals := x.vals.drop 1, outstanding := true }
  let j := s.newJob 0 { work := .doorbell d, left := 1 }
  let tile := bits r 11 0
  j.2.dieRequest 0 4 0x03 (bits r 31 24) tile 0 (mkLoc tile 0) (tile + fld (bits r 14 12) 12 + fld (bits r 22 15) 16)
    (s.now + us (s.ob Ob.doorbell_expiry)) j.1 0 0 lastDeadline (toLE 64 v)

/-! BAR2 (R361). -/

/-- The entry that maps a range of BAR2. -/
def State.bar2Entry (s : State) (off len : Nat) : Option Nat :=
  (List.range 64).find? fun e =>
    s.obe Ob.bar2_offset e ≤ off && off + len ≤ s.obe Ob.bar2_offset e + s.obe Ob.bar2_length e

/-- The entry under which an access is allowed: with the permission bit, into a meadow that is not being reset. -/
def State.bar2Allowed (s : State) (off len perm : Nat) : Option Nat :=
  match s.bar2Entry off len with
  | some e =>
    if bit (s.obe Ob.bar2_perm e) perm ∧ (s.job (s.obe Ob.bar2_meadow e)).resetUntil ≤ s.now then some e else none
  | none => none

/-- The fabric address of a BAR2 offset under an entry. -/
def State.bar2Addr (s : State) (e off : Nat) : Nat := s.obe Ob.bar2_base e + (off - s.obe Ob.bar2_offset e)

/-- A host read is answered. -/
def State.bar2Answer (s : State) (bs : Bytes) : State := { s with host := { s.host with bar2Data := bs } }

/-- A host read is answered with all ones and counted. -/
def State.bar2Fail (s : State) (len : Nat) : State :=
  (s.addObe Ob.bar2_refused 1 1 64).bar2Answer (List.replicate len 0xFF)

end Sys2Proof.Machine
end

