-- ==== Sys2Proof/Machine/Dict.lean ====
section
/-! DEFINITION. The dictionary service (R252 to R273): transports and sources, values that are computed when they are read,
staging, the checks of a write, dictionary messages, BAR0 slots, the refusals it records. What a write of an object with a
behaviour of its own does is an argument, `act`, given in Actions. -/

namespace Sys2Proof.Machine

/-! Sources (R264, R266, R267). -/

/-- The transport of a source as `dict_last_error` numbers it. -/
def srcTransport : Source → Nat
  | .bar0 => 0
  | .mailbox => 1
  | .i3c => 2
  | .session _ => 3

/-- The element of `txn_status` that a source's transaction has; I3C holds none. -/
def srcTxn : Source → Option Nat
  | .bar0 | .mailbox => some 0
  | .i3c => none
  | .session n => some (1 + n.val)

/-- A source is the PCIe function. -/
def srcPcie : Source → Bool
  | .bar0 | .mailbox => true
  | _ => false

/-- The indexes that I3C reaches (R266). -/
def i3cIndex (ix : Nat) : Bool :=
  (0x1000 ≤ ix && ix ≤ 0x1FFF) || (0x4000 ≤ ix && ix ≤ 0x4FFF) || (0x7000 ≤ ix && ix ≤ 0x70FF) || (0xA000 ≤ ix && ix ≤ 0xA0FF)

/-- A source may write an object (R266, R269, R314). -/
def mayWrite (src : Source) (o : ObjInfo) : Bool :=
  if o.key = Ob.settings_erase then srcPcie src
  else if o.key = Ob.fm_root_hash then src == .mailbox
  else match src with
    | .i3c => i3cIndex (o.key / 256) && (o.acc == 1 || o.acc == 3) && o.key != Ob.fm_session_idle
    | _ => true

/-- The objects that the ROM serves in recovery mode (R385), and those that exist there alone. -/
def recoveryIndex (ix : Nat) : Bool := (0x1000 ≤ ix && ix ≤ 0x10FF) || (0xA000 ≤ ix && ix ≤ 0xA0FF)

/-- The object of a key as the module now serves it. -/
def State.object (s : State) (key : Nat) : Option ObjInfo :=
  if s.boot.steward = .recovery ∧ !recoveryIndex (key / 256) then none else objInfo key

/-! Values computed when they are read. -/

/-- Components of the active slot begin to run (R375); 5 is the settings format that comes with component 4. -/
def State.runComps (s : State) (cs : List Nat) : State :=
  let x := s.fw.slot s.fw.record.active
  let running := cs.foldl (fun (m : Tbl Nat) c => m.put 0 c (x.comp c).version) s.fw.running
  let running := if cs.contains 4 then running.put 0 5 x.settings else running
  { s with fw := { s.fw with running } }

/-- `boot_record` (R386). -/
def BootRec.word (r : BootRec) : Nat :=
  r.active % 2 + fld (b2n r.trial) 1 + fld (min 3 r.failed) 2 + fld (b2n r.recovery) 4 + fld (r.seq % 2 ^ 32) 32

/-- The unit of a section recorded as absent (R340). -/
def DumpSection.absent (x : DumpSection) : Bool := x.tile == none && x.die == none

/-- The bytes of a section after its header: none of an absent unit; else a free value, for the layout is not given. -/
def DumpSection.length (x : DumpSection) (layout : Nat) : Nat :=
  if x.absent then 0 else Config.freeNat "dump section" (layout * 65536 + x.unitClass * 8192 + x.phys) % 2 ^ 32

/-- A section's header (R341). -/
def DumpSection.header (x : DumpSection) (layout : Nat) : Nat :=
  x.phys % 8192 + fld (x.unitClass % 8) 13 + fld (b2n x.absent) 16 + fld (x.length layout) 32

/-- The bytes of sections in the dump area. -/
def sectionsSize (layout : Nat) (xs : List DumpSection) : Nat := xs.foldl (fun n x => n + (64 + x.length layout)) 0

/-- The bytes of a dump: a 4 KiB header and its sections (R341). -/
def Dump.size (x : Dump) : Nat := 4096 + sectionsSize x.layout x.sections

/-- The byte at an offset among sections: of a header (R341), or of what a section holds, a free value. -/
def sectionByte (layout : Nat) : List DumpSection → Nat → Nat
  | [], _ => 0
  | x :: xs, i =>
    if i < 64 then bits (x.header layout) (8 * i + 7) (8 * i)
    else if i < 64 + x.length layout then
      Config.freeNat "dump byte" ((layout * 65536 + x.unitClass * 8192 + x.phys) * 2 ^ 32 + (i - 64)) % 256
    else sectionByte layout xs (i - (64 + x.length layout))

/-- The byte at an offset of a dump; what its own header holds is not given. -/
def Dump.byte (x : Dump) (i : Nat) : Nat :=
  if i < 4096 then Config.freeNat "dump header" (x.layout * 4096 + i) % 256 else sectionByte x.layout x.sections (i - 4096)

/-- An element of `dump_index` (R341). -/
def Dump.word (x : Dump) : Nat :=
  (if x.done then 2 else 1) + fld (b2n x.protect) 2 + fld (x.cause % 256) 8 +
    fld ((x.sections.filter DumpSection.absent).length % 65536) 16 +
    fld (ceilDiv x.size 1024 % 2 ^ 32) 32 + fld (x.start % 2 ^ 64) 64

/-- An element of `migrate_state` (R287). -/
def Migration.word (x : Migration) : Nat :=
  if x.step = 0 then 0
  else x.step % 8 + fld (x.logical % 4096) 16 + fld (x.oldPhys % 8192) 28 + fld (x.spare % 8192) 41 + fld (x.start % 2 ^ 64) 64

/-- An element of `rotation_state` (R319). -/
def RotSlot.word (x : RotSlot) : Nat :=
  if x.step = 0 then 0
  else x.step % 8 + fld (x.phys % 8192) 3 + fld (x.logical.getD 0xFFF % 4096) 16 + fld (x.since % 2 ^ 64) 64

/-- Soft repairs not yet fused (R299). -/
def State.softRepairs (s : State) : Nat := (s.defects.list.filter fun x => x.disposition == 0).length

/-- Frames of a meadow's page store: those of every member of a cache-role meadow (R241). -/
def State.framesAll (s : State) (g : Nat) : Nat := if s.obe Ob.role g = 3 then (s.members g).length * s.pageFramesPer g else 0

/-- Those of them that are Free. -/
def State.framesFree (s : State) (g : Nat) : Nat :=
  s.framesAll g - ((s.members g).map fun l => (s.framesOn l).length).foldl (· + ·) 0

/-- `reset_status`: done only when the reset's end has come (R334). -/
def State.resetShown (s : State) : Nat :=
  let v := s.ob Ob.reset_status
  if s.now < bits v 191 128 then setBits (setBits v 3 3 0) 191 128 0 else v

/-- Occurrences of error reports of some kinds in the last 24 h, from the log and the records being folded (R326, R327). -/
def State.recent (s : State) (kinds : List Nat) : Nat :=
  let lately (time : Nat) : Bool := s.now - time < sec 86400
  sat 32 ((s.errs.log.map fun x =>
      if kinds.contains (bits x.2 15 0) && lately (bits x.2 127 64) then bits x.2 31 16 else 0).foldl (· + ·) 0 +
    (s.errs.folding.map fun r => if kinds.contains r.kind && lately r.time then r.count else 0).foldl (· + ·) 0)

/-- The margins measured, as I16 (R330). -/
def State.marginList (s : State) : List Int := s.test.margins.map fun x => signed 16 (s.obe Ob.margin x.1)

/-- `health_summary` (R331); retired in the field is retired for a defect whose source is not the factory. -/
def State.health (s : State) : Nat :=
  let retired := ((s.defects.list.filter fun x => x.disposition == 2 && x.source != 0).map (·.unit)).eraseDups.length
  let ms := s.marginList
  let low := ms.foldl min (ms.headD 0)
  s.recent [0x0100, 0x0101, 0x0102, 0x0103, 0x0104] + fld (s.recent [0x0103, 0x0104]) 32 + fld (s.recent [0x0110, 0x0111]) 64 +
    fld retired 96 + fld s.heath.length 128 + fld (unsigned 32 low) 160 +
    fld (ms.filter fun (m : Int) => m < (s.ob Ob.margin_warn : Nat)).length 192

/-- `map_proposed` (R306): its default before the first stage 5. -/
def State.proposedAt (s : State) (l : Nat) : Nat :=
  match s.boot.proposal with
  | some t => (Tbl.get none t l).getD (nominalMap s.variant l)
  | none => 0xFFFF

/-- What a read of element `e` of an object returns: a computed value, or the committed one (R254, R257). -/
def State.view (s : State) (key e : Nat) : Nat :=
  if key = Ob.dict_state then b2n (s.boot.steward == .booting)
  else if key = Ob.settings_pending then b2n s.dict.journalDue
  else if key = Ob.fuse_pending then s.softRepairs
  else if key = Ob.defect_count then s.defects.list.length
  else if key = Ob.defect_list then ((s.defects.list[e]?).map Defect.word).getD 0
  else if key = Ob.heath_count then s.heath.length
  else if key = Ob.tile_status then s.tileStatus e
  else if key = Ob.map_proposed then s.proposedAt e
  else if key = Ob.meadow_tiles then (s.members e).length
  else if key = Ob.page_frames then s.framesAll e
  else if key = Ob.page_free then s.framesFree e
  else if key = Ob.doorbell_pending then (s.doorbell e).vals.length
  else if key = Ob.errlog_window then s.logRecord (s.ob Ob.errlog_base + e)
  else if key = Ob.dump_index then ((s.dump e).map Dump.word).getD 0
  else if key = Ob.dump_window then
    match s.dump (bits (s.ob Ob.dump_select) 2 0) with
    | some x => leNat ((List.range 2048).map fun i => BitVec.ofNat 8 (x.byte (bits (s.ob Ob.dump_select) 31 3 * 2 ^ 27 + 2048 * e + i)))
    | none => 0
  else if key = Ob.migrate_state then (s.mig e).word
  else if key = Ob.rotation_state then (Tbl.get {} s.test.slots e : RotSlot).word
  else if key = Ob.boot_record then s.fw.record.word
  else if key = Ob.pattern_info then
    let v := Tbl.get 0 s.fw.running 3
    if v = 0 then 0 else Config.patternInfo v % 2 ^ 128
  else if key = Ob.health_summary then s.health
  else if key = Ob.commission_state then b2n s.commissioned
  else if key = Ob.slot_id_strap then s.boot.slotId
  else if key = Ob.strap_strict then b2n s.boot.strict
  else if key = Ob.fw_version then Tbl.get 0 s.fw.running e
  else if key = Ob.dict_format then max 1 (Tbl.get 0 s.fw.running 5)
  else if key = Ob.reset_status then s.resetShown
  else if key = Ob.fault_pending then
    match (s.job e).faults with
    | [] => 0
    | f :: fs => (1 + fs.length) % 65536 + fld (f.phys % 8192) 16 + fld (f.time % 2 ^ 64) 64
  else s.obe key e

/-- A read of an element: a WO object reads zero (R254). -/
def State.readElem (s : State) (o : ObjInfo) (e : Nat) : Nat := if o.acc = 2 then 0 else s.view o.key e

/-! Transactions of sources (R264, R271 to R273, R277). -/

/-- A source's transaction. -/
def State.txnOf (s : State) (n : Nat) : Txn := Tbl.get {} s.txn.txns n

/-- Changes a source's transaction. -/
def State.modTxn (s : State) (n : Nat) (f : Txn → Txn) : State :=
  { s with txn := { s.txn with txns := s.txn.txns.put {} n (f (s.txnOf n)) } }

/-- Elements staged under R272: those of no table. -/
def Txn.count (t : Txn) : Nat := (t.staged.filter fun x => (tableOf (x.1 / 65536)).isNone).length

/-- Writes [2:0] state, [15:8] reason and [31:16] staged of a source's `txn_status`, and its failing element (R277). -/
def State.txnStatus (s : State) (n state reason : Nat) (failing : Option Nat) : State :=
  let v := s.obe Ob.txn_status n
  let v := setBits (setBits (setBits v 2 0 state) 15 8 reason) 31 16 (s.txnOf n).count
  let v := match failing with
    | some k => setBits (setBits (setBits v 47 32 (k / 65536 / 256)) 55 48 (k / 65536 % 256)) 207 192 (k % 65536)
    | none => setBits (setBits v 55 32 0) 207 192 0
  s.putObe Ob.txn_status n v

/-- A source's transaction ends (R277): its tables are released and its values dropped. -/
def State.endTxn (s : State) (n state reason : Nat) (failing : Option Nat) : State :=
  let s := s.txnStatus n state reason failing
  { s with txn := { s.txn with
    txns := s.txn.txns.put {} n {}
    holder := s.txn.holder.filter fun h => h.2 != n + 1
    queue := s.txn.queue.filter fun c => c.why != .source n } }

/-- The steward's transactions that find their tables free stage into them and are queued, in order (R273, R274). -/
def State.takeOwn (s : State) : State :=
  s.txn.own.foldl (fun (s : State) (c : Commit) =>
    if (tablesOf c.values).all fun t => Tbl.get 0 s.txn.holder t == 0 then
      { s with txn := { s.txn with
        queue := s.txn.queue ++ [c]
        holder := (tablesOf c.values).foldl (fun (m : Tbl Nat) t => m.put 0 t ownHolder) s.txn.holder } }
    else { s with txn := { s.txn with own := s.txn.own ++ [c] } }) { s with txn := { s.txn with own := [] } }

/-- The current commit is a source's and its EPOCH notice has not been sent. -/
def State.commitOf (s : State) (n : Nat) : Bool :=
  match s.txn.current with
  | some c => c.why == .source n && c.step != .sent
  | none => false

/-- The EPOCH notice of a source's commit has been sent: it takes effect whatever happens (R277). -/
def State.commitSent (s : State) (n : Nat) : Bool :=
  match s.txn.current with
  | some c => c.why == .source n && c.step == .sent
  | none => false

/-- Aborts a source's open or committing transaction (R277); prepared buffers are discarded. -/
def State.abortTxn (s : State) (n reason : Nat) : State :=
  if (s.txnOf n).opened && !s.commitSent n then
    let s := if s.commitOf n then { s with txn := { s.txn with current := none } } else s
    s.endTxn n 4 reason none
  else s

/-- Stages values into a source's open transaction (R254, R272, R273). -/
def State.stage (s : State) (src : Source) (o : ObjInfo) (first : Nat) (vals : List Nat) : State × Nat :=
  match srcTxn src with
  | none => (s, 0x03)
  | some n =>
    let t := s.txnOf n
    if !t.opened ∨ t.committing then (s, 0x07)
    else
      let keys := (List.range vals.length).map fun i => elemKey o.key (first + i)
      let fresh := (keys.filter fun k => Tbl.get none t.staged k == none).length
      let put (s : State) : State :=
        (s.modTxn n fun t => { t with
          staged := (keys.zip vals).foldl (fun m x => Tbl.put none m x.1 (some x.2)) t.staged
          lastStage := s.now, conflict := t.conflict.filter fun k => !keys.contains k
          early := (t.early.filter fun k => !keys.contains k) ++
            if o.key = Ob.tile_meadow ∧ s.ob Ob.bringup_stage < 6 then keys else [] }).txnStatus n 1 0 none
      match tableOf o.key with
      | some tb =>
        let h := Tbl.get 0 s.txn.holder tb
        if h ≠ 0 ∧ h ≠ n + 1 then (s, 0x0D)
        else (put { s with txn := { s.txn with holder := s.txn.holder.put 0 tb (n + 1) } }, 0)
      | none => if 4096 < t.count + fresh then (s, 0x08) else (put s, 0)

/-- What READ_STAGED returns (R263). -/
def State.stagedElem (s : State) (src : Source) (o : ObjInfo) (e : Nat) : Nat :=
  match srcTxn src with
  | some n =>
    if o.acc = 4 ∧ (s.txnOf n).opened then
      match Tbl.get none (s.txnOf n).staged (elemKey o.key e) with
      | some v => v
      | none => s.readElem o e
    else s.readElem o e
  | none => s.readElem o e

/-! Writes (R254, R257, R258). -/

/-- What a write of an element of an RW, WO or W1C object does: the new state and the status. -/
abbrev Act := State → Source → Nat → Nat → Nat → State × Nat

/-- Sets an element of an RW object; a stored one is due in the journal (R255). -/
def State.putRw (s : State) (o : ObjInfo) (e v : Nat) : State :=
  let s := s.putObe o.key e v
  if o.pers = 1 then { s with dict := { s.dict with journalDue := true } } else s

/-- Writes the elements of an object in order; the first refusal is the request's. -/
def State.writeElems (act : Act) (src : Source) (o : ObjInfo) : State → Nat → List Nat → State × Nat
  | s, _, [] => (s, 0)
  | s, e, v :: vs =>
    if v < o.lo ∨ o.hi < v then (s, 0x04)
    else
      let r := act s src o.key e v
      if r.2 ≠ 0 then r else State.writeElems act src o r.1 (e + 1) vs

/-- A write request of an object (R254, R257, R258): whole or not at all. -/
def State.writeObject (act : Act) (s : State) (src : Source) (o : ObjInfo) (first : Nat) (vals : List Nat) : State × Nat :=
  if !mayWrite src o then (s, 0x03)
  else if o.acc = 0 then (s, 0x02)
  else if o.ty % 128 = 1 ∧ vals.any (1 < ·) then (s, 0x04)
  else if o.acc = 4 then s.stage src o first vals
  else
    let r := State.writeElems act src o s first vals
    if r.2 = 0 then r else (s, r.2)

/-- Records a refused request (R261, R269). -/
def State.refusal (s : State) (transport status index sub : Nat) : State :=
  (s.addObe Ob.dict_errors transport 1 64).putOb Ob.dict_last_error
    (transport + fld status 8 + fld (index % 65536) 16 + fld (sub % 256) 32 + fld (s.now % 2 ^ 64) 64)

/-! Dictionary messages (R263). -/

/-- The fields of a message fit their widths. -/
def reqFits (r : DictReq) : Bool :=
  r.op < 256 && r.index < 65536 && r.sub < 256 && r.first < 65536 && r.count < 65536 && r.length < 65536 && r.tag < 2 ^ 32

/-- The 32 B header of a message with a status (R263). -/
def reqHeader (r : DictReq) (status : Nat) : Bytes :=
  toLE 32 (r.op + fld status 8 + fld r.index 16 + fld r.sub 32 + fld r.first 48 + fld r.count 64 + fld r.length 80 + fld r.tag 96)

/-- The message that bytes spell: the header, and as many data bytes as its length says. `reserved` collects the status byte
and the reserved fields. -/
def reqOf (bs : Bytes) : DictReq :=
  let h := leNat (bs.take 32)
  { op := bits h 7 0, index := bits h 31 16, sub := bits h 39 32, first := bits h 63 48, count := bits h 79 64
    length := bits h 95 80, tag := bits h 127 96, reserved := bits h 15 8 + bits h 47 40 + bits h 255 128
    data := (bs.drop 32).take (bits h 95 80) }

/-- The values of a write's data, `size` bytes each. -/
def valuesOf (size : Nat) (bs : Bytes) : Nat → List Nat
  | 0 => []
  | n + 1 => leNat (bs.take size) :: valuesOf size (bs.drop size) n

/-- A request's outcome: the state, the status and the response's data (R263, R266, R268). -/
def State.serveReq (act : Act) (s : State) (src : Source) (r : DictReq) : State × Nat × Bytes :=
  let no (st : Nat) : State × Nat × Bytes := (s, st, [])
  let key := r.index * 256 + r.sub
  if r.op = 0 ∨ 5 < r.op ∨ r.reserved ≠ 0 ∨ 4032 < r.length ∨ r.data.length ≠ r.length then no 0x0B
  else if r.op = 5 then (if srcTransport src = 3 then (s, 0, []) else no 0x03)
  else if src = .i3c ∧ !i3cIndex r.index ∧ !(0xF000 ≤ r.index ∧ r.op ≠ 2) then no 0x03
  else if 0xF000 ≤ r.index then (if r.op = 2 then no 0x03 else (s, 0, toLE 8 0))
  else match s.object key with
    | none => no (if src = .i3c ∧ r.op = 2 then 0x03 else 0x01)
    | some o =>
      if r.op = 4 then (s, 0, toLE 8 o.header ++ toLE 8 (if o.scalar then objDefault s.fused key 0 else 0))
      else if (o.count = 0 ∧ (r.first ≠ 0 ∨ r.count ≠ 1)) ∨ r.count = 0 ∨ o.elems < r.first + r.count then no 0x05
      else if r.op = 2 then
        if r.length ≠ r.count * o.size then no 0x06
        else
          let w := s.writeObject act src o r.first (valuesOf o.size r.data r.count)
          (w.1, w.2, [])
      else if r.length ≠ 0 ∨ 4032 < r.count * o.size then no 0x06
      else
        (s, 0, ((List.range r.count).map fun i =>
          toLE o.size (if r.op = 3 then s.stagedElem src o (r.first + i) else s.readElem o (r.first + i))).flatten)

/-- Serves a request: a refusal is recorded (R269). -/
def State.serve (act : Act) (s : State) (src : Source) (r : DictReq) : State × DictResp :=
  let w := s.serveReq act src r
  let s := if w.2.1 = 0 then w.1 else w.1.refusal (srcTransport src) w.2.1 r.index r.sub
  (s, { status := w.2.1, req := { r with length := w.2.2.length, data := w.2.2 } })

/-- Gives a response to its transport (R265 to R267): the mailbox's buffer, done and MSI-X message; the I3C target; a session. A request
that takes the PCIe link down with it (D6, M4) leaves no response. -/
def State.respond (s : State) (src : Source) (x : DictResp) : State :=
  match src with
  | .bar0 => s
  | .mailbox =>
    if !s.host.linkUp then s
    else { s with
      dict := { s.dict with mbBuf := Mem.writeBytes s.dict.mbBuf 0 (reqHeader x.req x.status ++ x.req.data), mbDone := true }
      host := if s.dict.mbIe then { s.host with msix := s.host.msix ++ [s.dict.mbVector] } else s.host }
  | .i3c => { s with dict := { s.dict with i3cResp := some x } }
  | .session n => { s with dict := { s.dict with sessResp := s.dict.sessResp.put none n.val (some x) } }

/-- The steward, or in recovery mode the ROM, serves requests. -/
def State.serving (s : State) : Bool := s.boot.steward == .running || s.boot.steward == .recovery

/-- A session. -/
def State.sess (s : State) (n : Nat) : SessionSt := Tbl.get {} s.dict.sessions n

/-- Changes a session. -/
def State.modSess (s : State) (n : Nat) (f : SessionSt → SessionSt) : State :=
  { s with dict := { s.dict with sessions := s.dict.sessions.put {} n (f (s.sess n)) } }

/-- Ends a session; its transaction is aborted (R267, R270). -/
def State.endSession (s : State) (n : Nat) : State :=
  if (s.sess n).opened then (s.abortTxn (1 + n) 9).modSess n fun _ => {} else s

/-- A transport can bring a request: the mailbox and BAR0 need the PCIe link, I3C a steward on AUX. -/
def State.reaches (s : State) (src : Source) : Bool :=
  if srcPcie src then s.host.linkUp else s.boot.steward != .off && s.boot.steward != .booting

/-- A refusal with an answer. -/
def State.refuseReq (s : State) (src : Source) (r : DictReq) (status : Nat) : State :=
  (s.refusal (srcTransport src) status r.index r.sub).respond src { status, req := { r with length := 0, data := [] } }

/-- A dictionary message of a source is served, or answered 0x09 while the steward restarts (R262, R266, R267), or 0x0C outside a
session. -/
def dictMessage (act : Act) (src : Source) (r : DictReq) (s : State) : Out :=
  if !reqFits r ∨ src = .bar0 then .fault .malformedCommand
  else if !s.reaches src then s.noEvent
  else if s.boot.steward = .restarting then .next (s.refuseReq src r 0x09)
  else if !s.serving then s.noEvent
  else
    let opened := match src with
      | .session n => (s.sess n.val).opened
      | _ => true
    if !opened then .next (s.refuseReq src r 0x0C)
    else
      let s := match src with
        | .session n => s.modSess n.val fun x => { x with lastMsg := s.now }
        | _ => s
      let w := s.serve act src r
      .next (w.1.respond src w.2)

/-! BAR0 (R259 to R262). -/

/-- Bytes of BAR0. -/
def bar0Bytes : Nat := 128 * 1024 * 1024

/-- The object key of a BAR0 slot. -/
def slotKey (off : Nat) : Nat := off / 2048 * 256 + off % 2048 / 8

/-- The 8 bytes of a slot: the value of a scalar object, or the header word (R259, R260). -/
def State.slotWord (s : State) (off : Nat) : Nat :=
  if 0xF00000 ≤ slotKey off then 0
  else match s.object (slotKey off) with
    | some o => if o.scalar then s.readElem o 0 else o.header
    | none => 0

/-- A write to a slot that is not refused at once, and the status of one that is (R259, R261). -/
def State.slotWrite (act : Act) (s : State) (off size v : Nat) : State × Nat :=
  let key := slotKey off
  if size ≠ 8 ∨ off % 8 ≠ 0 then (s, 0x0B)
  else if 0xF00000 ≤ key then (s, 0x03)
  else match s.object key with
    | none => (s, 0x01)
    | some o =>
      if !o.scalar then (s, 0x03)
      else if 2 ^ (8 * o.size) ≤ v then (s, 0x04)
      else s.writeObject act .bar0 o 0 [v]

/-- A BAR0 write (R259, R261, R262). -/
def bar0Write (act : Act) (off size v : Nat) (s : State) : Out :=
  if bar0Bytes < off + size ∨ size = 0 ∨ 2 ^ (8 * size) ≤ v then .fault .malformedCommand
  else if !s.host.linkUp then s.noEvent
  else if s.boot.steward = .restarting then
    let s := s.addObe Ob.dict_errors 0 1 64
    .next { s with dict := { s.dict with restartRefusal := some (slotKey off) } }
  else if !s.serving then s.noEvent
  else
    let w := s.slotWrite act off size v
    .next (if w.2 = 0 then w.1 else s.refusal 0 w.2 (slotKey off / 256) (slotKey off % 256))

/-- A write of the dictionary. -/
def dictAccess (act : Act) (a : DictAccess) (s : State) : Out :=
  match a with
  | .bar0 off size v => bar0Write act off size v s
  | .msg src r => if r.op = 2 then dictMessage act src r s else .fault .malformedCommand

/-- The write of one element of an object by a source: a slot write over BAR0, a message elsewhere. -/
def accessOf (src : Source) (key e v : Nat) : DictAccess :=
  let size := match objInfo key with
    | some o => o.size
    | none => 0
  match src with
  | .bar0 => .bar0 (key / 256 * 2048 + key % 256 * 8) 8 v
  | _ => .msg src { op := 2, index := key / 256, sub := key % 256, first := e, count := 1, length := size, tag := 0, reserved := 0
                    data := toLE size v }

/-! The journal and the settings (R255, R256). -/

/-- The stored-settings partition after a journal record: every settable stored value (R255). -/
def storedOf (vals : Tbl (Option Nat)) : Tbl (Option Nat) :=
  vals.filter fun x => match objInfo (x.1 / 65536) with
    | some o => o.pers == 1 && (o.acc == 1 || o.acc == 4)
    | none => false

/-- The settings are journalled: every record in the running image's format, and while a trial is unconfirmed in the old one's too (R255,
R381). -/
def State.journalSettings (s : State) : State :=
  let recs := storedOf s.dict.vals
  { s with dict := { s.dict with
      stored := recs, storedOld := if s.fw.record.trial then some recs else s.dict.storedOld, journalDue := false } }

/-- A setting that exists only in the newer of the two formats: what the formats hold is not stated (log entry 43). -/
def newSetting (key : Nat) : Bool := Config.freeBool "setting of the new format only" key

/-- The old image finds the settings that the trial left in its format; those of the new format alone are dropped (R381). -/
def State.oldSettings (s : State) : State :=
  let recs := (s.dict.storedOld.getD s.dict.stored).filter fun x => !newSetting (x.1 / 65536)
  { s with dict := { s.dict with
      stored := recs, storedOld := none, vals := s.dict.vals.filter fun x => !newSetting (x.1 / 65536) } }

/-- The values that a cold start or a D6 leaves (R255, R256): what the settings partition stores, and the stored values that the
steward keeps itself. -/
def State.loadedVals (s : State) : Tbl (Option Nat) :=
  s.dict.vals.foldl (fun m x => match objInfo (x.1 / 65536) with
    | some o => if o.pers = 1 ∧ o.acc = 0 then Tbl.put none m x.1 x.2 else m
    | none => m) s.dict.stored

end Sys2Proof.Machine
end

