-- ==== Sys2Proof/Machine/CommitCheck.lean ====
section
/-! DEFINITION. The checks of a commit (R258, R274 step 1): ranges and encodings, variant rules, cross-object rules,
reachability, step-group slots. Each answers the reason of R277 and the failing element. -/

namespace Sys2Proof.Machine

/-- The state with values put over the committed ones: what a commit would leave. -/
def State.withValues (s : State) (vals : Tbl (Option Nat)) : State :=
  vals.foldl (fun s x => match x.2 with
    | some v => s.putObe (x.1 / 65536) (x.1 % 65536) v
    | none => s) s

/-- The elements of an object that are staged. -/
def stagedOf (vals : Tbl (Option Nat)) (key : Nat) : List Nat :=
  vals.filterMap fun x => if x.1 / 65536 = key then some (x.1 % 65536) else none

/-- An element that fails a condition, with a reason. -/
def badElem (es : List Nat) (ok : Nat → Bool) (key reason : Nat) : Option (Nat × Nat) :=
  (es.find? fun e => !ok e).map fun e => (reason, elemKey key e)

/-- The meadow that a logical tile belongs to in force. -/
def State.meadowAt (s : State) (l : Nat) : Option Nat :=
  if s.boot.meadowsUp ∧ s.obe Ob.tile_meadow l < 256 then some (s.obe Ob.tile_meadow l) else none

/-- A meadow has a graph image loaded. -/
def State.loaded (s : State) (g : Nat) : Bool := (s.job g).image.isSome

/-- A meadow's page store holds a frame that is not Free. -/
def State.pagesHeld (s : State) (g : Nat) : Bool := (s.members g).any fun l => s.framesOn l != []

/-! Ranges and encodings (reason 1). -/

/-- A power of two. -/
def powerOfTwo (v : Nat) : Bool := v != 0 && v &&& (v - 1) == 0

/-- The encoding of a value beyond the range its object states. -/
def encodingOk (key v : Nat) : Bool :=
  if key = Ob.map then v < 4608 || v == 0xFFFF
  else if key = Ob.tile_meadow then v < 256 || v == 0xFFFF
  else if key = Ob.spread_base ∨ key = Ob.rq_record_base ∨ key = Ob.rq_payload_base ∨ key = Ob.bar2_offset ∨ key = Ob.bar2_length
    then v % 4096 == 0
  else if key = Ob.rq_entries then v == 0 || (powerOfTwo v && 16 ≤ v && v ≤ 65536)
  else if key = Ob.rq_slot_size then v % 64 == 0 && v ≤ 65536
  else if key = Ob.step_group then
    v < 2 ^ 32 && !bit v 15 && (!bit v 0 || (1 ≤ bits v 4 2 && 1 ≤ bits v 7 5 && 2 ≤ bits v 14 8 && bits v 14 8 ≤ 64))
  else if key = Ob.step_release then (List.range 64).all fun i => bits v (32 * i + 31) (32 * i + 19) == 0
  else if key = Ob.ptp_port then v < 256 || v == 0xFFFF
  else true

/-- A staged value is in its object's range and encoding. -/
def valueOk (k v : Nat) : Bool :=
  match objInfo (k / 65536) with
  | some o => o.lo ≤ v && v ≤ o.hi && encodingOk o.key v
  | none => false

/-! Variant rules (reason 3). -/

/-- The roles that meadows hold. -/
def State.rolesHeld (s : State) : List Nat := ((List.range 256).map fun g => s.obe Ob.role g).filter (· != 0)

/-- R4, R204, R238, R303. -/
def State.variantCheck (a : State) (vals : Tbl (Option Nat)) : Option (Nat × Nat) :=
  if a.variant = 2 then badElem (stagedOf vals Ob.role) (fun g => a.obe Ob.role g == 0 || a.obe Ob.role g == 3) Ob.role 3
  else if a.variant = 1 then
    (badElem (stagedOf vals Ob.port_mode) (fun p => !(12 ≤ p % 16) || a.obe Ob.port_mode p == 0) Ob.port_mode 3).orElse fun _ =>
      (badElem (stagedOf vals Ob.map) (fun l => l < 3072 || a.physOf l == 0xFFFF) Ob.map 3).orElse fun _ =>
        badElem (stagedOf vals Ob.role) (fun g => a.obe Ob.role g == 0 || a.rolesHeld.all (· == a.obe Ob.role g)) Ob.role 3
  else none

/-! Cross-object rules (reason 2). -/

/-- A region `len` bytes long from a fabric address lies in one tile's cistern range, or in a meadow's spread space (R107, R221,
R361). -/
def State.regionOk (s : State) (g a len : Nat) : Bool :=
  match parseFab s.variant a with
  | some (.loc _ off) => off + len ≤ cisternBytes s.variant
  | some (.spread y) => y + len ≤ (s.members g).length * s.obe Ob.spread_granules g * 4096
  | _ => false

/-- A window's entries after a commit (R221, R225). -/
def windowOk (s a : State) (w : Nat) : Bool :=
  let same (key : Nat) : Bool := s.obe key w == a.obe key w
  if a.obe Ob.win_kind w = 0 then true
  else if s.obe Ob.win_kind w ≠ 0 then
    same Ob.win_kind && same Ob.win_meadow && same Ob.win_base && same Ob.win_length
  else s.obe Ob.win_state w != 2 && 1 ≤ a.obe Ob.win_length w &&
    (a.obe Ob.win_kind w != 1 || a.regionOk (a.obe Ob.win_meadow w) (a.obe Ob.win_base w) (a.obe Ob.win_length w))

/-- Every windows' element that a commit stages. -/
def windowKeys : List Nat :=
  [Ob.win_kind, Ob.win_meadow, Ob.win_base, Ob.win_length, Ob.win_perm, Ob.win_peers, Ob.win_remote, Ob.win_notify]

/-- A queue's entries after a commit (R360). -/
def queueOk (s a : State) (q : Nat) : Bool :=
  let same (key : Nat) : Bool := s.obe key q == a.obe key q
  let ready := a.obe Ob.rq_mode q != 1 || (a.obe Ob.rq_entries q != 0 && a.obe Ob.rq_slot_size q != 0)
  if s.obe Ob.rq_mode q = 0 then ready
  else a.obe Ob.rq_mode q == 0 ||
    (same Ob.rq_mode && same Ob.rq_meadow && same Ob.rq_record_base && same Ob.rq_payload_base && same Ob.rq_entries &&
      same Ob.rq_slot_size && same Ob.rq_vector)

/-- The objects of a queue. -/
def queueKeys : List Nat :=
  [Ob.rq_mode, Ob.rq_meadow, Ob.rq_record_base, Ob.rq_payload_base, Ob.rq_entries, Ob.rq_slot_size, Ob.rq_vector]

/-- An aperture entry after a commit: in its region, within BAR2's 64 GiB, overlapping no other (R361). -/
def apertureOk (a : State) (e : Nat) : Bool :=
  let off := a.obe Ob.bar2_offset e
  let len := a.obe Ob.bar2_length e
  len == 0 || (off + len ≤ 2 ^ 36 && a.regionOk (a.obe Ob.bar2_meadow e) (a.obe Ob.bar2_base e) len &&
    (List.range 64).all fun f =>
      f == e || a.obe Ob.bar2_length f == 0 || off + len ≤ a.obe Ob.bar2_offset f ||
        a.obe Ob.bar2_offset f + a.obe Ob.bar2_length f ≤ off)

/-- The objects of an aperture entry. -/
def apertureKeys : List Nat := [Ob.bar2_offset, Ob.bar2_length, Ob.bar2_base, Ob.bar2_perm, Ob.bar2_meadow]

/-- The first failing element of a group of objects. -/
def badOf (vals : Tbl (Option Nat)) (keys : List Nat) (ok : Nat → Bool) : Option (Nat × Nat) :=
  keys.findSome? fun key => badElem (stagedOf vals key) ok key 2

/-- The members of a meadow that are reached from some through logical neighbour links. -/
def spreadThrough (variant : Nat) (ms : List Nat) : Nat → List Nat → List Nat
  | 0, seen => seen
  | n + 1, seen =>
    let next := ms.filter fun m => !seen.contains m && (logicalNeighbours variant m).any seen.contains
    if next = [] then seen else spreadThrough variant ms n (seen ++ next)

/-- A meadow's members are connected (R311). -/
def State.meadowConnected (a : State) (g : Nat) : Bool :=
  match a.members g with
  | [] => true
  | m :: ms => (spreadThrough a.variant (m :: ms) 4096 [m]).length == (m :: ms).length

/-- A membership after a commit (R311); `a` has the memberships in force. -/
def membershipOk (s a : State) (l : Nat) : Bool :=
  let was := s.meadowAt l
  let now_ := a.meadowAt l
  let free (g : Option Nat) : Bool := match g with
    | some g => !s.loaded g
    | none => true
  (was == now_ || (6 ≤ s.ob Ob.bringup_stage && free was && free now_)) &&
    (match now_ with
      | some g => a.physOf l < 4608 && a.meadowConnected g
      | none => true) &&
    (match was with
      | some g => a.meadowConnected g
      | none => true)

/-- A map after a commit that stages it (R307). `moves` says that it may move tiles of a loaded meadow: a migration or a
re-placement does. -/
def mapElemOk (s a : State) (moves : Bool) (l : Nat) : Bool :=
  s.physOf l == a.physOf l ||
    match s.meadowAt l with
    | some g => a.physOf l < 4608 && (moves || !s.loaded g)
    | none => true

/-- The cross-object checks. -/
def State.crossCheck (s a : State) (vals : Tbl (Option Nat)) (moves : Bool) : Option (Nat × Nat) :=
  let es := stagedOf vals
  let maps := es Ob.map
  let mems := if s.boot.meadowsUp ∨ es Ob.tile_meadow = [] then es Ob.tile_meadow else List.range (logicalTiles s.variant)
  let up : State := { a with boot := { a.boot with meadowsUp := s.boot.meadowsUp || es Ob.tile_meadow != [] } }
  [ badElem (es Ob.role_id) (fun g => a.obe Ob.role_id g == 0xFFFF ||
      (List.range 256).all fun h => h == g || a.obe Ob.role_id h != a.obe Ob.role_id g) Ob.role_id 2,
    badElem (es Ob.role) (fun g => s.obe Ob.role g == a.obe Ob.role g || (!s.loaded g && !s.pagesHeld g)) Ob.role 2,
    badOf vals [Ob.page_size, Ob.page_kv_heads, Ob.page_head_width] (fun g =>
      8 ≤ a.pageTokens g && a.pageTokens g % 8 == 0 &&
        a.pageTokens g * a.pageHeads g * a.pageWidth g * 2 == a.pageSize g &&
        (!s.pagesHeld g || (s.obe Ob.page_size g == a.obe Ob.page_size g && s.pageHeads g == a.pageHeads g &&
          s.pageWidth g == a.pageWidth g))),
    badOf vals [Ob.spread_base, Ob.spread_granules] (fun g =>
      a.obe Ob.spread_base g + a.obe Ob.spread_granules g * 4096 ≤ cisternBytes a.variant),
    badOf vals [Ob.rto_base, Ob.rto_max] (fun _ => a.ob Ob.rto_base ≤ a.ob Ob.rto_max),
    badOf vals windowKeys (windowOk s up),
    badOf vals queueKeys (queueOk s a),
    badOf vals apertureKeys (apertureOk up),
    badElem mems (membershipOk s up) Ob.tile_meadow 2,
    badElem maps (mapElemOk s a moves) Ob.map 2,
    if maps = [] ∨ a.mapValid a.physOf (a.ob Ob.map_detour) then none else some (2, elemKey Ob.map (maps.headD 0))
  ].findSome? id

/-! Reachability and cycles (reason 5, R169). -/

/-- The routers beside one that its outputs lead to, or that lead to it, over links that are not fenced. -/
def State.linked (s : State) (back : Bool) (r : Nat) : List Nat :=
  (List.range 4).filterMap fun d => (meshNeighbour r d).bind fun q =>
    if (if back then bit (s.obe Ob.link_fence q) (opposite d) else bit (s.obe Ob.link_fence r) d) then none else some q

/-- The routers reached from some over unfenced links, or those that reach them. -/
def State.flood (s : State) (back : Bool) : Nat → List Nat → List Nat → List Nat
  | 0, _, seen => seen
  | n + 1, edge, seen =>
    let next := (edge.flatMap (s.linked back)).eraseDups.filter fun r => !seen.contains r
    if next = [] then seen else s.flood back n next (seen ++ next)

/-- The destinations that must be reached, each from each: the placed tiles whose routers work, and the 128 edge exits (R169, R296). -/
def State.destinations (s : State) : List Nat :=
  (((List.range (logicalTiles s.variant)).map s.physOf).filter fun p => p < 4608 && !s.routerDead p) ++
    (List.range 64).flatMap fun r => [r * 72, r * 72 + 71]

/-- No destination is unreachable, and the tables the steward derives hold no cycle (R169). -/
def State.routable (s : State) : Bool :=
  let links := s.fences (s.ob Ob.route_epoch == 1)
  if links = [] then true
  else
    let ds := s.destinations
    let from_ := [ds.headD 0]
    (List.range 64).all (fun r => !bit (s.obe Ob.link_fence (r * 72)) 3 && !bit (s.obe Ob.link_fence (r * 72 + 71)) 1) &&
      ds.all (s.flood false 4608 from_ from_).contains && ds.all (s.flood true 4608 from_ from_).contains && !Config.fencedCycle links

/-- Reason 5. -/
def State.routeCheck (a : State) (vals : Tbl (Option Nat)) : Option (Nat × Nat) :=
  let k : Option Nat := match stagedOf vals Ob.link_fence, stagedOf vals Ob.map with
    | e :: _, _ => some (elemKey Ob.link_fence e)
    | [], e :: _ => some (elemKey Ob.map e)
    | [], [] => none
  match k with
  | some k => if a.routable then none else some (5, k)
  | none => none

/-! Step groups (reason 13, R283). -/

/-- The home dies of the members that a root's step_release names. -/
def State.releaseHomes (a : State) (g : Nat) : List Nat :=
  let block := a.obe Ob.step_release g
  ((List.range (bits (a.obe Ob.step_group g) 14 8 - 1)).map fun i =>
    a.obe Ob.peer_home (bits (a.obe Ob.win_remote (bits block (32 * i + 11) (32 * i))) 11 0)).eraseDups

/-- At most 7 slots are enabled, and a root's members have one home. -/
def State.stepCheck (a : State) (vals : Tbl (Option Nat)) : Option (Nat × Nat) :=
  let on := (List.range 256).filter fun g => bit (a.obe Ob.step_group g) 0
  (if on.length ≤ 7 then none else (stagedOf vals Ob.step_group).head?.map fun e => (13, elemKey Ob.step_group e)).orElse fun _ =>
    badElem (stagedOf vals Ob.step_group) (fun g =>
      !bit (a.obe Ob.step_group g) 0 || !bit (a.obe Ob.step_group g) 1 || (a.releaseHomes g).length ≤ 1) Ob.step_group 13

/-- Step 1 of a commit: the reason and the failing element of the first check that fails. -/
def State.checkCommit (s : State) (vals : Tbl (Option Nat)) (moves : Bool) : Option (Nat × Nat) :=
  let a := s.withValues vals
  ((vals.find? fun x => !valueOk x.1 (x.2.getD 0)).map fun x => (1, x.1)).orElse fun _ =>
    (a.variantCheck vals).orElse fun _ => (s.crossCheck a vals moves).orElse fun _ =>
      (a.routeCheck vals).orElse fun _ => a.stepCheck vals

end Sys2Proof.Machine
end

