-- ==== Sys2Proof/Machine/Replies.lean ====
section
/-! DEFINITION. Replies of the mesh at the units that asked (R66, R118, R119, R180, R224, R225, R230, R233, R249, R345): the end of
a port die's work, and the commands READ_DATA, WRITE_ACK and SEND_DONE. -/

namespace Sys2Proof.Machine

/-! The end of a port die's work. -/

/-- A write accepted by a window is done with (R225): a closing window is closed when none is left at either die. -/
def State.windowDone (s : State) (d w : Nat) : State :=
  let s := s.modDie d fun x => { x with windows := x.windows.mod {} w fun y => { accepted := y.accepted - 1 } }
  let left (d : Nat) : Nat := (Tbl.get {} (s.die d).windows w : WinSt).accepted
  if s.obe Ob.win_state w = 2 ∧ left 0 = 0 ∧ left 1 = 0 then s.putObe Ob.win_state w 0 else s

/-- A GROUP_COMMIT's count and bytes are those that have landed: its ring phase begins (R230). -/
def State.groupMatch (s : State) (d e : Nat) : State :=
  match s.inGroup d e with
  | some x => match x.commit with
    | some f =>
      if !x.committing ∧ x.landed = f.count ∧ x.landedBytes = f.groupBytes then
        s.setInGroup d e (some { x with committing := true })
      else s
    | none => s
  | none => s

/-- A grouped write's C1 replies are in (R229, R230): landed, or refused for want of a group slot, which aborts the group. One of a group
that has given up its entry counts for none. -/
def State.groupLanded (s : State) (d e peer id reason : Nat) (noSlot : Bool) (len : Nat) : State :=
  match s.inGroup d e with
  | some x =>
    if x.peer ≠ peer ∨ x.id ≠ id then s
    else if noSlot then s.abortGroup d e
    else if reason ≠ 0 then s
    else (s.setInGroup d e (some { x with landed := x.landed + 1, landedBytes := x.landedBytes + len })).groupMatch d e
  | none => s

/-- Work of a port die has ended: every packet of it is answered. -/
def State.dieDone (s : State) (d key : Nat) : State :=
  match s.dieJob d key with
  | none => s
  | some j =>
    let s := s.modDie d fun x => { x with jobs := x.jobs.put none key none, inUse := x.inUse - j.total }
    match j.work with
    | .inWrite peer seq w group =>
      let g := s.windowMeadow w
      let s := match group with
        | some e => s.groupLanded d e.1 peer e.2 j.reason j.noSlot j.total
        | none => s
      let reason := if group.isSome ∧ j.noSlot then 0x0E else j.reason
      (s.peerReply d peer g 0 seq 1 reason []).windowDone d w
    | .inRead peer seq g len =>
      s.peerReply d peer g 0 seq 2 j.reason (if j.reason = 0 then j.bytes.readBytes 0 len else [])
    | .inSend peer seq g => s.peerReply d peer g 0 seq 3 j.reason []
    | .deliver k => if j.status = 0 then s.redDone d k else s.redRefused d k j.status
    | .pageWrite c g tile frame chunk gen => s.pageWritten d c g tile frame chunk gen j.reason
    | .pageRead c g tile frame =>
      let s := s.frameDone d (frameKey tile frame)
      if j.reason = 0 then s.pageAnswer d c g 7 0 0 (j.bytes.readBytes 0 4096) else s.pageRefuse d c g 7 j.reason
    | .forwarded _ _ _ _ _ _ => s
    | .cmdRead n => s.cmdLoaded d n j.reason j.bytes
    | .cmdWrite n => s.cmdWrote d n j.reason
    | .bar2Write => { s with host := { s.host with bar2Writes := s.host.bar2Writes.filter (· != key) } }
    | .bar2Read len => if j.reason = 0 then s.bar2Answer (j.bytes.readBytes 0 len) else s.bar2Fail len
    | .doorbell b => s.doorbellDone b j.status
    | .post q => s.postRead q j.reason j.bytes

/-- One packet of a port die's work is answered. -/
def State.dieReply (s : State) (d key status landing : Nat) (data : Bytes) : State :=
  match s.dieJob d key with
  | none => s
  | some j =>
    let j := { j with
      left := j.left - 1, reason := lowest j.reason (reasonOf status), status := lowest j.status status, noSlot := j.noSlot || status == 0x0B
      bytes := if status = 0 then j.bytes.writeBytes landing data else j.bytes }
    let s := s.modDie d fun x => { x with jobs := x.jobs.put none key (some j) }
    if j.left = 0 then s.dieDone d key else s

/-! Replies at tiles. -/

/-- A reply's reply space and tracker are free again (R174). -/
def State.releaseReply (s : State) (unit want : Nat) : State :=
  let r := s.replyState unit
  (s.setReplyState unit (r.1 - want) (r.2.1 - 1) r.2.2).spaceMarks unit

/-- The descriptor of a tile's pumps that a packet is outstanding for: (pump, job). -/
def Tile.jobOf (t : Tile) (n num : Nat) : Option PumpJob :=
  (t.pump n).jobs.find? fun j => j.outstanding.contains num

/-- A packet of a descriptor has failed (R119): nothing more of it is issued. -/
def State.pumpFail (s : State) (p n : Nat) (j : PumpJob) (status detail : Nat) : State :=
  let e := pumpErrOf status
  let gone := j.outstanding.filter fun k => match s.pkt k with
    | some x => x.loc == .ni && x.h.flow != dupFlow
    | none => false
  let s := gone.foldl (fun s k => s.dropPkt k) s
  let s := s.modTile p fun t => { t with ni := { t.ni with claim := t.ni.claim.filter fun c => !gone.contains c } }
  s.modTile p fun t => t.modJobAt n j.stamp fun x => { x with
    err := lowest x.err e, nack := if e = 6 then lowest x.nack detail else x.nack, stopped := true
    outstanding := x.outstanding.filter fun k => !gone.contains k }

/-- A reply to a pump's packet (R118, R119): data lands; a job that is gone takes nothing. -/
def State.pumpReply (s : State) (p num : Nat) (k : Packet) : State :=
  let n := k.h.flow
  match (s.tile p).jobOf n num with
  | none => s
  | some j =>
    if k.h.status ≠ 0 then s.pumpFail p n j k.h.status k.h.detail
    else if k.h.op = 0x10 then
      let before := (s.tile p).ni.dups.length
      let s := s.cisternWrite p k.landing (k.data.take k.want)
      let dups := (s.tile p).ni.dups.drop before
      s.modTile p fun t => t.modJobAt n j.stamp fun x =>
        { x with okBytes := x.okBytes + k.want, outstanding := x.outstanding ++ dups }
    else s.modTile p fun t => t.modJobAt n j.stamp fun x => { x with okBytes := x.okBytes + k.landing }

/-- A write's duplicate is acknowledged, or has failed (R345, R351): the WRITE_ACKs that waited for it go out. -/
def State.dupReply (s : State) (p num status : Nat) (dst off : Nat) : State :=
  let s := s.modTile p fun t => { t with ni := { t.ni with dups := t.ni.dups.filter (· != num) } }
  let s : State := match status, (s.tile p).meadow with
    | 0, _ => s
    | _, some g => (s.regions g).foldl (fun (s : State) (x : Nat × Nat) =>
        if regionPrecious x.2 && bit x.2 3 && bits x.2 27 16 == dst && bits x.2 86 64 ≤ off &&
            off < bits x.2 86 64 + bits x.2 127 96 && !bit x.2 192 then s.regionLost g x.1 else s) s
    | _, none => s
  let owed := (s.tile p).ni.owed.map fun o => { o with dups := o.dups.filter (· != num) }
  let done := owed.filter fun o => o.dups == []
  let s := s.modTile p fun t => { t with ni := { t.ni with owed := owed.filter fun o => o.dups != [] } }
  done.foldl (fun s o => match s.pkt o.request with
    | some k => s.answer o.request k p 0 0
    | none => s) s

/-- A reply for a unit: its reply space and tracker are released, the packet is gone. A tile that is no longer the one it is for, or is
being reset, does not act on it (R178). -/
def replyRow (n : PacketId) (op : Nat) (s : State) (tile : Packet → State → State) : Out :=
  match s.atSink n with
  | some k =>
    if k.h.cls ≠ 2 ∨ k.h.op ≠ op ∨ 4610 ≤ k.target then s.noEvent
    else if k.target < 4608 then
      let s1 := (s.consume n k).releaseReply k.target k.want
      .next ((if s.consumeCheck k.target k.h = 0 then tile k s1 else s1).settle k.target)
    else
      let d := k.target - 4608
      match s.dieJob d k.h.tag with
      | some { work := .forwarded _ _ _ _ _ _, .. } => s.noEvent
      | _ => .next (((s.consume n k).releaseReply k.target k.want).dieReply d k.h.tag k.h.status k.landing k.data)
  | none => s.noEvent

/-- READ_DATA (R118, R335). -/
def execReadData (n : PacketId) (s : State) : Out :=
  replyRow n 0x10 s fun k s => s.pumpReply k.target n k

/-- WRITE_ACK (R118, R225, R233, R345). A reply of C2 with another operation is discarded (R164). -/
def execWriteAck (n : PacketId) (s : State) : Out :=
  match s.atSink n with
  | some k =>
    if k.h.cls = 2 ∧ k.h.op ≠ 0x10 ∧ k.h.op ≠ 0x11 ∧ k.h.op ≠ 0x12 then .next (s.consume n k)
    else replyRow n 0x11 s fun k s =>
      if k.h.flow = dupFlow then s.dupReply k.target n k.h.status k.h.src k.landing else s.pumpReply k.target n k
  | none => s.noEvent

/-- SEND_DONE (R66, R180, R335): the sending task of the flow goes on with the status; a plain SEND counts it. -/
def execSendDone (n : PacketId) (s : State) : Out :=
  replyRow n 0x12 s fun k s =>
    let p := k.target
    let task := k.h.flow - 0x10
    let x := (s.tile p).task task
    match x.state, x.stall with
    | .stalled, some (.send seq d) =>
      if k.h.flow < 0x10 ∨ seq ≠ k.h.seq then s
      else
        let word := waitWord (s.tile p) task
        let st := sendStatusOf k.h.status
        let s := s.modTile p fun t =>
          let t := match d with
            | some r => t.modTask task fun x => x.setReg r (BitVec.ofNat 64 st)
            | none => if st = 0 then t else { t with seq := { t.seq with sendStat := t.seq.sendStat.mod 0 st (· + 1) } }
          t.modTask task fun x => { x with state := .ready, stall := none }
        s.advance p task word
    | _, _ => s

end Sys2Proof.Machine
end

