-- ==== Sys2Proof/Machine/Ports.lean ====
section
/-! DEFINITION. The commands of the Ethernet ports, of peers' discovery and of sequence spaces (R203 to R218, R237). -/

namespace Sys2Proof.Machine

/-! Ports and lanes (R203, R205). -/

/-- The sub-ports of a port in a mode: (sub-port within the port, its first lane, its lanes). -/
def modeSubs (mode : Nat) : List (Nat × Nat × Nat) :=
  if mode = 1 then [(0, 0, 8)]
  else if mode = 2 then [(0, 0, 4), (1, 4, 4)]
  else if mode = 3 then (List.range 8).map fun i => (i, i, 1)
  else []

/-- The half of a port in mode 1 that holds no failed lane: 0 lanes 0 to 3, 1 lanes 4 to 7. -/
def goodHalf (fails : Nat) : Option Nat :=
  if bits fails 3 0 = 0 then some 0 else if bits fails 7 4 = 0 then some 1 else none

/-! Fabric time's source (R237), here because it is lost with its sub-port. -/

/-- The state of a die's PTP clock in ptp_status: 0 free-running, 1 acquiring, 2 locked, 3 holdover; shown of the die that holds
fabric time. -/
def State.ptpShow (s : State) (i v : Nat) : State :=
  s.putOb Ob.ptp_status (setBits (s.ob Ob.ptp_status) (64 * i + 63) (64 * i) v)

/-- A die has a PTP sub-port of its own, and it is up. -/
def State.ptpUp (s : State) (d : Nat) : Bool :=
  let sp := s.obe Ob.ptp_port d
  sp < 256 && dieOfSub sp == d && s.subUp sp

/-- The die whose PTP clock disciplines fabric time: W, or E while W's PTP port is down. -/
def State.ptpDie (s : State) : Nat := if s.ptpUp 0 then 0 else 1

/-- A die's clock has no lock without its sub-port; fabric time whose source is lost so runs free, and `ptp_status` says so. -/
def State.ptpCheck (s : State) : State :=
  let s := [0, 1].foldl (fun s d => if s.ptpUp d then s else s.modDie d fun x => { x with ptp := { x.ptp with locked := false } }) s
  let d := s.ptpDie
  if (s.die d).ptp.locked then s.ptpShow 0 2
  else if !s.ptpUp d ∨ bits (s.ob Ob.ptp_status) 63 0 = 2 then s.ptpShow 0 0
  else s

/-- A sub-port's state changes for the worse and is reported (R205). -/
def State.portReport (s : State) (sp sub st : Nat) : State :=
  ((s.putObe Ob.port_state sp st).ptpCheck).raise {
    kind := 0x0500, phys := dieOfSub sp, unitClass := 4, subUnit := sub, detail := st }

/-- LANE_FAIL (R205). -/
def execLaneFail (port : Port) (lane : Fin 8) (s : State) : Out :=
  let mode := s.obe Ob.port_mode port
  let fails := s.obe Ob.port_lane_fail port ||| 2 ^ lane.val
  let unit := port.val * 8 + lane.val
  match (modeSubs mode).find? fun x => x.2.1 ≤ lane.val && lane.val < x.2.1 + x.2.2 with
  | none => s.noEvent
  | some x =>
    let sp := port.val * 8 + x.1
    let st := s.obe Ob.port_state sp
    let s1 := s.putObe Ob.port_lane_fail port fails
    if st = 6 then s.noEvent
    else if st = 0 ∨ st = 5 then .next s1
    else if mode ≠ 1 then .next (s1.portReport sp unit 5)
    else if (st = 3 ∧ 4 ≤ lane.val) ∨ (st = 4 ∧ lane.val < 4) then .next s1
    else if (st = 2 ∨ st = 1) ∧ (goodHalf fails).isSome then .next (s1.putObe Ob.port_state sp 1)
    else .next (s1.portReport sp unit 5)

/-- PORT_RETRAIN_DONE (R205): the port's sub-ports in training come up, in mode 1 at 400G where a lane has failed, or go down; in modes 2
and 3 one that holds a failed lane goes down. -/
def execPortRetrainDone (port : Port) (up : Bool) (s : State) : Out :=
  let mode := s.obe Ob.port_mode port
  let fails := s.obe Ob.port_lane_fail port
  let subs := (modeSubs mode).filter fun x => s.obe Ob.port_state (port.val * 8 + x.1) == 1
  if subs = [] then s.noEvent
  else .next (subs.foldl (fun (s : State) (x : Nat × Nat × Nat) =>
    let sp := port.val * 8 + x.1
    let st := if !up then 5 else if mode ≠ 1 then (if bits fails (x.2.1 + x.2.2 - 1) x.2.1 = 0 then 2 else 5)
      else if fails = 0 then 2
      else match goodHalf fails with
        | some 0 => 3
        | some _ => 4
        | none => 5
    if st = 2 then s.putObe Ob.port_state sp 2 else s.portReport sp (port.val * 8) st) s)

/-! Frames of other protocols (R206, R207). -/

/-- Puts a frame of another protocol on the wire. -/
def State.sendOther (s : State) (sp : Nat) (bs : Bytes) : State :=
  (s.countPort sp 1).modDie (dieOfSub sp) fun x => { x with others := x.others ++ [bs] }

/-- A type-length-value of LLDP. -/
def lldpTlv (ty : Nat) (v : Bytes) : Bytes := toBE 2 (ty * 512 + v.length) ++ v

/-- The LLDP frame of a sub-port (R207): chassis ID, port ID, TTL 4 s, the Cainaund TLV, end. The layout inside the Cainaund TLV is
the model's (log entry 14). -/
def State.lldpFrame (s : State) (sp : Nat) : Bytes :=
  let bound := ((List.range 256).filter fun g => s.obe Ob.role_id g != 0xFFFF).length
  s.ether sp 0x0180C200000E 0x88CC false <|
    lldpTlv 1 (BitVec.ofNat 8 7 :: toLE 16 (s.ob Ob.serial)) ++ lldpTlv 2 (BitVec.ofNat 8 7 :: toBE 1 sp) ++
    lldpTlv 3 (toBE 2 4) ++
    lldpTlv 127 (toBE 3 (Config.freeNat "cainaund oui" 0) ++ toBE 1 s.boot.slotId ++ toLE 16 (s.ob Ob.part_number) ++
      toLE 2 bound) ++ lldpTlv 0 []

/-- LLDP_TRANSMIT (R207): 1 s after the sub-port's last. -/
def execLldpTransmit (sp : SubPort) (s : State) : Out :=
  let d := dieOfSub sp
  let last := Tbl.get 0 (s.die d).lldpAt sp
  if s.subUp sp ∧ (last = 0 ∨ sec 1 ≤ s.now + 1 - last) then
    .next ((s.sendOther sp (s.lldpFrame sp)).modDie d fun x => { x with lldpAt := x.lldpAt.put 0 sp (s.now + 1) })
  else s.noEvent

/-- LLDP_RECEIVE (R207): the last LLDPDU, up to 1,500 B. -/
def execLldpReceive (sp : SubPort) (pdu : Bytes) (s : State) : Out :=
  if s.subUp sp then .next ((s.countPort sp 0).putObe Ob.lldp_neighbour sp (leNat (pdu.take 1500))) else s.noEvent

/-- ARP_ND_FRAME (R206): a request for one of the sub-port's own addresses is answered with its MAC address; one for another is dropped
and counted. -/
def execArpNdFrame (sp : SubPort) (f : ArpNd) (s : State) : Out :=
  if !f.wf then .fault .malformedCommand
  else if !s.subUp sp then s.noEvent
  else
    let v4 := s.obe Ob.port_ipv4 sp
    let v6 := s.obe Ob.port_ipv6 sp
    let mac := s.obe Ob.port_mac sp
    let s1 := s.countPort sp 0
    if !f.isRequest then .next s1
    else if v4 ≠ 0 ∧ f.target = v4 then
      .next (s1.sendOther sp (s.ether sp f.senderMac 0x0806 true (toBE 8 0x0001080006040002 ++ toBE 6 mac ++ toBE 4 v4 ++
        toBE 6 f.senderMac ++ toBE 4 f.senderIp)))
    else if v6 ≠ 0 ∧ f.target = v6 then
      .next (s1.sendOther sp (s.ether sp f.senderMac 0x86DD true (s.icmp sp 136 136 f.senderIp
        (toBE 4 0x60000000 ++ toLE 16 v6 ++ toBE 2 0x0201 ++ toBE 6 mac))))
    else .next (s1.countPort sp 4)

/-- ICMP_ECHO_REQUEST (R206): a request to one of the sub-port's own addresses is answered with its data; one to another, or whose answer
would be longer than 4,208 B, is dropped and counted. -/
def execIcmpEchoRequest (sp : SubPort) (f : Echo) (s : State) : Out :=
  if !f.wf then .fault .malformedCommand
  else if !s.subUp sp then s.noEvent
  else
    let s1 := s.countPort sp 0
    let own := if f.v6 then s.obe Ob.port_ipv6 sp else s.obe Ob.port_ipv4 sp
    let back := if f.v6 then f.src else v4Block f.src
    if own = 0 ∨ f.dst ≠ own then .next (s1.countPort sp 4)
    else if 4208 < (if f.v6 then 44 else 24) + f.data.length then .next (s1.countPort sp 8)
    else .next (s1.sendOther sp (s.ether sp (s.nextHop sp back) (etherType back) true (s.icmp sp 0 129 back f.data)))

/-- PAUSE_PFC_FRAME (R206). -/
def execPausePfcFrame (sp : SubPort) (s : State) : Out :=
  if s.subUp sp then .next ((s.countPort sp 0).countPort sp 9) else s.noEvent

/-- OTHER_FRAME (R206, R211). -/
def execOtherFrame (sp : SubPort) (cause : DropCause) (s : State) : Out :=
  if s.subUp sp then
    let i := match cause with
      | .unknownType => 4
      | .udpChecksum => 5
      | .badVersion => 6
      | .badKind => 7
      | .tooLong => 8
    .next ((s.countPort sp 0).countPort sp i)
  else s.noEvent

/-! Fabric time (R237). -/

/-- No meadow is running. -/
def State.noneRunning (s : State) : Bool := (List.range 256).all fun g => s.obe Ob.job_state g != 2

/-- Fabric time is corrected by `c` ns: a step forward only while no meadow is running, else slewed. -/
def State.correctTime (s : State) (c : Int) : State :=
  if 0 < c ∧ s.noneRunning then
    ({ s with now := (s.now + c.toNat) % 2 ^ 64, slew := 0 }).ptpShow 3 (bits (s.ob Ob.ptp_status) 255 192 + 1)
  else { s with slew := c }

/-- A Delay_Req of a sub-port, by the transport that `ptp_transport` names (R237): the common header, an origin timestamp of zero. The
port identity is made of the MAC address; addresses, ports and codes are IEEE 1588's (log entry 54). -/
def State.delayRequest (s : State) (sp n : Nat) : Bytes :=
  let mac := toBE 6 (s.obe Ob.port_mac sp)
  let msg := toBE 2 0x0112 ++ toBE 2 44 ++ toBE 1 (s.ob Ob.ptp_domain) ++ toBE 15 0 ++ mac.take 3 ++ toBE 2 0xFFFE ++ mac.drop 3 ++
    toBE 2 1 ++ toBE 2 n ++ toBE 1 1 ++ toBE 1 0x7F ++ toBE 10 0
  let sent (group dst : Nat) : Bytes := s.ether sp dst (etherType group) true (s.ipPacket sp 0 17 group (s.udp sp 319 319 group msg))
  match s.ob Ob.ptp_transport with
  | 0 => sent (leNat (toBE 16 0xFF0E0000000000000000000000000181)) 0x333300000181
  | 1 => sent (v4Block 0xE0000181) 0x01005E000181
  | _ => s.ether sp 0x011B19000000 0x88F7 false msg

/-- PTP_FRAME (R237): the delay request-response mechanism, slave only. A Sync is followed by a Delay_Req; its answer gives the
offset ((t2 − t1) − (t4 − t3)) / 2. -/
def execPtpFrame (sp : SubPort) (f : Ptp) (s : State) : Out :=
  let d := dieOfSub sp
  if !f.wf then .fault .malformedCommand
  else if !s.subUp sp then s.noEvent
  else
    let s1 := s.countPort sp 0
    let dom := s.ob Ob.ptp_domain
    let x := (s.die d).ptp
    if s.obe Ob.ptp_port d ≠ sp then .next s1
    else match f with
      | .delayReq _ => .next s1
      | .sync n t1 =>
        if n ≠ dom then .next s1
        else
          let s2 := (s1.sendOther sp (s.delayRequest sp (x.asked + 1))).modDie d fun y =>
            { y with ptp := { y.ptp with t1, t2 := s.now, t3 := s.now, asked := x.asked + 1 } }
          .next (if d = s.ptpDie ∧ !x.locked then s2.ptpShow 0 1 else s2)
      | .delayResp n t3 t4 =>
        if n ≠ dom ∨ t3 ≠ x.t3 then .next s1
        else
          let a : Int := (x.t2 : Int) - x.t1
          let b : Int := (t4 : Int) - t3
          let offset := (a - b) / 2
          let s2 := s1.modDie d fun y => { y with ptp := { y.ptp with locked := true } }
          if d ≠ s.ptpDie then .next s2
          else .next ((((s2.ptpShow 0 2).ptpShow 1 (unsigned 64 offset)).ptpShow 2 (unsigned 64 ((a + b) / 2))).correctTime
            (-offset))
      | .announceLost n =>
        if n ≠ dom then .next s1
        else
          let s2 := s1.modDie d fun y => { y with ptp := { y.ptp with locked := false } }
          .next (if d = s.ptpDie then s2.ptpShow 0 (if x.locked then 3 else 0) else s2)

/-! Discovery (R210). -/

/-- The lowest-numbered meadow that is bound to an endpoint. -/
def State.firstEndpoint (s : State) : Option Nat := (List.range 256).find? fun g => s.obe Ob.role_id g != 0xFFFF

/-- HELLO_SEND (R210): after a hello period, a hello to each bound peer of the die on a fresh source port, from the first bound endpoint
(log entry 23). -/
def execHelloSend (die : Die) (s : State) : Out :=
  let due : Bool := match (s.die die).helloAt with
    | some t => us (s.ob Ob.hello_period) ≤ s.now - t
    | none => true
  match s.firstEndpoint with
  | none => s.noEvent
  | some g =>
    if !due then s.noEvent
    else
      let s1 := s.modDie die fun x => { x with helloAt := some s.now }
      .next ((s.peersOf die).foldl (fun s i => s.transmitTo die i (s.address g i (blankFrame die 2))) s1)

/-- HELLO (R210). -/
def execHello (f : Frame) (s : State) : Out :=
  if !f.wf then .fault .malformedCommand
  else match s.inbound f 2 with
    | .noFrame => s.noEvent
    | .gone s1 => .next s1
    | .taken s1 i => .next (s1.transmitTo f.die.val i { blankFrame f.die.val 3 with
        dstRole := f.srcRole, dstEpoch := f.srcEpoch, srcRole := f.dstRole, srcEpoch := f.dstEpoch })

/-- HELLO_REPLY (R210). -/
def execHelloReply (f : Frame) (s : State) : Out :=
  if !f.wf then .fault .malformedCommand
  else match s.inbound f 3 with
    | .noFrame => s.noEvent
    | .gone s1 => .next s1
    | .taken s1 _ => .next s1

/-- A peer becomes unreachable and is reported (R210). -/
def State.peerLost (s : State) (d i : Nat) : State :=
  if 2 ≤ s.obe Ob.peer_state i then s
  else (s.putObe Ob.peer_state i 2).raiseDie d 0x0501 i

/-- PEER_HELLO_TIMEOUT (R210): three hello periods without a packet. -/
def execPeerHelloTimeout (peer : Peer) (s : State) : Out :=
  let d := s.obe Ob.peer_home peer
  if s.bound peer ∧ s.obe Ob.peer_state peer = 1 ∧ us (3 * s.ob Ob.hello_period) ≤ s.now - (s.peer d peer).lastHeard then
    .next (s.peerLost d peer)
  else s.noEvent

/-! Acknowledgement and retransmission (R213 to R218). -/

/-- An ACK covers a sequence. -/
def ackCovers (f : Frame) (seq : Nat) : Bool :=
  let back := (f.cumulative + 2 ^ 32 - seq) % 2 ^ 32
  let ahead := (seq + 2 ^ 32 - (f.cumulative + 1)) % 2 ^ 32
  (0 < back && back < 2 ^ 31) || (ahead < 64 && bit f.sack ahead)

/-- The congestion window after an ACK (R218): a CE echo halves it at most once per round trip, else it grows by 64 KiB per round
trip. -/
def PeerSt.afterAck (x : PeerSt) (now rtt : Nat) (ce : Bool) : PeerSt :=
  if ce then
    if rtt ≤ now - x.halvedAt then { x with cwnd := max 65536 (x.cwnd / 2), halvedAt := now, cwndAt := now } else x
  else if rtt ≤ now - x.cwndAt then { x with cwnd := min (16 * 1048576) (x.cwnd + 65536), cwndAt := now }
  else x

/-- ACK (R213, R214, R218): with a CE echo the source ports of the packets that it covers are barred. -/
def execAck (f : Frame) (s : State) : Out :=
  if !f.wf then .fault .malformedCommand
  else match s.inbound f 1 with
    | .noFrame => s.noEvent
    | .gone s1 => .next s1
    | .taken s1 i =>
      let d := f.die.val
      let s2 := if f.ceEcho then s1.countPeer i 4 else s1
      let covered := (((s2.peer d i).space f.space).unacked.filter fun u => ackCovers f u.seq).map (·.frame.port)
      let s3 := s2.modPeer d i fun x =>
        ((x.modSpace f.space fun y => { y with unacked := y.unacked.filter fun u => !ackCovers f u.seq }).bar s.now
          (if f.ceEcho then covered else [])).afterAck s.now (s.now - f.sendTime) f.ceEcho
      .next ((List.range 4).foldl (fun s sp => s.sendHeld d i sp ((s.peer d i).space sp).held.length) s3)

/-- ACK_TIMER (R214): 2 µs after the first packet that no ACK has covered. -/
def execAckTimer (die : Die) (peer : Peer) (space : Space) (s : State) : Out :=
  let y := (s.peer die peer).space space
  if 0 < y.rxSinceAck ∧ us 2 ≤ s.now - y.rxFirstAt then .next (s.sendAck die peer space) else s.noEvent

/-- How the unit that asked for a request is told that it has ended with a reason and data (R216, R222, R228, R233, R235, R249,
R282). -/
def State.tellRequest (s : State) (d : Nat) (r : OutReq) (reason : Nat) (payload : Bytes) : State :=
  let back (h : Header) : State := match s.pkt h.tag with
    | some k =>
      if reason ≠ 0 then s.answer h.tag k (4608 + d) 0x09 reason
      else if h.op = 1 then s.reply h.tag k (4608 + d) 0x10 0 0 payload
      else s.answer h.tag k (4608 + d) 0 0
    | none => s
  match r.why with
  | .access h => back h
  | .groupControl h => back h
  | .remoteSend h => back h
  | .forward key => if reason = 0 then s.redDone d key else s.redRefused d key reason
  | .page n tag => s.cmdReply d n tag reason payload
  | .stepMsg => s
  | .push => if reason = 0 then s else s.addRec Ob.errlog_lost 0 2 1

/-- RETRANSMIT_TIMEOUT (R215, R218, R236, R337): resent with twice the timeout, on another sub-port, to the next address and from another
source port, the old one barred; nothing is sent again to a fenced peer. At the expiry that retry_limit counts (with the defaults after 2,540 µs) it is given up, the
peer is unreachable, and its request completes with 0x13. -/
def execRetransmitTimeout (die : Die) (peer : Peer) (space : Space) (seq : Nat) (s : State) : Out :=
  let d := die.val
  let y := (s.peer d peer).space space
  match y.unacked.find? fun u => u.seq == seq with
  | none => s.noEvent
  | some u =>
    if s.now - u.sentAt < u.timeout ∨ s.peerFenced peer then s.noEvent
    else if s.ob Ob.retry_limit ≤ u.tries + 1 then
      let mine (r : OutReq) : Bool := r.peer == peer.val && r.space == space.val && r.seq == seq
      let gone := (s.die d).outReqs.filter mine
      let s1 := (s.modPeer d peer fun x => x.modSpace space fun y =>
        { y with unacked := y.unacked.filter fun v => v.seq != seq }).peerLost d peer
      let s2 := s1.failOut d mine 0x13 fun s r reason => s.tellRequest d r reason []
      .next (gone.foldl (fun s3 r =>
        let g := r.meadow
        (s3.raise { kind := 0x0806, phys := d, unitClass := 4, meadow := if g < 256 then g else 0xFF,
                    detail := peer }).hangFound g 3) s2)
    else
      let sub := s.drawSub d (some u.frame.subPort.val)
      let f := { s.direct d peer u.frame.port u.frame with retx := true, subPort := subOf (sub.getD u.frame.subPort.val) }
      let v : TxPkt := { u with
        frame := f, tries := u.tries + 1, sentAt := s.now, timeout := min (us (s.ob Ob.rto_max)) (2 * u.timeout) }
      let s1 := (s.modPeer d peer fun x =>
        { (x.modSpace space fun y => { y with unacked := y.unacked.map fun w => if w.seq = seq then v else w }).bar s.now [u.frame.port] with
          cwnd := 65536, cwndAt := s.now }).directed d peer f
      .next ((s1.countPeer peer 2).wire d sub f)

end Sys2Proof.Machine
end

