-- ==== Sys2Proof/Machine/Routes.lean ====
section
/-! DEFINITION. The physical routes of stream links and of migrations' standpipes over the tiles between (R136, R157, R161): the entries
that the steward writes there, the lanes they take, the choice of a spare under the detour rule (R157). Of several shortest paths the
steward's choice is the model's (DESIGN CHOICE; log entry 53). -/

namespace Sys2Proof.Machine

/-! Paths (R134, R304). -/

/-- Hops enough for any shortest path of the mesh. -/
def maxHops : Nat := 4608

/-- The physical hops from a tile to another, over unfenced links. -/
def State.hopsTo (s : State) (goal p : Nat) : Option Nat := s.pathLen goal maxHops 0 [p] []

/-- The tiles on a shortest path from a tile to another, the last one included: at each step one hop on, or over a bypass where no
one hop leads nearer. -/
def State.pathFrom (s : State) (goal : Nat) : Nat → Nat → List Nat
  | 0, _ => []
  | fuel + 1, p =>
    if p = goal then []
    else
      let near (xs : List Nat) (n : Nat) : Option Nat := xs.find? fun x => s.hopsTo goal x == some n
      match s.hopsTo goal p with
      | none => []
      | some n => match near (s.oneHop p) (n - 1) with
        | some x => x :: s.pathFrom goal fuel x
        | none => match near (s.twoHops p) (n - 2) with
          | some x => x :: s.pathFrom goal fuel x
          | none => []

/-- The tiles between two tiles. -/
def State.between (s : State) (p q : Nat) : List Nat := (s.pathFrom q maxHops p).dropLast

/-! Lanes (R135, R136, R157). -/

/-- Entries for links at tiles between, as (tile, entry). -/
abbrev Laid := List (Nat × Relay)

/-- The declared D of the image of the meadow whose role a physical tile holds. -/
def State.imageAt (s : State) (p : Nat) : Option Nat := (s.roleOf p).bind s.imageD

/-- The lane on which a tile carries a link's lane on to the next: without a role the same, with a role a detour lane that no other
entry has there; none where both are taken (R136, R157). -/
def State.laneFor (s : State) (laid : Laid) (p next lane : Nat) : Option Nat :=
  if (s.roleOf p).isNone then some lane
  else if s.imageAt p = some 0 then none
  else [6, 7].find? fun x => !laid.any fun y => y.1 == p && y.2.next == next && y.2.lane == x

/-- A link's entries at the tiles between, in order, `q` its end; none where a tile has no lane for it. -/
def State.layPath (s : State) (link lane q : Nat) : Laid → List Nat → Option Laid
  | laid, [] => some laid
  | laid, x :: xs =>
    let next := xs.headD q
    match s.laneFor laid x next lane with
    | some y => s.layPath link lane q (laid ++ [(x, { link, lane := y, next })]) xs
    | none => none

/-- The outputs of the slots of a tile that a route or a standpipe's head uses. -/
def usedOutputs (slots : Mem) : List Nat :=
  (List.range 40).filter fun o => (List.range 8).any fun n =>
    ((List.range 40).any fun e =>
      let r := slots.readLE (4096 * n + 0x40 + 4 * e) 4
      entryOn r && e ≤ o && o < e + entryGang r && (decide (e < 32) == decide (o < 32))) ||
    (List.range 4).any fun i =>
      let r := slots.readLE (4096 * n + 0x2C0 + 16 * i) 16
      let lead := 8 * bits r 4 2 + bits r 7 5
      bit r 0 && !bit r 1 && lead ≤ o && o < lead + pipeGang r

/-- The physical tile at the end of a logical link. -/
def State.linkTile (s : State) (l o : Nat) : Option Nat :=
  match s.linkEnd l o with
  | .lane q _ => if q < 4608 then some q else none
  | .relay _ _ => none
  | .sink _ => none
  | .nowhere => none

/-- The tiles between the ends of a logical link; a bypass output whose end is two positions away in a straight line has none. -/
def State.linkPath (s : State) (l o : Nat) : List Nat :=
  match s.linkTile l o with
  | some q =>
    if 32 ≤ o ∧ (s.twoHops (s.physOf l)).contains q then [] else s.between (s.physOf l) q
  | none => []

/-- Lays a link's lane: (entries, all of them could be laid). -/
def State.layLink (s : State) (x : Laid × Bool) (link : Nat × Nat) : Laid × Bool :=
  let lane := if link.2 < 32 then link.2 % 8 else 6 + link.2 % 2
  match s.linkTile link.1 link.2 with
  | some q => match s.layPath (8192 * link.1 + link.2) lane q x.1 (s.linkPath link.1 link.2) with
    | some y => (y, x.2)
    | none => (x.1, false)
  | none => x

/-- The links that the images' slots of a meadow's tiles use. -/
def State.meadowLinks (s : State) (g : Nat) : List (Nat × Nat) :=
  (s.members g).flatMap fun l => (usedOutputs (s.tile (s.physOf l)).slots).map fun o => (l, o)

/-- The entries of links that are none of a meadow's. -/
def State.otherLaid (s : State) (g : Nat) : Laid :=
  s.tiles.flatMap fun x => (x.2.relays.filter fun r => !(s.members g).contains (r.link / 8192)).map fun r => (x.1, r)

/-- The entries for links beside those of other meadows. -/
def State.layAll (s : State) (g : Nat) (links : List (Nat × Nat)) : Laid × Bool := links.foldl s.layLink (s.otherLaid g, true)

/-- The words on the tiles between of a link, nearest to its end first. -/
def State.relayWords (s : State) (link : Nat) : Nat → Nat → List StreamWord
  | 0, _ => []
  | fuel + 1, q => match (s.tile q).relay link with
    | some r => s.relayWords link fuel r.next ++ r.words
    | none => []

/-- The steward rewrites the entries of a meadow's links (R136): at load, at a re-placement, at a migration's instant. Words that were
on their way are at the link's end then. -/
def State.layRoutes (s : State) (g : Nat) : State :=
  let links := s.meadowLinks g
  let onWay := links.map fun x => (x, s.relayWords (8192 * x.1 + x.2) 17 (Tbl.get 0 (s.tile (s.physOf x.1)).stream.via x.2 - 1))
  let laid := (s.layAll g links).1
  let s := s.tiles.foldl (fun s x => s.modTile x.1 fun t => { t with relays := [] }) s
  let s := laid.foldl (fun s x => s.modTile x.1 fun t => { t with relays := t.relays ++ [x.2] }) s
  let s := links.foldl (fun s x => s.modTile (s.physOf x.1) fun t =>
    let q := (laid.find? fun y => y.2.link == 8192 * x.1 + x.2).map (·.1)
    { t with stream := { t.stream with via := t.stream.via.put 0 x.2 (match q with
      | some q => q + 1
      | none => 0) } }) s
  onWay.foldl (fun s x => x.2.foldl (fun s w => s.destPut 0 w (s.linkEnd x.1.1 x.1.2)) s) s

/-- The routes of every loaded image are written anew. -/
def State.layAllRoutes (s : State) : State :=
  s.jobs.foldl (fun s j => if j.2.image.isSome then s.layRoutes j.1 else s) s

/-- The standpipe of a fill that has still to end passes a tile (R350). -/
def State.fillThrough (s : State) (p : Nat) : Bool :=
  s.jobs.any fun j => j.2.fills.any fun f =>
    let a := s.physOf f.fromTile
    let b := s.physOf f.toTile
    p == a || p == b || (s.between a b).contains p

/-- Whether a stream route, detour or standpipe passes a tile (R316, R334). -/
def State.routeThrough (s : State) (p : Nat) : Bool :=
  s.fillThrough p ||
  (s.migs.any fun m => m.2.step != 0 && (m.2.oldPhys == p || m.2.spare == p)) || (s.tile p).relays != [] ||
    ((s.imageAt p).isSome && usedOutputs (s.tile p).slots != [])

/-! Standpipes of migrations (R161). -/

/-- Both detour lanes are free on a path from the old tile to the spare. -/
def State.pipeFree (s : State) (p q : Nat) : Bool :=
  let path := s.between p q
  let laid := s.otherLaid 256
  (path.zip (path.drop 1 ++ [q])).all fun x =>
    (s.roleOf x.1).isNone || (s.imageAt x.1 != some 0 && !laid.any fun y => y.1 == x.1 && y.2.next == x.2)

/-- The steward sets up a migration's standpipe on lanes 6 and 7. -/
def State.layPipe (s : State) (m p q : Nat) : State :=
  let path := s.between p q
  (path.zip (path.drop 1 ++ [q])).foldl (fun s x => s.modTile x.1 fun t =>
    { t with relays := t.relays ++ [6, 7].map fun lane => { link := migLink m lane, lane, next := x.2 } }) s

/-! The choice of a spare (R157, R284, R305). -/

/-- With a logical tile at another place, lanes 6 and 7 carry every detour of its graph's links. -/
def State.lanesSuffice (s : State) (l p : Nat) : Bool :=
  let g := s.obe Ob.tile_meadow l
  (s.imageD l).isNone || ((s.putObe Ob.map l p).layAll g (s.meadowLinks g)).2

/-- The detour that a link of a running logical tile may have: that of its image within its meadow, else of the map. -/
def State.linkBound (s : State) (l n : Nat) : Nat :=
  if s.obe Ob.tile_meadow n = s.obe Ob.tile_meadow l then min ((s.imageD l).getD (s.ob Ob.map_detour)) (s.ob Ob.map_detour)
  else s.ob Ob.map_detour

/-- The spare for a running logical tile (R157, R284, R305), for a migration (`pipe`) one to which a standpipe can be set up. -/
def State.chooseSpare (s : State) (l : Nat) (pipe : Bool) : Option Nat :=
  let fit := s.heath.filter fun p => s.lanesSuffice l p && (!pipe || s.pipeFree (s.physOf l) p)
  bestOf (s.candidates fit s.physOf l (s.linkBound l))

end Sys2Proof.Machine
end

