-- ==== Sys2Proof/Machine/Txns.lean ====
section
/-! DEFINITION. Transactions and epochs (R187, R188, R225, R271 to R277, R312): the queue of commits, their sequence, what a
commit changes at its instant, retirement of the previous epoch. -/

namespace Sys2Proof.Machine

/-! Bring-up status (R291), here because a commit can end a stage. -/

/-- `bringup_status` of a stage that has ended: 1 done, 2 failed, 3 held. -/
def State.stageEnd (s : State) (state reason : Nat) : State :=
  let v := s.ob Ob.bringup_status
  { s.putOb Ob.bringup_status (setBits (setBits (setBits v 7 4 state) 15 8 reason) 191 128 s.now) with
    boot := { s.boot with stageWork := false } }

/-- A stage begins. -/
def State.stageBegin (s : State) (n : Nat) : State :=
  { (s.putOb Ob.bringup_stage n).putOb Ob.bringup_status (n + fld (s.now % 2 ^ 64) 64) with
    boot := { s.boot with stageWork := true } }

/-- The stage in `bringup_status`, and its state. -/
def State.stageNow (s : State) : Nat × Nat := (bits (s.ob Ob.bringup_status) 3 0, bits (s.ob Ob.bringup_status) 7 4)

/-! Ports (R203, R205, R288, R313). -/

/-- A port is in service: stage 7 has begun, and the module is commissioned or it is port 0. -/
def State.portServed (s : State) (p : Nat) : Bool :=
  7 ≤ s.ob Ob.bringup_stage && (s.commissioned || p == 0)

/-- The lanes of a port that the start-up test has marked failed (R295, R300). -/
def State.lanesFailed (s : State) (p : Nat) : Nat :=
  (List.range 8).foldl (fun m l =>
    if s.allDefects.any fun x => x.kind == 0x0B && x.unit % 2 == p / 16 && x.sub == p % 16 * 8 + l then m + 2 ^ l else m) 0

/-- A port takes its committed mode (R205): its sub-ports train, or stand idle. A fenced port is held in electrical idle, whatever
its mode (R236). -/
def State.portTrain (s : State) (p : Nat) : State :=
  let subs := (modeSubs (s.obe Ob.port_mode p)).map (·.1)
  let s := s.putObe Ob.port_lane_fail p (s.lanesFailed p)
  ((List.range 8).foldl (fun s i => s.putObe Ob.port_state (p * 8 + i)
    (if bit (s.ob Ob.port_fence) p then 6 else if s.portServed p && subs.contains i then 1 else 0)) s).ptpCheck

/-! The queue of commits (R274). -/

/-- The previous epoch is not retired (R187). -/
def State.epochBusy (s : State) : Bool := s.txn.oldLive

/-- A commit changes a routing table or the map (R187, R189, R276). -/
def State.flips (s : State) (vals : Tbl (Option Nat)) : Bool :=
  vals.any fun x =>
    (x.1 / 65536 == Ob.map || x.1 / 65536 == Ob.link_fence || x.1 / 65536 == Ob.two_phase) &&
      (match x.2 with
        | some v => s.obe (x.1 / 65536) (x.1 % 65536) != v
        | none => false)

/-- A commit moves tiles of a loaded meadow by right. -/
def CommitWhy.moves : CommitWhy → Bool
  | .migration _ => true
  | .replace _ => true
  | .source _ => false
  | .stage _ => false
  | .fence => false

/-- A commit of the steward's own transaction. -/
def Commit.own (c : Commit) : Bool :=
  match c.why with
  | .source _ => false
  | .stage _ => true
  | .migration _ => true
  | .replace _ => true
  | .fence => true

/-- A meadow's job is degraded: a logical tile is left unplaced (R349). -/
def State.degrade (s : State) (g l : Nat) : State :=
  ((s.putObe Ob.job_state g 5).modJob g fun j => { j with isolating := false, recovering := false }).raise { kind := 0x0803, unitClass := 6, meadow := g, detail := l }

/-- A commit is refused whole (R275): nothing it staged takes effect. -/
def State.refuseCommit (s : State) (c : Commit) (reason : Nat) (failing : Option Nat) : State :=
  let s := { s with txn := { s.txn with current := none } }
  let s := if c.own then s.releaseOwn c.values else s
  match c.why with
  | .source n => s.endTxn n 5 reason failing
  | .stage _ => s.stageEnd 2 8
  | .migration m => s.abandonMigration m 3
  | .fence => s
  | .replace g => s.degrade g ((c.values.headD (0, none)).1 % 65536)

/-- The next commit is taken up: a source's state becomes committing; conflicts and the checks of step 1, then the prepare of step 2
begins (R274). A membership change staged before stage 6 began is refused (R311). -/
def State.takeUp (s : State) : Nat → State
  | 0 => s
  | fuel + 1 =>
    match s.txn.current, s.txn.queue with
    | none, c :: rest =>
      let s := { s with txn := { s.txn with queue := rest } }
      let s := match c.why with
        | .source n => s.txnStatus n 2 0 none
        | _ => s
      let conflict := match c.why with
        | .source n => (s.txnOf n).conflict.head?
        | _ => c.conflict.head?
      let early : Option Nat := match c.why with
        | .source n => (s.txnOf n).early.find? fun k => s.obe (k / 65536) (k % 65536) != ((Tbl.get none c.values k).getD 0)
        | _ => none
      match conflict with
      | some k => (s.refuseCommit c 4 (some k)).takeUp fuel
      | none => match early with
      | some k => (s.refuseCommit c 2 (some k)).takeUp fuel
      | none => match s.checkCommit c.values c.why.moves with
        | some r => (s.refuseCommit c r.1 (some r.2)).takeUp fuel
        | none => { s with txn := { s.txn with
            current := some { c with step := .preparing, takenUp := s.now, flip := s.flips c.values } } }
    | _, _ => s

/-- After the current commit has ended, the next is taken up; the steward's transactions stage into the tables that are free. -/
def State.nextCommit (s : State) : State :=
  let s := s.takeOwn
  s.takeUp (s.txn.queue.length + 1)

/-- Queues a commit and takes it up when it is the first; the steward's own once its tables are free (R273). -/
def State.queueCommit (s : State) (why : CommitWhy) (vals : Tbl (Option Nat)) : State :=
  let c : Commit := { why, values := vals }
  (if c.own then { s with txn := { s.txn with own := s.txn.own ++ [c] } }
    else { s with txn := { s.txn with queue := s.txn.queue ++ [c] } } : State).nextCommit

/-- The EPOCH notice of a commit (R276): a C5 copy of port die W's to the whole mesh, and its own. -/
def State.epochNotice (s : State) (c : Commit) (n : Nat) : State :=
  let arg0 := s.now + us 50
  let arg1 := b2n c.flip + fld (n % 2 ^ 32) 32
  (s.notice 4608 0xFF 0x20 arg0 arg1 true).newPkt {
    h := { cls := 5, op := 0x20, meadow := 0xFF, arg0, arg1, flow := 0x80, src := 0xFFF, srcKind := 1, dstKind := 1 }
    loc := .sink, since := s.now, issuer := 4608, target := 4608 }

/-- Step 4: the EPOCH notice is sent with its instant (R274, R276). -/
def State.sendEpoch (s : State) (c : Commit) : State :=
  let n := s.ob Ob.txn_count + 1
  let s := s.epochNotice c n
  let s := { s with txn := { s.txn with
    current := some { c with step := .sent, number := n, instant := s.now + us 50 }, noticed := [], missed := [] } }
  match c.why with
  | .migration m => s.modMig m fun x => { x with sentEpoch := true, instant := s.now + us 50, step := 6 }
  | _ => s

/-- A prepared commit goes on to step 4 when it need not wait: for retirement, or for its migration's handover copy (R284). -/
def State.trySend (s : State) : State :=
  match s.txn.current with
  | some c =>
    let waits := match c.why with
      | .migration _ => true
      | _ => false
    if c.step = .prepared ∧ !waits ∧ !(c.flip && s.epochBusy) then s.sendEpoch c else s
  | none => s

/-! What a commit changes at its instant (R225, R276, R312). -/

/-- A tile joins a meadow: it leaves T3, takes a D1 with its cistern cleared, and holds the meadow's settings, its buckets full
(R124, R312); its pages are lost (R251), and one of a page store holds the page program (R239). -/
def State.tileJoin (s : State) (l p g : Nat) : State :=
  let s := s.storeLost l p
  let s := s.modTile p fun t => { t with logical := none, meadow := none, oldLogical := none, power := { t.power with state := .t1 } }
  let s := s.resetTile p true 50000
  let full := s.fullSluice g
  let s := s.modTile p fun t => { t with logical := some l, meadow := some g, sluice := full }
  if s.obe Ob.role g = 3 then s.pageProgram p else s

/-- A tile leaves all meadows: it enters T3 (R312, R363), and its pages are lost (R251). -/
def State.tileLeave (s : State) (p : Nat) : State :=
  let s := match (s.tile p).logical with
    | some l => s.storeLost l p
    | none => s
  (s.modTile p fun t => { t.darken with logical := none, meadow := none }).leftRun (s.tile p) p

/-- At a migration's instant the spare holds the logical role; the old tile keeps forwarding (R284, R286). -/
def State.handOver (s : State) (l p q : Nat) : State :=
  let g := (s.tile p).meadow
  (s.modTile q fun t => { t with logical := some l, meadow := g }).modTile p fun t => { t with logical := none, oldLogical := some l }

/-- A logical tile's old tile leaves all meadows. -/
def State.applyLeave (old s : State) (l : Nat) : State :=
  if (old.meadowAt l).isSome ∧ old.physOf l < 4608 ∧ (old.physOf l ≠ s.physOf l ∨ (s.meadowAt l).isNone) then s.tileLeave (old.physOf l)
  else s

/-- A logical tile's new tile takes up the role and joins its meadow. -/
def State.applyJoin (s : State) (l : Nat) : State :=
  match s.meadowAt l with
  | some h => if s.physOf l < 4608 then s.tileJoin l (s.physOf l) h else s
  | none => s

/-- The changes of roles and memberships (R284, R303, R312): leaving comes before joining, so that tiles may change places. -/
def State.applyRoles (old s : State) (why : CommitWhy) : State :=
  let moved := (List.range (logicalTiles s.variant)).filter fun l =>
    !(old.physOf l == s.physOf l && old.meadowAt l == s.meadowAt l)
  match why with
  | .migration _ => moved.foldl (fun s l => s.handOver l (old.physOf l) (s.physOf l)) s
  | _ => moved.foldl State.applyJoin (moved.foldl (State.applyLeave old) s)

/-- A meadow enters cache role (R239): the page program stands in every tile, and the page store opens empty. -/
def State.openPages (s : State) (g : Nat) : State :=
  (s.memberPairs g).foldl (fun s x =>
    let d := pageDie x.1
    let s := (s.framesOn x.1).foldl (fun s k => s.modFrame d k PageFrame.freed) s
    let s := s.modDie d fun y => { y with attends := y.attends.put {} x.1 {} }
    if x.2 < 4608 then s.pageProgram x.2 else s) s

/-- Meadows that come to exist have full egress buckets and fresh barrier elements (R124, R278); buckets above a lowered burst
depth come down to it (R124). -/
def State.applyBuckets (old s : State) : State :=
  (List.range 256).foldl (fun (s : State) (g : Nat) =>
    let egress : Int := (s.obe Ob.sluice_egress_burst g * 1000 : Nat)
    let s := if old.members g = [] ∧ s.members g ≠ [] then
        [0, 1].foldl (fun s d => s.modDie d fun x => { x with
          egress := x.egress.put 0 g egress, meadowRed := x.meadowRed.put {} g {} }) s
      else if s.obe Ob.sluice_egress_burst g < old.obe Ob.sluice_egress_burst g then
        [0, 1].foldl (fun s d => s.modDie d fun x => { x with egress := x.egress.mod 0 g (min egress) }) s
      else s
    let full := s.fullSluice g
    let was := old.fullSluice g
    if full.tile < was.tile ∨ full.meadow < was.meadow then
      (s.memberTiles g).foldl (fun s p => s.modTile p fun t => { t with
        sluice := { tile := min t.sluice.tile full.tile, meadow := min t.sluice.meadow full.meadow } }) s
    else s) s

/-- A window that a commit opens or closes (R221, R225, R231). -/
def State.applyWindow (old s : State) (w : Nat) : State :=
  let was := old.obe Ob.win_kind w
  let is_ := s.obe Ob.win_kind w
  if was = 0 ∧ is_ ≠ 0 then s.putObe Ob.win_state w 1
  else if was ≠ 0 ∧ is_ = 0 then
    let s := (s.putObe Ob.win_gen w ((s.obe Ob.win_gen w + 1) % 16)).putObe Ob.win_state w 2
    let s := [0, 1].foldl (fun s d => s.abortGroups d fun x => x.window == w) s
    let left (d : Nat) : Nat := (Tbl.get {} (s.die d).windows w : WinSt).accepted
    if left 0 = 0 ∧ left 1 = 0 then s.putObe Ob.win_state w 0 else s
  else s

/-- A peer whose endpoint or home changes (R213): its spaces start at 0, its requests complete, its state follows. -/
def State.applyPeer (old s : State) (i : Nat) : State :=
  if old.obe Ob.peer_endpoint i = s.obe Ob.peer_endpoint i ∧ old.obe Ob.peer_home i = s.obe Ob.peer_home i then s
  else
    let s := [0, 1].foldl (fun s d =>
      (s.failOut d (fun r => r.peer == i) 0x07 fun s r reason => s.tellRequest d r reason []).modDie d fun x =>
        { x with peers := x.peers.put {} i {} }) s
    let s := s.modPeer (s.obe Ob.peer_home i) i fun x => { x with lastHeard := if s.bound i then s.now else 0 }
    s.putObe Ob.peer_state i (if !s.bound i then 0 else if s.peerFenced i then 3 else 1)

/-- A meadow whose endpoint changes: every request it has outstanding completes with reason 0x07 (R208). -/
def State.applyEndpoint (old s : State) (g : Nat) : State :=
  if old.obe Ob.role_id g = s.obe Ob.role_id g ∧ old.obe Ob.role_epoch g = s.obe Ob.role_epoch g then s
  else [0, 1].foldl (fun s d =>
    s.failOut d (fun r => r.meadow == g) 0x07 fun s r reason => s.tellRequest d r reason []) s

/-- A result queue that is turned on or off (R357, R360): posts held are discarded, answered as a queue that is off answers. -/
def State.applyQueue (old s : State) (q : Nat) : State :=
  let was := old.obe Ob.rq_mode q
  let is_ := s.obe Ob.rq_mode q
  if was = is_ then s
  else if is_ = 0 then
    let s := (s.rq q).held.foldl (fun s x => s.postAnswer x.packet 0x0A) s
    s.modRq q fun _ => {}
  else
    let s := (List.range 1024).foldl (fun s i => s.putObe Ob.rq_stream_next (q * 1024 + i) 0) s
    s.modRq q fun _ => {}

/-- Applies a commit's values and what follows from them (R276). -/
def State.applyCommit (s : State) (c : Commit) : State :=
  let es := stagedOf c.values
  let bit0 := s.ob Ob.route_epoch
  let old := s
  let s := s.withValues c.values
  let s := if c.values.any fun x => ((objInfo (x.1 / 65536)).map (·.pers)).getD 0 == 1 then
      { s with dict := { s.dict with journalDue := true } } else s
  let s := if es Ob.tile_meadow ≠ [] ∧ 6 ≤ s.ob Ob.bringup_stage then { s with boot := { s.boot with meadowsUp := true } } else s
  let s := if !c.flip then s
    else { (s.putOb Ob.route_epoch (1 - bit0)) with txn := { s.txn with
      oldMap := (es Ob.map).foldl (fun m l => Tbl.put none m l (some (old.physOf l))) []
      oldFence := (es Ob.link_fence).foldl (fun m r => Tbl.put none m r (some (old.obe Ob.link_fence r))) []
      collectAt := s.now
      oldLive := true, oldCount := 0, retireSince := s.now, overdueSent := false } }
  let s := (es Ob.win_kind).foldl (State.applyWindow old) s
  let s := ((es Ob.peer_endpoint ++ es Ob.peer_home).eraseDups).foldl (State.applyPeer old) s
  let s := ((es Ob.role_id ++ es Ob.role_epoch).eraseDups).foldl (State.applyEndpoint old) s
  let s := (es Ob.rq_mode).foldl (State.applyQueue old) s
  let s := (es Ob.port_mode).foldl State.portTrain s
  let s := if es Ob.ptp_port = [] then s else s.ptpCheck
  let s := State.applyRoles old s c.why
  let s := (es Ob.role).foldl (fun s g => if old.obe Ob.role g ≠ 3 ∧ s.obe Ob.role g = 3 then s.openPages g else s) s
  let s := if es Ob.map = [] ∧ es Ob.link_fence = [] then s else s.layAllRoutes
  let s := State.applyBuckets old s
  let s := if es Ob.map ≠ [] then s.putOb Ob.map_state 4 else s
  (s.putOb Ob.txn_count c.number)

/-- Open and committing transactions that have staged an element just committed are in conflict (R274). -/
def State.markConflicts (s : State) (c : Commit) : State :=
  let s := { s with txn := { s.txn with queue := s.txn.queue.map fun x =>
    { x with conflict := (x.values.map (·.1)).filter fun k => x.conflict.contains k || (Tbl.get none c.values k).isSome } } }
  (List.range 5).foldl (fun s n =>
    if (s.txnOf n).opened ∧ c.why ≠ .source n then
      s.modTxn n fun t => { t with conflict := t.conflict ++
        ((t.staged.map (·.1)).filter fun k => (Tbl.get none c.values k).isSome && !t.conflict.contains k) }
    else s) s

/-- A source's transaction has been committed: its status (R277). -/
def State.txnCommitted (s : State) (c : Commit) (n : Nat) : State :=
  let s := s.endTxn n 3 0 none
  let v := s.obe Ob.txn_status n
  s.putObe Ob.txn_status n (setBits (setBits v 127 64 c.number) 191 128 c.instant)

/-! Retirement (R187, R188). -/

/-- The sum of the units' counts of packets of the previous epoch that they have injected less those they have consumed (R187). -/
def State.oldPackets (s : State) : Int :=
  let e := 1 - s.ob Ob.route_epoch
  s.dies.foldl (fun n d => n + Tbl.get 0 d.2.flight e) (s.tiles.foldl (fun n t => n + Tbl.get 0 t.2.ni.flight e) 0)

/-- The previous epoch is retired: its buffers are free, its map and fences are gone. -/
def State.retireEpoch (s : State) : State :=
  let s := { s with txn := { s.txn with oldMap := [], oldFence := [], oldLive := false, oldCount := 0 } }
  s.addObe Ob.route_epoch_count 0 1 64

/-! The commands of a source (R271). -/

/-- A write of `txn_command`. -/
def State.txnCommand (s : State) (src : Source) (v : Nat) : State × Nat :=
  match srcTxn src with
  | none => (s, 0x03)
  | some n =>
    let t := s.txnOf n
    if v = 1 then
      if t.opened then (s, 0x0D)
      else (((s.putObe Ob.txn_status n 0).modTxn n fun _ => { opened := true, lastStage := s.now }).txnStatus n 1 0 none, 0)
    else if v = 2 then
      if !t.opened ∨ t.committing then (s, 0x07)
      else
        let s := s.modTxn n fun t => { t with committing := true }
        (s.queueCommit (.source n) t.staged, 0)
    else if v = 3 then
      if !t.opened ∨ bits (s.obe Ob.txn_status n) 2 0 = 2 then (s, 0x07) else ((s.abortTxn n 10).nextCommit, 0)
    else (s, 0x04)

/-! Rows. -/

/-- COMMIT_PREPARED (R274): every unit has acknowledged the prepare. With no commit taken up, the next of the queue is. -/
def execCommitPrepared (s : State) : Out :=
  match s.txn.current with
  | some c =>
    if c.step = .preparing ∧ s.stewardUp then
      let s1 := { s with txn := { s.txn with current := some { c with step := .prepared } } }
      .next s1.trySend
    else if c.step = .prepared ∧ s.stewardUp then .next s.trySend
    else s.noEvent
  | none => if s.txn.queue ≠ [] ∧ s.stewardUp then .next s.nextCommit else s.noEvent

/-- COMMIT_PREPARE_TIMEOUT (R275): 10 ms without every acknowledgement. -/
def execCommitPrepareTimeout (s : State) : Out :=
  match s.txn.current with
  | some c =>
    if c.step = .preparing ∧ s.stewardUp ∧ c.takenUp + ms 10 ≤ s.now then .next (s.refuseCommit c 6 none).nextCommit
    else s.noEvent
  | none => s.noEvent

/-- COMMIT_RETIRE_TIMEOUT (R275): the previous epoch is not retired within `epoch_retire_limit` of the take-up. -/
def execCommitRetireTimeout (s : State) : Out :=
  match s.txn.current with
  | some c =>
    if c.step = .prepared ∧ s.stewardUp ∧ c.flip ∧ s.epochBusy ∧ c.takenUp + us (s.ob Ob.epoch_retire_limit) ≤ s.now then
      .next (s.refuseCommit c 12 none).nextCommit
    else s.noEvent
  | none => s.noEvent

/-- EPOCH (R276): a unit receives the notice. One that receives it after the instant applies it then, and reports it. -/
def execEpoch (n : PacketId) (s : State) : Out :=
  match s.noticed n 0x20 with
  | some (k, _, s1) =>
    let u := k.target
    if s1.txn.missed.contains u then
      let s2 := { s1 with txn := { s1.txn with missed := s1.txn.missed.filter (· != u) } }
      let number := bits k.h.arg1 63 32
      .next (if u < 4608 then s2.raiseTile u 0x0305 number else s2.raiseDie (u - 4608) 0x0305 number)
    else match s1.txn.current with
      | some c =>
        if c.step = .sent ∧ c.instant = k.h.arg0 ∧ !s1.txn.noticed.contains u then
          .next { s1 with txn := { s1.txn with noticed := s1.txn.noticed ++ [u] } }
        else .next s1
      | none => .next s1
  | none => s.noEvent

/-- TXN_IDLE_TIMEOUT (R277). -/
def execTxnIdleTimeout (src : Source) (s : State) : Out :=
  match srcTxn src with
  | some n =>
    if (s.txnOf n).opened ∧ s.stewardUp ∧ !s.commitSent n ∧ ms (s.ob Ob.txn_idle) ≤ s.now - (s.txnOf n).lastStage then
      .next (s.abortTxn n 7).nextCommit
    else s.noEvent
  | none => s.noEvent

/-- EPOCH_RETIRE_OVERDUE (R188): reported once; the collection goes on. -/
def execEpochRetireOverdue (s : State) : Out :=
  if s.txn.oldLive ∧ s.stewardUp ∧ !s.txn.overdueSent ∧ us (s.ob Ob.epoch_retire_limit) ≤ s.now - s.txn.retireSince then
    .next ({ s with txn := { s.txn with overdueSent := true } }.raise { kind := 0x0304, unitClass := 5 })
  else s.noEvent

end Sys2Proof.Machine
end

