-- ==== Sys2Proof/Machine/Jobs.lean ====
section
/-! DEFINITION. Graph images and jobs (R5, R79, R135 to R146, R160, R238, R308, R343, R344): the loader's checks, load and unload;
unit faults and recovery (R281, R347 to R351). -/

namespace Sys2Proof.Machine

/-! The loader's checks of a configuration slot (R132, R135 to R139, R144, R146, R160). -/

/-- Every byte from `lo` to `hi` − 1 of a memory is zero. -/
def zeroIn (m : Mem) (lo hi : Nat) : Bool := m.all fun c => c.1 < lo || hi ≤ c.1

/-- An entry's own input and gang: lanes are a multiple of the gang, steering units and counters take one lane, unit ports at most
four; the detour lanes are free where D is not 0. -/
def entryInputOk (d r e : Nat) : Bool :=
  let cls := bits r 3 1
  let ix := bits r 8 4
  let g := entryGang r
  if cls < 4 then ix < 8 && ix % g == 0 && (d == 0 || ix + g ≤ 6)
  else if cls = 4 then bits r 8 7 == 0 && g ≤ 2 && (g == 1 || !bit ix 2)
  else cls == 5 && (if ix < 4 then g ≤ 4 else if ix < 8 then true else g == 1) &&
    (e < 40 || ix < 8 || g == 1)

/-- An entry's own place: lanes of an output are a multiple of its gang; sinks 18 to 31 are reserved; steering sinks take gang 1,
operand ports at most 4; the count check is a sink's. -/
def entryPlaceOk (d r e : Nat) : Bool :=
  let g := entryGang r
  if e < 32 then e % 8 % g == 0 && e % 8 + g ≤ 8 && (d == 0 || e % 8 + g ≤ 6) && !bit r 18
  else if e < 40 then e % 2 % g == 0 && g ≤ 2 && !bit r 18
  else if e - 40 < 4 then g ≤ 4
  else e - 40 < 18 && g == 1

/-- A route does not leave the meadow: an output's neighbour, and an input's, is a member (R136). -/
def entryInside (variant l : Nat) (members : List Nat) (r e : Nat) : Bool :=
  let inside (dir dist : Nat) : Bool := match neighbour variant l dir dist with
    | some m => members.contains m
    | none => false
  (if e < 32 then inside (e / 8) 1 else if e < 40 then inside ((e - 32) / 2) 2 else true) &&
    (if bits r 3 1 < 4 then inside (bits r 3 1) 1 else if bits r 3 1 = 4 then inside (bits r 5 4) 2 else true)

/-- A route entry (R138). -/
def entryOk (variant l : Nat) (members : List Nat) (d r e : Nat) : Bool :=
  !entryOn r || (bits r 31 19 == 0 && entrySlack r ≤ 512 && entryInputOk d r e && entryPlaceOk d r e &&
    entryInside variant l members r e)

/-- A steering unit (R146). -/
def steerOk (v : Nat) : Bool := bits v 2 0 ≤ 4 && !(bits v 2 0 == 4 && bit v 3) && bits v 7 5 == 0 && bits v 127 24 == 0

/-- An initial counter (R144). -/
def counterOk (v : Nat) : Bool :=
  bits v 95 92 == 0 && bits v 127 121 == 0 && bits v 119 112 == 0 && !(8 ≤ bits v 71 64 && bits v 71 64 ≤ 0xBF) && bits v 106 104 ≤ 5

/-- A standpipe entry (R160) of a meadow's tile; where D is not 0 it names no detour lane (R135). -/
def standpipeOk (members : List Nat) (d v : Nat) : Bool :=
  !bit v 0 || (bits v 4 2 ≤ 3 && bits v 9 8 != 0 && bits v 7 5 % 2 ^ bits v 9 8 == 0 && bits v 127 28 == 0 &&
    members.contains (bits v 21 10) && (d == 0 || bits v 7 5 + 2 ^ bits v 9 8 ≤ 6))

/-- A ganged entry's other lanes have entries that are disabled (R138). -/
def gangAlone (w : Nat → Nat) (e : Nat) : Bool :=
  !entryOn (w e) || ((List.range (entryGang (w e))).drop 1).all fun k => 40 ≤ e || !entryOn (w (e + k))

/-- The gang of the stream that arrives on an input lane: that of the entries that take it (R132). -/
def laneGang (w : Nat → Nat) (cls ix : Nat) : Nat :=
  ((List.range 72).find? fun e =>
    entryOn (w e) && bits (w e) 3 1 == cls && bits (w e) 8 4 ≤ ix && ix < bits (w e) 8 4 + entryGang (w e)).elim 1
      fun e => entryGang (w e)

/-- What an initial counter taps is a stream of one lane (R132, R144). -/
def tapAlone (w : Nat → Nat) (v : Nat) : Bool :=
  let cls := bits v 106 104
  let ix := bits v 111 107
  !(bit v 72) || (if cls < 4 then ix < 8 && laneGang w cls ix == 1 else if cls = 4 then ix < 8 && laneGang w 4 ix == 1 else laneGang w 5 ix == 1)

/-- A slot of an image on a tile; one that is all zero is not there. -/
def slotOk (variant l : Nat) (members : List Nat) (img : GraphImage) (m : Mem) (n : Nat) : Bool :=
  let w (off k : Nat) : Nat := m.readLE (4096 * n + off) k
  let es := List.range 72
  zeroIn m (4096 * n) (4096 * (n + 1)) ||
    (bits (w 0 16) 7 0 == 1 && bits (w 0 16) 11 9 == n && bits (w 0 16) 14 12 == img.declaredD && !bit (w 0 16) 15 &&
      bits (w 0 16) 47 16 == img.imageId && bits (w 0 16) 127 48 == 0 &&
      zeroIn m (4096 * n + 0x10) (4096 * n + 0x40) && zeroIn m (4096 * n + 0x300) (4096 * (n + 1)) &&
      (es.all fun e => entryOk variant l members img.declaredD (w (0x40 + 4 * e) 4) e) &&
      (es.map fun e => if entryOn (w (0x40 + 4 * e) 4) then entrySlack (w (0x40 + 4 * e) 4) else 0).foldl (· + ·) 0 ≤ 512 &&
      ((List.range 32).all fun i => bits (w (0x160 + i) 1) 7 2 == 0 && (i < 4 || !bit (w (0x160 + i) 1) 1)) &&
      ((List.range 4).all fun u => steerOk (w (0x180 + 16 * u) 16) && standpipeOk members img.declaredD (w (0x2C0 + 16 * u) 16)) &&
      (es.all fun e => gangAlone (fun x => w (0x40 + 4 * x) 4) e) &&
      ((List.range 16).all fun i => counterOk (w (0x1C0 + 16 * i) 16) && tapAlone (fun x => w (0x40 + 4 * x) 4) (w (0x1C0 + 16 * i) 16)))

/-! The loader's checks of an image (R4, R5, R135, R238, R308, R344). -/

/-- The bytes of a tile's slots. -/
def imageSlots (x : ImageTile) : Mem := x.slots.foldl (fun m b => Mem.write m b.1 b.2) []

/-- One tile's part of an image. -/
def State.imageTileOk (s : State) (g : Nat) (img : GraphImage) (x : ImageTile) : Bool :=
  (s.members g).contains x.tile && x.entry % 4 == 0 && x.entry < 65536 && x.code.length ≤ 16384 &&
    (x.slots.all fun b => b.1 < 32768) && (x.data.all fun b => b.1 + b.2.length ≤ cisternBytes s.variant) &&
    (List.range 8).all fun n => slotOk s.variant x.tile (s.members g) img (imageSlots x) n

/-- The links that an image's slots use. -/
def imageLinks (img : GraphImage) : List (Nat × Nat) := img.tiles.flatMap fun x => (usedOutputs (imageSlots x)).map fun o => (x.tile, o)

/-- A region of an image (R344). -/
def State.regionDeclOk (s : State) (g : Nat) (r : RegionDecl) : Bool :=
  1 ≤ r.kind && r.kind ≤ 4 && (s.members g).contains r.tile && r.base % 256 == 0 && r.length % 256 == 0 &&
    r.base + r.length ≤ cisternBytes s.variant &&
    (!r.buddied || (2 ≤ r.kind && (s.members g).contains r.buddyTile && r.buddyBase % 256 == 0 &&
      r.buddyBase + r.length ≤ cisternBytes s.variant - 32768 && dieOf (s.physOf r.buddyTile) != dieOf (s.physOf r.tile)))

/-- Every link between a meadow's tiles is within the image's D (R308). -/
def State.linksWithin (s : State) (g d : Nat) : Bool :=
  (s.members g).all fun l => ((logicalNeighbours s.variant l).filter (s.members g).contains).all fun m =>
    match s.linkHops l m (s.physOf l) (s.physOf m) with
    | some h => h ≤ 1 + d
    | none => false

/-- The loader takes an image into a meadow. -/
def State.imageOk (s : State) (g : Nat) (img : GraphImage) : Bool :=
  !img.a40 && !(s.variant == 2 && img.tensorWork) && (s.obe Ob.role g == 1 || s.obe Ob.role g == 2) && s.members g != [] &&
    img.declaredD ≤ 6 && img.regions.length ≤ 64 && img.tiles.all (s.imageTileOk g img) &&
    img.regions.all (s.regionDeclOk g) && img.formats.all (· ≤ 0x0C) && s.linksWithin g img.declaredD &&
    (s.layAll g (imageLinks img)).2

/-! Loading (R79, R343, R344). -/

/-- Instruction memory and configuration slots of a tile, as an image gives them; the loader sets each slot's loaded bit. -/
def Tile.loadCode (t : Tile) (x : ImageTile) : Tile :=
  let m := (imageSlots x)
  let m := (List.range 8).foldl (fun m n =>
    if zeroIn m (4096 * n) (4096 * (n + 1)) then m else Mem.writeLE m (4096 * n) 4 (setBits (Mem.readLE m (4096 * n) 4) 8 8 1)) m
  ({ t with imem := Mem.writeBytes [] 0 (x.code.flatMap fun w => toLE 4 w.toNat), slots := m } : Tile).loadSlot 0

/-- A tile's static data. -/
def Tile.loadData (t : Tile) (x : ImageTile) : Tile :=
  { t with cistern := x.data.foldl (fun m b => Mem.writeBytes m b.1 b.2) t.cistern }

/-- The steward starts task 0 at the image's entry point (R79). -/
def State.startImageTile (s : State) (x : ImageTile) : State :=
  let p := s.physOf x.tile
  let s := s.modTile p fun t =>
    let t := t.modTask 0 fun k => { k with pc := BitVec.ofNat 16 x.entry, regs := [], state := .ready, stall := none, pend := 0, wdSince := s.now }
    { t with seq := { t.seq with run := true }, power := { t.power with state := if t.power.state = .t3 then .t1 else t.power.state } }
  s.settle p

/-- A region's record as the loader writes it (R344). -/
def regionRecord (r : RegionDecl) : Nat :=
  r.kind + fld (b2n r.buddied) 3 + fld r.tile 4 + fld r.buddyTile 16 + fld r.base 32 + fld r.buddyBase 64 + fld r.length 96

/-- Sets the region table of a meadow. -/
def State.setRegions (s : State) (g : Nat) (rs : List RegionDecl) : State :=
  (List.range 64).foldl (fun s i => s.putObe Ob.region_table (g * 64 + i)
    (match rs[i]? with
      | some r => regionRecord r
      | none => 0)) s

/-- Loads an image: every tile of it, then every task 0 (R79, R343). The first load is bring-up stage 8 (R288). -/
def State.loadImage (s : State) (g : Nat) (img : GraphImage) : State :=
  let s := s.setRegions g img.regions
  let s := img.tiles.foldl (fun s x => s.modTile (s.physOf x.tile) fun t => (t.loadCode x).loadData x) s
  let s := s.layRoutes g
  let s := s.putObe Ob.step_number g (s.obe Ob.step_base g)
  let s := (s.putObe Ob.job_state g 2).modJob g fun j => { j with image := some img, stepAt := s.now, replaced := [], fills := [], pairs := [] }
  let s := if s.ob Ob.bringup_stage = 8 ∨ s.ob Ob.bringup_stage < 6 then s else (s.stageBegin 8).stageEnd 1 0
  img.tiles.foldl State.startImageTile s

/-- Command load (R343): in state none; an image that the loader refuses changes nothing. -/
def State.jobLoad (s : State) (g : Nat) (img : Option GraphImage) : State × Nat :=
  match img with
  | some i =>
    if s.obe Ob.job_state g ≠ 0 ∨ !s.host.linkUp ∨ s.now < (s.job g).resetUntil ∨ !s.imageOk g i then (s, 0x0D) else (s.loadImage g i, 0)
  | none => (s, 0x0D)

/-- Command unload (R343): D3 with cisterns cleared, then none. -/
def State.jobUnload (s : State) (g : Nat) : State × Nat :=
  if s.obe Ob.job_state g = 4 then (s, 0x0D)
  else
    let s := (s.putObe Ob.job_state g 0).setRegions g []
    let s := s.tiles.foldl (fun s x => s.modTile x.1 fun t =>
      { t with relays := t.relays.filter fun r => !(s.members g).contains (r.link / 8192) }) s
    let s := s.modJob g fun j => { j with
      image := none, replaced := [], fills := [], scan := [], pairs := [], isolating := false, recovering := false }
    ((s.resetMeadow g true).countReset 3, 0)

/-! Unit faults (R347, R348). -/

/-- The defect kind under which a unit fault is recorded (R300), by the kind of its report. -/
def faultDefect (kind : Nat) : Nat :=
  if kind = 0x0102 ∨ kind = 0x0103 then 5 else if kind = 0x0104 then 2 else 1

/-- Fills still to be made wait for nothing more than the map commit. -/
def State.recoverReady (s : State) (g : Nat) : Bool := !(s.job g).isolating && (s.job g).fills == []

/-- Restores a re-placed tile from the image: instruction memory, slots and static regions (R348 step 7). -/
def State.restoreTile (s : State) (img : GraphImage) (l : Nat) : State :=
  match img.tiles.find? fun x => x.tile == l with
  | some x => s.modTile (s.physOf l) fun t => (t.loadCode x).loadData x
  | none => s

/-- Append regions are truncated to their checkpoints (R281). -/
def State.truncate (s : State) (g : Nat) : State :=
  (s.regions g).foldl (fun s x =>
    if bits x.2 2 0 = 2 then s.putObe Ob.region_table (g * 64 + x.1) (setBits x.2 191 160 (bits x.2 159 128)) else s) s

/-- The state pairs' roles are those of the last step commit (R281). -/
def State.restorePairs (s : State) (g : Nat) : State :=
  (s.job g).pairs.foldl (fun s x => s.modTile (s.physOf (x.1 / 64)) fun t => t.modTrough (x.1 % 64) fun y => { y with role := x.2 }) s

/-- Steps 7 to 10 of a recovery (R348). -/
def State.finishRecovery (s : State) (g : Nat) : State :=
  match (s.job g).image with
  | some img =>
    let at_ := (s.job g).recoverAt
    let s := (s.job g).replaced.foldl (fun s l => s.restoreTile img l) s
    let s := (s.truncate g).restorePairs g
    let s := (s.putObe Ob.job_state g 2).modJob g fun j => { j with recovering := false, replaced := [], stepAt := s.now }
    let s := img.tiles.foldl State.startImageTile s
    s.raise { kind := 0x0807, unitClass := 6, meadow := g, detail := (s.now - at_) / 1000 }
  | none => s

/-- A recovery that waits goes on when every fill is complete. -/
def State.tryRecovery (s : State) (g : Nat) : State :=
  if (s.job g).recovering ∧ s.recoverReady g ∧ s.obe Ob.job_state g = 4 then s.finishRecovery g else s

/-- Steps 1 and 2 for the pending faults: each unit is recorded and retired, its copies of regions are lost, and the meadow takes
a D3 with its cisterns kept. -/
def State.fenceFaults (s : State) (g : Nat) : State :=
  let fs := (s.job g).faults
  let s := s.modJob g fun j => { j with faults := [] }
  let s := fs.foldl (fun s f =>
    let s := s.recordDefect (faultDefect f.kind) 3 2 f.phys 0 0
    match (s.tile f.phys).logical with
    | some l => s.copyFailed g l
    | none => s) s
  (s.resetMeadow g false).countReset 3

/-- The tiles of a meadow that stand on retired tiles. -/
def State.misplaced (s : State) (g : Nat) : List Nat := (s.members g).filter fun l => s.retired (s.physOf l)

/-- Spares for logical tiles, one after the other (R348 step 3); none where one finds no spare (R349): that tile's id. -/
def State.placeAll (s : State) : List Nat → List (Nat × Nat) → List (Nat × Nat) ⊕ Nat
  | [], done => .inl done
  | l :: ls, done => match s.chooseSpare l false with
    | some p => (s.putObe Ob.map l p).placeAll ls (done ++ [(l, p)])
    | none => .inr l

/-- Steps 1 to 4 of R348 up to the map commit. The job stays lost where it is (R351). -/
def State.isolate (s : State) (g : Nat) : State :=
  let s := s.fenceFaults g
  let s := if s.obe Ob.job_state g = 6 then s else s.putObe Ob.job_state g 3
  match s.placeAll (s.misplaced g) [] with
  | .inl [] => s.drew
  | .inl moves =>
    let s := s.drew.modJob g fun j => { j with isolating := true, replaced := (j.replaced ++ moves.map (·.1)).eraseDups }
    s.queueCommit (.replace g) (moves.foldl (fun m x => Tbl.put none m (elemKey Ob.map x.1) (some x.2)) [])
  | .inr l => s.drew.degrade g l

/-- The map commit of a re-placement has taken effect: re-protection and a waiting recovery go on. -/
def State.replacedDone (s : State) (g : Nat) : State := (s.modJob g fun j => { j with isolating := false }).tryRecovery g

/-- A unit fault of a meadow (R347): recorded and reported once; under policy 1, or during a recovery (R349), fenced at once. -/
def State.unitFault (s : State) (p kind : Nat) : State :=
  match (s.tile p).meadow with
  | none => s
  | some g =>
    if (s.job g).faults.any (fun f => f.phys == p) ∨ s.retired p ∨ (s.job g).image.isNone then s
    else
      let s := s.modJob g fun j => { j with faults := j.faults ++ [({ phys := p, time := s.now, kind } : UnitFault)] }
      let s := s.raise { (s.tile p).report p 0x0802 with detail := kind }
      let s := (s.migrationsOf p).foldl (fun s m => s.abandonMigration m 3) s
      if (s.job g).recovering then (s.modJob g fun j => { j with recovering := false }).isolate g
      else if s.obe Ob.fault_policy g = 1 ∧ (s.obe Ob.job_state g = 2 ∨ s.obe Ob.job_state g = 3) then s.isolate g
      else s

/-- Command isolate (R343). -/
def State.jobIsolate (s : State) (g : Nat) : State × Nat :=
  if (s.obe Ob.job_state g = 2 ∨ s.obe Ob.job_state g = 3) ∧ (s.job g).faults ≠ [] then (s.isolate g, 0) else (s, 0x0D)

/-- Command recover (R343, R348): pending faults are isolated first; then the re-protection is waited for. -/
def State.jobRecover (s : State) (g : Nat) : State × Nat :=
  if s.obe Ob.job_state g ≠ 3 then (s, 0x0D)
  else
    let s := if (s.job g).faults = [] then s else s.isolate g
    if s.obe Ob.job_state g ≠ 3 then (s, 0)
    else
      let s := (s.putObe Ob.job_state g 4).modJob g fun j => { j with recovering := true, recoverAt := s.now }
      (s.tryRecovery g, 0)

/-- A write of `job_command` (R343). -/
def State.jobCommand (s : State) (v : Nat) (img : Option GraphImage) : State × Nat :=
  let g := bits v 7 0
  if bits v 63 12 ≠ 0 then (s, 0x04)
  else match bits v 11 8 with
    | 1 => s.jobLoad g img
    | 2 => s.jobUnload g
    | 3 => s.jobRecover g
    | 4 => s.jobIsolate g
    | _ => (s, 0x04)

/-- Makes one fill (R350). -/
def State.fill (s : State) (f : Fill) : State :=
  let bs := (s.tile (s.physOf f.fromTile)).cistern.readBytes f.fromBase f.length
  s.modTile (s.physOf f.toTile) fun t => { t with cistern := Mem.writeBytes t.cistern f.toBase bs }

/-- REPROTECTION_COMPLETE (R350): every fill of the meadow ends, and a waiting recovery goes on. -/
def execReprotectionComplete (g : Meadow) (s : State) : Out :=
  let j := s.job g
  if j.fills = [] ∨ j.isolating ∨ !s.stewardUp then s.noEvent
  else .next (((j.fills.foldl State.fill s).modJob g fun j => { j with fills := [] }).tryRecovery g)

end Sys2Proof.Machine
end

