-- ==== Sys2Proof/Machine/Migrate.lean ====
section
/-! DEFINITION. Tile migration (R284 to R287): its steps, its abandonment, the forwarding of packets of the previous epoch. -/

namespace Sys2Proof.Machine

/-- A migration begins (R284 step 1): the spare is chosen and the standpipe set up; shadows of both tiles end (R321). -/
def State.startMigration (s : State) (m l p q : Nat) (rotation : Option Nat) : State :=
  ((((s.dropShadows p).dropShadows q).layPipe m p q).modMig m fun _ => { step := 1, logical := l, oldPhys := p, spare := q, start := s.now, rotation }).addRec Ob.migrate_counts 0 0 1

/-- The first migration number that is not in use. -/
def State.freeMigration (s : State) : Option Nat := (List.range 8).find? fun m => (s.mig m).step == 0

/-- A spare of a migration holds a shadow copy no longer (R321). -/
def State.takeSpare (s : State) (q : Nat) : State :=
  s.modTile q fun t => { t.blank with frozen := true, power := { t.power with state := .t1 } }

/-- The stewards' commit of a migration is the current one. -/
def State.migCommit (s : State) (m : Nat) : Option Commit :=
  match s.txn.current with
  | some c => if c.why = .migration m then some c else none
  | none => none

/-- MIGRATE_PRECOPY (R284 steps 2 and 3): instruction memory, slots and cistern go to the spare, writes are tracked from then
on; the tables' commit is queued. -/
def execMigratePrecopy (m : Fin 8) (s : State) : Out :=
  let x := s.mig m
  if x.step ≠ 1 ∨ !s.stewardUp then s.noEvent
  else
    let t := s.tile x.oldPhys
    let s1 := (s.takeSpare x.spare).modTile x.spare fun u => { u with imem := t.imem, slots := t.slots, cistern := t.cistern }
    let s2 := s1.modTile x.oldPhys fun t => { t with trackDirty := true, dirty := [] }
    let s3 := s2.modMig m fun x => { x with step := 2 }
    .next (s3.queueCommit (.migration m) [(elemKey Ob.map x.logical, some x.spare)])

/-- PRECOPY_COMPLETE (R284). -/
def execPrecopyComplete (m : Fin 8) (s : State) : Out :=
  if (s.mig m).step ≠ 2 then s.noEvent else .next (s.modMig m fun x => { x with step := 3 })

/-- MIGRATE_FREEZE (R284 step 4, R285): once the tables are prepared and the previous epoch is retired. -/
def execMigrateFreeze (m : Fin 8) (s : State) : Out :=
  let x := s.mig m
  match s.migCommit m with
  | some c =>
    if x.step ≠ 3 ∨ c.step ≠ .prepared ∨ s.epochBusy ∨ !s.stewardUp then s.noEvent
    else .next ((s.modMig m fun x => { x with step := 4, frozenAt := s.now }).modTile x.oldPhys fun t => { t with frozen := true })
  | none => s.noEvent

/-- A unit has finished its executing operation, and the pumps have the replies of the packets they sent (R285). -/
def State.settledToFreeze (s : State) (p : Nat) : Bool :=
  let t := s.tile p
  let idle (u : OpUnit) : Bool := match u.exec with
    | some o => o.phase != .finished
    | none => true
  idle t.tensor && idle t.vector &&
    t.pumps.all fun u => u.2.jobs.all fun j => !j.started || j.outstanding.all fun k => s.packetDone k

/-- FREEZE_COMPLETE (R285). -/
def execFreezeComplete (m : Fin 8) (s : State) : Out :=
  let x := s.mig m
  if x.step ≠ 4 ∨ x.frozen ∨ !s.settledToFreeze x.oldPhys then s.noEvent
  else .next (s.modMig m fun x => { x with frozen := true })

/-- Everything but the cistern's clean granules goes to the spare (R284 step 5): the dirty granules' bytes and all other state.
A SEND that waits at the head of the tile's input stays with it. -/
def State.copyAcross (s : State) (p q : Nat) : State :=
  let t := s.tile p
  let u := s.tile q
  let cistern := t.dirty.foldl (fun (m : Mem) g => Mem.writeBytes m (4096 * g) (t.cistern.readBytes (4096 * g) 4096)) u.cistern
  let s := s.modTile q fun u => { t with
    cistern, imem := u.imem, slots := u.slots, logical := none, meadow := none, oldLogical := none, frozen := true
    ecc := { t.ecc with cistern := t.ecc.cistern.filter fun e => e.2 == 2, writeBack := [], imem := u.ecc.imem }
    relays := u.relays, trackDirty := false, dirty := [], ni := { t.ni with c4head := none, flight := u.ni.flight } }
  { s with net := s.net.map fun x => match x.2 with
    | some k => if k.loc = .ni ∧ k.issuer = p then (x.1, some { k with issuer := q }) else x
    | none => x }

/-- MIGRATE_HANDOVER_COPY (R284 step 5). -/
def execMigrateHandoverCopy (m : Fin 8) (s : State) : Out :=
  let x := s.mig m
  if x.step ≠ 4 ∨ !x.frozen ∨ !s.stewardUp ∨ !(s.tile x.oldPhys).frozen then s.noEvent
  else .next ((s.copyAcross x.oldPhys x.spare).modMig m fun x => { x with step := 5 })

/-- HANDOVER_COPY_COMPLETE (R284 step 6): the steward sends EPOCH. -/
def execHandoverCopyComplete (m : Fin 8) (s : State) : Out :=
  match s.migCommit m with
  | some c =>
    if (s.mig m).step ≠ 5 ∨ c.step ≠ .prepared ∨ !s.stewardUp then s.noEvent else .next (s.sendEpoch c)
  | none => s.noEvent

/-- SPARE_RESUME (R284 step 7): at T + 1 µs. -/
def execSpareResume (m : Fin 8) (s : State) : Out :=
  let x := s.mig m
  if x.step ≠ 7 ∨ s.now < x.instant + us 1 then s.noEvent
  else .next (((s.modTile x.spare fun t => ({ t with frozen := false } : Tile).lost s.now (s.now - x.frozenAt)).settle x.spare).modMig m fun x => { x with step := 8 })

/-- The spare of an abandoned migration returns to the heath, the old tile goes on (R285). -/
def State.dropMigration (s : State) (m count : Nat) : State :=
  let p := (s.mig m).oldPhys
  ((s.abandonMigration m count).settle p).nextCommit

/-- MIGRATE_THAW (R285): the steward thaws the tile and abandons the migration. -/
def execMigrateThaw (m : Fin 8) (s : State) : Out :=
  let x := s.mig m
  if x.step < 4 ∨ x.sentEpoch ∨ !s.stewardUp then s.noEvent else .next (s.dropMigration m 3)

/-- MIGRATE_FREEZE_TIMEOUT (R285, R317). -/
def execMigrateFreezeTimeout (m : Fin 8) (s : State) : Out :=
  let x := s.mig m
  if x.step ≠ 4 ∨ x.frozen ∨ s.now - x.frozenAt < us (s.ob Ob.migrate_freeze_limit) then s.noEvent
  else .next (s.dropMigration m 2)

/-- MIGRATE_SELF_THAW (R285): 2 ms after freeze the old tile thaws on its own, and the migration is abandoned. -/
def execMigrateSelfThaw (m : Fin 8) (s : State) : Out :=
  let x := s.mig m
  if x.step < 4 ∨ 5 < x.step ∨ x.sentEpoch ∨ s.now - x.frozenAt < ms 2 then s.noEvent
  else .next (s.dropMigration m 3)

/-- MIGRATE_RELEASE (R284 step 8): after retirement the old tile stops forwarding and enters fallow; a rotation goes on with it. -/
def execMigrateRelease (m : Fin 8) (s : State) : Out :=
  let x := s.mig m
  if x.step ≠ 8 ∨ s.epochBusy ∨ !s.stewardUp then s.noEvent
  else
    let s1 := s.modTile x.oldPhys fun t => { t.blank with ni := { t.ni with owed := [], dups := [], c4head := none } }
    let s2 := match x.rotation with
      | some i => { s1 with test := { s1.test with slots := s1.test.slots.mod {} i fun r => { r with step := 2, gaveUp := x.instant, since := s.now } } }
      | none => s1
    .next (((s2.dropPipe m).modMig m fun _ => {}).addRec Ob.migrate_counts 0 1 1)

/-- OLD_EPOCH_FORWARD (R286): a packet of the previous epoch goes over the standpipe to the successor, which acts on it. -/
def execOldEpochForward (n : PacketId) (s : State) : Out :=
  match s.pkt n with
  | some k =>
    let q := s.physOf k.h.dst
    if !s.toForward k ∨ 4608 ≤ q then s.noEvent
    else
      let s1 := if k.loc = .head then s.modTile k.target fun t => { t with ni := { t.ni with c4head := none } } else s
      .next (s1.setPkt n { k with target := q, loc := .sink, since := s.now, h := { k.h with epoch := s.ob Ob.route_epoch == 1 } })
  | none => s.noEvent

end Sys2Proof.Machine
end

