-- ==== Sys2Proof/Machine/Epochs.lean ====
section
/-! DEFINITION. The instant of a commit and the retirement of the previous epoch (R187, R276, R284, R288, R312, R348). -/

namespace Sys2Proof.Machine

/-- What ends with a commit: its source's transaction, a bring-up stage, a migration's wait, a re-placement. -/
def State.afterCommit (s : State) (c : Commit) : State :=
  let s := match c.why with
    | .source n => s.txnCommitted c n
    | .stage _ => s.stageEnd 1 0
    | .migration m => s.modMig m fun x => { x with step := 7 }
    | .fence => s
    | .replace g => s.replacedDone g
  if s.stageNow = (5, 0) ∧ stagedOf c.values Ob.map ≠ [] then s.stageEnd 1 0
  else if s.stageNow = (6, 2) ∧ stagedOf c.values Ob.tile_meadow ≠ [] then s.stageEnd 1 0
  else s

/-- The units that a commit's notice is to reach: the tiles that are not dark, and the port dies. -/
def State.epochUnits (s : State) : List Nat := ((List.range 4608).filter fun p => !darkRow s.variant p) ++ [4608, 4609]

/-- The notices of an instant have all been taken: the notice reaches every unit within 20 µs (R276). -/
def State.noticesTaken (s : State) (t : Nat) : State :=
  s.net.foldl (fun s x => match x.2 with
    | some k => if k.h.cls = 5 ∧ k.h.op = 0x20 ∧ k.h.arg0 = t then (s.uncounted 4608 k).dropPkt x.1 else s
    | none => s) s

/-- EPOCH_INSTANT (R276): fabric time has reached T. The notice has reached every unit within 20 µs of sending; where EPOCH commands
have said which units it reached, the others have missed it (DEDUCED; log entry 52). -/
def execEpochInstant (s : State) : Out :=
  match s.txn.current with
  | some c =>
    if c.step ≠ .sent ∨ s.now < c.instant then s.noEvent
    else
      let told := s.txn.noticed != []
      let missed := if told then s.epochUnits.filter fun p => !s.txn.noticed.contains p else []
      let s := if told then s else s.noticesTaken c.instant
      let s1 := (s.applyCommit c).markConflicts c
      let s2 := { s1 with txn := { s1.txn with
        current := none, noticed := [], missed, missedFlip := c.flip, lastApplied := c.number } }
      let s3 := if c.own then s2.releaseOwn c.values else s2
      .next (s3.afterCommit c).nextCommit
  | none => s.noEvent

/-- EPOCH_COUNT_COLLECT (R187): every 10 µs the units that have switched give their counts of old-epoch packets to the reduction
0xFFFF_FE00 of port die W; when every unit has, the sum is the steward's. At zero the old epoch is retired, and a commit that waits for
that goes on. -/
def execEpochCountCollect (s : State) : Out :=
  if !s.txn.oldLive ∨ !s.stewardUp ∨ s.now - s.txn.collectAt < us 10 then s.noEvent
  else
    let n := s.oldPackets
    let s1 := { s with txn := { s.txn with collectAt := s.now } }
    if s.txn.missed ≠ [] then .next s1
    else if n = 0 then .next s1.retireEpoch.trySend
    else .next { s1 with txn := { s1.txn with oldCount := n } }

end Sys2Proof.Machine
end

