-- ==== Sys2Proof/Machine/Errlog.lean ====
section
/-! DEFINITION. The error log (R324 to R327) and what a report sets off: silent-error detections, unit faults (R325, R347). -/

namespace Sys2Proof.Machine

/-- Kinds whose occurrences are folded (R326). -/
def foldedKind (kind : Nat) : Bool := 0x0110 ≤ kind && kind ≤ 0x0112

/-- Kinds that are silent-error detections (R325). -/
def silentKind (kind : Nat) : Bool := 0x0100 ≤ kind && kind ≤ 0x0104

/-- Two reports are folded into one record (R326). -/
def Report.folds (x y : Report) : Bool :=
  x.kind == y.kind && x.unitClass == y.unitClass && x.phys == y.phys && x.subUnit == y.subUnit

/-- Pushes record `n` through the outbound window that errlog_push names (R327): one refused is counted and not retried. -/
def State.errlogPush (s : State) (n kind word : Nat) : State :=
  let v := s.ob Ob.errlog_push
  if bit v 16 ∧ kind / 256 < 16 ∧ bit v (32 + kind / 256) then
    let w := bits v 11 0
    let g := s.obe Ob.win_meadow w
    let slots := s.obe Ob.win_length w / 64
    if s.outReason (s.windowHome w) g w (bits v 15 12) ≠ 0 ∨ slots = 0 then s.addRec Ob.errlog_lost 0 2 1
    else s.sendRequest (s.windowHome w) (s.windowPeer w) 0 g .push none
      (s.remoteHandle w { blankFrame (s.windowHome w) 0 with op := 1, offset := n % slots * 64, payload := toLE 64 word })
  else s

/-- Writes a record at the end of the log; the oldest gives way when the ring is full (R327). -/
def State.logWrite (s : State) (r : Report) : State :=
  let n := s.ob Ob.errlog_next
  let log := s.errs.log.put 0 n (r.word n)
  let s :=
    if logRecords ≤ n then
      ({ s with errs := { s.errs with log := log.put 0 (n - logRecords) 0 } }).addRec Ob.errlog_lost 0 1 1
    else { s with errs := { s.errs with log } }
  (s.putOb Ob.errlog_next ((n + 1) % 2 ^ 64)).errlogPush n r.kind (r.word n)

/-- An offset of a tile's cistern lies in a copy of a precious region (R344, R347). -/
def State.inPrecious (s : State) (p off : Nat) : Bool :=
  match (s.tile p).meadow, (s.tile p).logical with
  | some g, some l => (s.regions g).any fun x =>
      let r := x.2
      let inside (base : Nat) : Bool := base ≤ off && off < base + bits r 127 96
      regionPrecious r && ((bits r 15 4 == l && inside (bits r 54 32)) || (bit r 3 && bits r 27 16 == l && inside (bits r 86 64)))
  | _, _ => false

/-- What a report makes a unit fault (R347): kinds 0x0102 and 0x0103, 0x0104 in a precious region, the second 0x0100 of a tile
within 1 s. -/
def State.faultOf (s : State) (r : Report) : State :=
  if r.unitClass ≠ 0 then s
  else if r.kind = 0x0102 ∨ r.kind = 0x0103 ∨ (r.kind = 0x0104 ∧ s.inPrecious r.phys r.detail2) then s.unitFault r.phys r.kind
  else if r.kind = 0x0100 then
    match (s.tile r.phys).meadow with
    | some g =>
      let old := (s.job g).residueAt
      let again := old.any fun x => x.1 == r.phys && r.time - x.2 < sec 1
      let s := s.modJob g fun j => { j with residueAt := (old.filter fun x => x.1 != r.phys) ++ [(r.phys, r.time)] }
      if again then s.unitFault r.phys r.kind else s
    | none => s
  else s

/-- ERROR_REPORT (R326): the oldest report on its way reaches the steward: folded, or logged and pushed. -/
def execErrorReport (s : State) : Out :=
  match s.errs.queue with
  | r :: rest =>
    if !s.stewardUp then s.noEvent
    else
      let s1 := { s with errs := { s.errs with queue := rest } }
      if foldedKind r.kind then
        let fs := s1.errs.folding
        let folding :=
          if fs.any r.folds then fs.map fun (x : Report) => if r.folds x then { x with count := sat 16 (x.count + 1) } else x
          else fs ++ [r]
        .next { s1 with errs := { s1.errs with folding } }
      else
        let s2 := s1.logWrite r
        .next ((if silentKind r.kind then s2.alert 3 else s2).faultOf r)
  | [] => s.noEvent

/-- ERRLOG_COALESCE_EXPIRY (R326): the record of a folded kind is written with its count. -/
def execErrlogCoalesceExpiry (key : Nat) (s : State) : Out :=
  match s.errs.folding[key]? with
  | some r =>
    if s.stewardUp ∧ us (s.ob Ob.errlog_coalesce) ≤ s.now - r.time then
      .next ({ s with errs := { s.errs with folding := dropAt s.errs.folding key } }.logWrite r)
    else s.noEvent
  | none => s.noEvent

end Sys2Proof.Machine
end

