-- ==== Sys2Proof/Machine/Packages.lean ====
section
/-! DEFINITION. Firmware packages: the header, delta bodies, the images they make (R24, R375, R377, R378, R380). -/

namespace Sys2Proof.Machine

/-! Packages (R377, R378). -/

/-- A little-endian field of a package header; hashes are read as numbers too. -/
def pkgField (bs : Bytes) (off n : Nat) : Nat := leNat ((bs.drop off).take n)

/-- Bytes of a package header. -/
def pkgHeader : Nat := 1024

/-- A component is in a package. -/
def pkgHas (bs : Bytes) (c : Nat) : Bool := bit (pkgField bs 3 1) c

/-- The components in a package. -/
def pkgComps (bs : Bytes) : List Nat := (List.range 5).filter (pkgHas bs)

/-- A package is a delta. -/
def pkgDelta (bs : Bytes) : Bool := pkgField bs 1 1 == 0

/-- The bytes of a component's body. -/
def pkgBody (bs : Bytes) (c : Nat) : Bytes :=
  ((bs.drop pkgHeader).drop (pkgField bs (160 + 128 * c) 8)).take (pkgField bs (168 + 128 * c) 8)

/-- The header is well-formed: format, kind, component bits, lengths, zero fields. -/
def pkgFormed (bs : Bytes) : Bool :=
  let body := bs.length - pkgHeader
  pkgHeader ≤ bs.length && pkgField bs 0 1 == 1 && pkgField bs 1 1 ≤ 1 && pkgField bs 2 1 ≤ 64 && pkgField bs 3 1 < 32 &&
    pkgField bs 4 4 == 0 && pkgField bs 8 8 == body && pkgField bs 16 48 == 0 && pkgField bs 800 224 == 0 &&
    (pkgComps bs).all fun c =>
      pkgField bs (182 + 128 * c) 10 == 0 && pkgField bs (160 + 128 * c) 8 + pkgField bs (168 + 128 * c) 8 ≤ body &&
        (pkgDelta bs || pkgField bs (64 + 128 * c) 48 == 0)

/-- Runs the operations of a delta body over the active component's image (R378); none where an operation is not 1 or 2, or runs past
its source. -/
def deltaRun (src : Bytes) : Nat → Bytes → Option Bytes
  | 0, _ => none
  | fuel + 1, body =>
    if body = [] then some []
    else if body.length < 16 then none
    else
      let op := pkgField body 0 1
      let len := pkgField body 4 4
      let at_ := pkgField body 8 8
      let rest := body.drop 16
      if op = 1 then
        if src.length < at_ + len then none
        else (deltaRun src fuel rest).map fun out => (src.drop at_).take len ++ out
      else if op = 2 then
        let padded := ceilDiv len 16 * 16
        if rest.length < padded then none
        else (deltaRun src fuel (rest.drop padded)).map fun out => rest.take len ++ out
      else none

/-- The image that a package makes of a component, over the one installed. -/
def pkgImage (bs : Bytes) (installed : Bytes) (c : Nat) : Option Bytes :=
  if pkgDelta bs then deltaRun installed ((pkgBody bs c).length + 1) (pkgBody bs c) else some (pkgBody bs c)

/-- Bytes that a component's place holds (R24, R375): the NOR slot, or half of the pattern store. -/
def slotBytes (c : Nat) : Nat := if c = 3 then 8 * 2 ^ 30 else 28 * 2 ^ 20

/-- A package's images fit: each its place, and those of the NOR slot together. -/
def pkgFits (images : List (Nat × Bytes)) : Option Nat :=
  let nor := ((images.filter fun x => x.1 != 3).map fun x => x.2.length).foldl (· + ·) 0
  if slotBytes 0 < nor then (images.find? fun x => x.1 != 3).map (·.1)
  else (images.find? fun x => slotBytes x.1 < x.2.length).map (·.1)

/-- The signature verifies over header bytes 0 to 703 and the body; the signature itself goes with the header (R377). -/
def pkgSigned (bs : Bytes) : Bool := Config.ecdsaOk (bs.take 800) (bs.drop pkgHeader)

/-- The images of a package over the components of a slot; an operation that is refused names its component. -/
def pkgImages (bs : Bytes) (x : FwSlot) : List (Nat × Bytes) ⊕ Nat :=
  match (pkgComps bs).find? fun c => (pkgImage bs (x.comp c).bytes c).isNone with
  | some c => .inr c
  | none => .inl ((pkgComps bs).map fun c => (c, (pkgImage bs (x.comp c).bytes c).getD []))

/-- The component of a package whose image has another hash than its to-hash (R380). -/
def pkgWrong (bs : Bytes) (images : List (Nat × Bytes)) : Option Nat :=
  (images.find? fun x => Config.sha384 x.2 != pkgField bs (112 + 128 * x.1) 48).map (·.1)

/-! The staged updates partition (R25, R379, R380). -/

/-- The staged package. -/
def State.staged (s : State) : Bytes := Mem.readBytes s.fw.staged 0 s.fw.recvLen

/-- Blocks of 64 KiB that images take. -/
def blocksOf (images : List (Nat × Bytes)) : Nat := (images.map fun x => ceilDiv x.2.length 65536).foldl (· + ·) 0

/-- Blocks that the apply of the staged package writes (R380). -/
def State.applyBlocks (s : State) : Nat :=
  match pkgImages s.staged (s.fw.slot s.fw.record.active) with
  | .inr _ => 0
  | .inl images => blocksOf images

end Sys2Proof.Machine
end

