-- ==== Sys2Proof/Machine/Boot.lean ====
section
/-! DEFINITION. Supplies, reset pins and reference clocks; the boot of the steward, its restart, recovery mode; what each loses (R23,
R255, R256, R288, R291, R336, R376, R384, R385, R388 to R393). -/

namespace Sys2Proof.Machine

/-! Firmware slots and the boot record (R375, R376). -/

/-- Writes the boot record: the older copy, with the next sequence number (R376). -/
def FwState.write (f : FwState) (r : BootRec) : FwState :=
  let r := { r with seq := (f.record.seq + 1) % 2 ^ 32 }
  if f.recA.seq < f.recB.seq then { f with recA := r } else { f with recB := r }

/-- The slot's components stand as the boot record's hashes say, and its security version is not below the counter (R382, R384). -/
def State.slotGood (s : State) (n : Nat) : Bool :=
  let x := s.fw.slot n
  !x.bad && s.fused.security ≤ x.security && (List.range 5).all fun c =>
    Config.sha384 (x.comp c).bytes == (x.comp c).toHash

/-! What is lost (R255, R256, R277, R333). -/

/-- A volatile object of a unit on 12 V. -/
def unitObject (key : Nat) : Bool :=
  let ix := key / 65536
  let mine := (0x4100 ≤ ix && ix < 0x7000) || (0x8100 ≤ ix && ix < 0xA000)
  mine && match objInfo key with
    | some o => o.pers == 0
    | none => false

/-- Every source's transaction is aborted, and the steward's own commits are dropped (R277). -/
def State.abortAll (s : State) (reason : Nat) : State :=
  let s := (List.range 5).foldl (fun s n => s.abortTxn n reason) s
  { s with txn := { s.txn with
    queue := [], own := []
    holder := match s.txn.current with
      | some c => if c.step = .sent then s.txn.holder else s.txn.holder.filter fun h => h.2 != ownHolder
      | none => s.txn.holder.filter fun h => h.2 != ownHolder
    current := match s.txn.current with
      | some c => if c.step = .sent then some c else none
      | none => none } }

/-- The ports that the host has fenced stand fenced whatever else holds (R236, R256). -/
def State.fencesShown (s : State) : State :=
  (List.range 256).foldl (fun s sp => if bit (s.ob Ob.port_fence) (sp / 8) then s.putObe Ob.port_state sp 6 else s) s

/-- Every tile, router, bridge and port-die unit loses its state, and every volatile object of theirs; open transactions and jobs end
with them (R277, R333). The fabric clocks stop with their PLLs. -/
def State.unitsLost (s : State) : State :=
  let s := (List.range 4).foldl (fun (s : State) d => s.putObe Ob.die_clock d 0) (s.abortAll 11)
  let s := (List.range 6).foldl (fun (s : State) d => s.putObe Ob.throttle_state d 0) s
  let s := { s with
    tiles := [], routers := [], net := [], dies := [], jobs := [], migs := []
    txn := { txns := s.txn.txns, lastApplied := 0 }
    test := { s.test with slots := [] }
    power := { s.power with
      cmds := [], entering := none, lastGrant := [], idleSince := s.now, throttled := [], coolFor := [], overLimit := false }
    host := { s.host with queues := [], doorbells := [], bar2Writes := [], bar2Data := [] }
    boot := { s.boot with routersUp := false, meadowsUp := false, stageWork := false, fusedApplied := false }
    dict := { s.dict with vals := s.dict.vals.filter fun x => !unitObject (x.1 / 65536) } }
  s.fencesShown

/-- Volatile values take their defaults, stored ones are loaded (R255, R256). A settings erase that has been asked for takes place at
a cold start, and removes the commissioning record (R269, R314). -/
def State.reload (s : State) (cold : Bool) : State :=
  let wipe := cold && s.dict.eraseNext
  let s := if wipe then { s with dict := { s.dict with stored := [], storedOld := none, eraseNext := false } } else s
  let vals := s.loadedVals
  let vals := if wipe then vals.put none (elemKey Ob.commission_slot 0) none else vals
  ({ s with
    txn := {}, dict := { s.dict with vals, journalDue := false }, boot := { s.boot with proposal := none } }).fencesShown

/-- The PCIe link is down. -/
def State.linkOff (s : State) : State := { s with host := { s.host with linkUp := false } }

/-- Port die W's mailbox is as after its own reset (R265). -/
def State.mailboxReset (s : State) : State :=
  { s with dict := { s.dict with mbBuf := [], mbBusy := false, mbDone := false, mbIe := false, mbVector := 0, mbRefused := 0 } }

/-- Every 12 V load is off: the module stands as in M4, with cisterns lost (R371, R389). -/
def State.loadsOff (s : State) : State :=
  let s := s.unitsLost.linkOff.mailboxReset
  { s with pins := { s.pins with loadsOn := false, mainPg := false } }.putOb Ob.module_state 4

/-- D6 (R333, R291): every unit on 12 V; volatile objects take their defaults, stored values stand, those not yet in the journal
included; stages 1 and 2 are to run again. A hold ends (R296), and a lost reference clock is back (R393). -/
def State.d6 (s : State) : State :=
  let s := if s.dict.journalDue then s.journalSettings else s
  let s := (List.range 4).foldl State.endSession s.unitsLost
  let s := ((s.reload false).linkOff.mailboxReset).runComps [1, 2, 4]
  { s with
    pins := { s.pins with loadsOn := false, mainPg := false, lostClks := [] }
    power := { lastRepeat := s.power.lastRepeat, badSensors := s.power.badSensors }
    fw := { s.fw with fetching := false }
    boot := { s.boot with held := false } }

/-! Stage status (R291). -/

/-- Bring-up stands at a stage with its status: state and reason. -/
def State.stageAt (s : State) (stage state reason : Nat) : State :=
  (s.putOb Ob.bringup_stage stage).putOb Ob.bringup_status
    (stage + fld state 4 + fld reason 8 + fld (s.now % 2 ^ 64) 64 + fld (s.now % 2 ^ 64) 128)

/-- Stage 1 begins once stage 0 is done and 12 V and MOD_RESET_N hold, not in M4 (R288, R388). -/
def State.stage1Due (s : State) : State :=
  if s.stageNow = (0, 1) ∧ s.boot.steward = .running ∧ s.pins.mainGood ∧ s.pins.modResetN ∧ !s.pins.loadsOn ∧ s.ob Ob.module_state ≠ 4 then
    s.stageBegin 1
  else s

/-- A stage that has begun is done; one that ends with its beginning begins and ends now. -/
def State.stageOver (s : State) (n : Nat) : State := if s.stageNow.1 = n ∧ s.stageNow.2 ≠ 1 then s.stageEnd 1 0 else s.stageAt n 1 0

/-! The boot ROM (R384, R385). -/

/-- The recovery endpoint's sub-port trains (R385): port 0 sub-port 0, with 12 V good, in its stored mode, where the stored root hash is
not zero. -/
def State.recoveryPort (s : State) : State :=
  if s.boot.steward = .recovery ∧ s.pins.loadsOn ∧ s.ob Ob.fm_root_hash ≠ 0 ∧ s.obe Ob.port_mode 0 ≠ 0 then s.putObe Ob.port_state 0 1
  else s

/-- Recovery mode (R385): `cause` 0 RECOVERY_N, 1 failed boots. -/
def State.enterRecovery (s : State) (cause : Nat) : State :=
  let s := { s.unitsLost with boot := { s.unitsLost.boot with steward := .recovery } }
  let s := { s with fw := s.fw.write { s.fw.record with recovery := true } }
  s.recoveryPort.raise { kind := 0x0A03, unitClass := 5, detail := cause }

/-- A boot has failed (R384): a trial falls back to the other slot; the second failure in a row enters recovery mode. Answers whether a
boot is to follow. -/
def State.bootFailed (s : State) : State × Bool :=
  let r := s.fw.record
  let n := min 3 (r.failed + 1)
  let s := { s with fw := { s.fw with lastFailed := some r.active } }
  let s :=
    if r.trial then
      let s := { s with fw := s.fw.write { r with active := 1 - r.active, trial := false, failed := n } }.oldSettings
      let s := { (s.putOb Ob.upd_state 0) with boot := { s.boot with activatedSince := true } }
      (s.alert 4).raise { kind := 0x0A02, unitClass := 5, detail := r.active }
    else { s with fw := s.fw.write { r with failed := n } }
  if 2 ≤ n then (s.enterRecovery 1, false) else (s, true)

/-- The ROM verifies the active slot and starts the steward; a slot that does not verify is a failed boot (R384). `mode` is booting,
or restarting where the units go on (R23). -/
def State.bootRom (s : State) (mode : StewardMode) : Nat → State
  | 0 => s
  | fuel + 1 =>
    if s.slotGood s.fw.record.active then { s with boot := { s.boot with steward := mode, bootAt := s.now } }
    else
      let r := s.bootFailed
      if r.2 then r.1.bootRom mode fuel else r.1

/-- The edge of AUX_RESET_N (R391): the straps are sampled; recovery mode, or stage 0. -/
def State.resetEdge (s : State) (st : Straps) (cold : Bool) : State :=
  let s := { s with
    pins := { s.pins with auxResetN := true }
    boot := { s.boot with strict := st.strict, slotId := st.slotId.toNat, held := false } }
  let s := s.reload cold
  let s := { s with fw := s.fw.write { s.fw.record with recovery := false } }
  if st.recoveryLow then s.enterRecovery 0
  else (s.stageAt 0 0 0).bootRom .booting 3

/-- A mismatch of the steward's cores is logged once it runs again (R23). -/
def State.mismatchLogged (s : State) : State :=
  if s.boot.lockstepPending then
    ({ s with boot := { s.boot with lockstepPending := false } }).raise { kind := 0x0600, unitClass := 5 }
  else s

/-- An apply goes on after a start (R380) with the block after the last one journalled; how many the update journal held is a free value
between those known and all of them. -/
def State.applyResumed (s : State) : State :=
  if s.ob Ob.upd_state = 3 then
    let n := s.fw.journal + s.freeVal 32 % (s.applyBlocks - s.fw.journal + 1)
    ({ s.drew with fw := { s.drew.fw with journal := n } }).raise { kind := 0x0A01, unitClass := 5, detail := n }
  else s

/-- A confirm whose last step a reset has cut short goes on with it (R383). -/
def State.confirmResumed (s : State) : State :=
  if s.fw.confirmDue then { s with defects := { s.defects with norDue := some (s.defects.norDue.getD s.now) } } else s

/-- The steward has begun to serve: a good boot clears the failure count (R384); a mismatch is logged (R23), an apply and a confirm go on
(R380, R383). -/
def State.bootDone (s : State) : State :=
  let s := { s with boot := { s.boot with steward := .running } }
  let r := s.fw.record
  let s := if r.failed = 0 ∧ !r.recovery then s else { s with fw := s.fw.write { r with failed := 0, recovery := false } }
  s.mismatchLogged.applyResumed.confirmResumed

/-! Power entry (R388, R389). -/

/-- AUX_POWER_GOOD (R388, R391): with AUX_RESET_N high the power-on reset is its edge. -/
def execAuxPowerGood (st : Straps) (resetHigh : Bool) (s : State) : Out :=
  if s.pins.auxGood then s.noEvent
  else
    let s1 := { s with
      pins := { s.pins with auxGood := true, auxResetN := resetHigh }, boot := { s.boot with powerHeld := false } }
    .next (if resetHigh then s1.resetEdge st true else s1.reload true)

/-- AUX_RESET_N_ASSERT (R291, R392): the steward is reset, and with it everything that stage 0 comes before. -/
def execAuxResetNAssert (s : State) : Out :=
  if !s.pins.auxGood ∨ !s.pins.auxResetN then s.noEvent
  else
    let s1 := ((List.range 4).foldl State.endSession s).loadsOff
    let s2 := { s1 with
      pins := { s1.pins with auxResetN := false }
      errs := { s1.errs with queue := [], folding := [] }
      boot := { s1.boot with steward := .off } }
    .next s2

/-- AUX_RESET_N_DEASSERT (R391). -/
def execAuxResetNDeassert (st : Straps) (s : State) : Out :=
  if s.pins.auxGood ∧ !s.pins.auxResetN then .next (s.resetEdge st false) else s.noEvent

/-- BOOT_TIMEOUT (R384): 1.5 s without stage 0 done. -/
def execBootTimeout (s : State) : Out :=
  if (s.boot.steward = .booting ∨ s.boot.steward = .restarting) ∧ ms 1500 ≤ s.now - s.boot.bootAt then
    let mode := s.boot.steward
    let r := s.bootFailed
    .next (if r.2 then r.1.bootRom mode 3 else r.1)
  else s.noEvent

/-- MAIN_POWER_APPLIED (R388): step 3. 12 V coming into range is a cold start (R290, R389). -/
def execMainPowerApplied (s : State) : Out :=
  if s.pins.mainGood ∧ s.pins.modResetN then s.noEvent
  else
    let cold := !s.pins.mainGood
    let s1 := { s with pins := { s.pins with mainGood := true, modResetN := true } }
    .next (if !cold then s1.stage1Due
      else if s.boot.steward = .running then ((s1.reload true).stageAt 0 1 0).stage1Due else s1.reload true)

/-- PCIe trains (stage 2): with MAIN_PG and PERST_N deasserted; without its reference clock it does not come up. -/
def State.trainPcie (s : State) : State :=
  if !s.pins.loadsOn || !s.pins.perstN then s
  else if s.pins.lostClks.contains .refclk100 then (if s.stageNow = (1, 1) then s.stageBegin 2 else s)
  else
    let s := { s with host := { s.host with linkUp := true } }
    if s.stageNow = (1, 1) ∨ s.stageNow = (2, 0) ∨ s.stageNow = (2, 2) then s.stageOver 2 else s

/-- REGULATOR_START (R388): step 4, stage 1, once stage 0 is done and 12 V and MOD_RESET_N hold; and not in M4. -/
def execRegulatorStart (s : State) : Out :=
  if !s.serving ∨ !s.pins.mainGood ∨ !s.pins.modResetN ∨ s.pins.loadsOn ∨ s.ob Ob.module_state = 4 then s.noEvent
  else
    let s1 := { s with pins := { s.pins with loadsOn := true, mainPg := true } }
    .next ((s1.stageOver 1).trainPcie.recoveryPort)

/-- PERST_DEASSERT (R288, R388). -/
def execPerstDeassert (s : State) : Out :=
  if s.pins.perstN then s.noEvent else .next ({ s with pins := { s.pins with perstN := true } }.trainPcie)

/-- PERST_ASSERT (R336): the PCIe port only; within a reset by AUX_RESET_N or MOD_RESET_N the link is down already (R392). -/
def execPerstAssert (s : State) : Out :=
  if !s.pins.perstN then s.noEvent else .next ({ s with pins := { s.pins with perstN := false } }.linkOff)

/-- MOD_RESET_N_ASSERT (R333, R392): D6, ending what is in progress; under AUX_RESET_N nothing more. A steward whose clock was lost
boots again. -/
def execModResetNAssert (s : State) : Out :=
  if !s.pins.modResetN then s.noEvent
  else
    let s1 := { s with pins := { s.pins with modResetN := false } }
    if !s.pins.auxGood ∨ !s.pins.auxResetN then .next s1
    else
      let s2 := (s1.d6.stageAt 0 1 0).countReset 6
      .next (if s.pins.lostClks.contains .xtal25 then (s2.stageAt 0 0 0).bootRom .booting 3 else s2)

/-- MAIN_SUPPLY_FAULT (R389). -/
def execMainSupplyFault (s : State) : Out :=
  if !s.pins.mainGood then s.noEvent
  else
    let s1 := { s.loadsOff with pins := { s.loadsOff.pins with mainGood := false } }
    let s2 := { s1 with boot := { s1.boot with powerHeld := false, held := false } }
    .next ((s2.putOb Ob.bringup_stage 0).putOb Ob.bringup_status
      (1 + fld 2 4 + fld 1 8 + fld (s.now % 2 ^ 64) 64 + fld (s.now % 2 ^ 64) 128))

/-- AUX_UNDERVOLTAGE (R389): every 12 V load is off, and the steward with AUX. Reports not yet logged and changes not yet journalled
are lost with it. -/
def execAuxUndervoltage (s : State) : Out :=
  if !s.pins.auxGood then s.noEvent
  else
    let s1 := ((List.range 4).foldl State.endSession s).loadsOff
    .next { s1 with
      pins := { s1.pins with auxGood := false, shutdownAt := none }
      power := {}
      errs := { s1.errs with queue := [], folding := [] }
      defects := { s1.defects with extra := [], norDue := none }
      dict := { stored := s1.dict.stored, storedOld := s1.dict.storedOld, vals := s1.dict.vals, eraseNext := s1.dict.eraseNext }
      fw := { s1.fw with fetching := false }
      boot := { s1.boot with steward := .off, powerHeld := false, held := false } }

/-- The sub-ports of a die go down, their clock lost (R205, R393). -/
def State.portsDown (s : State) (d : Nat) : State :=
  (List.range 128).foldl (fun s i =>
    let sp := 128 * d + i
    let st := s.obe Ob.port_state sp
    if 1 ≤ st ∧ st ≤ 4 then s.portReport sp (sp / 8 * 8) 5 else s) s

/-- REFCLK_LOSS (R393): the units it clocks stop until the next D6. The units of REFCLK100 are every fabric unit and PCIe, those of the
156.25 MHz clocks the ports of their side, that of XTAL25 the steward. -/
def execRefclkLoss (clk : RefClk) (s : State) : Out :=
  if s.pins.lostClks.contains clk then s.noEvent
  else
    let s1 := { s with pins := { s.pins with lostClks := s.pins.lostClks ++ [clk] } }
    .next (match clk with
      | .refclk100 => s1.unitsLost.linkOff
      | .refclk156w => s1.portsDown 0
      | .refclk156e => s1.portsDown 1
      | .xtal25 => { s1 with boot := { s1.boot with steward := .off } })

/-! The steward's restart (R23, R262, R277, R287, R326). -/

/-- The steward restarts: transactions whose EPOCH notice has not been sent are aborted, migrations with them; a tile that is frozen
thaws on its own. -/
def State.stewardRestart (s : State) : State :=
  let s := s.abortAll 8
  let s := s.migs.foldl (fun (s : State) x => if x.2.step != 0 && x.2.step < 4 then s.abandonMigration x.1 3 else s) s
  let s := { s with fw := { s.fw with fetching := false }, boot := { s.boot with bootAt := s.now } }
  s.bootRom .restarting 3

/-- STEWARD_LOCKSTEP_MISMATCH (R23): both cores stop and boot from ROM, whatever they were doing; in recovery mode the ROM serves again,
every session ended, and logs the mismatch at once (log entry 50). -/
def execStewardLockstepMismatch (s : State) : Out :=
  let s1 := { s with boot := { s.boot with lockstepPending := true } }.alert 0
  match s.boot.steward with
  | .off => s.noEvent
  | .booting => .next (s1.bootRom .booting 3)
  | .recovery => .next ((List.range 4).foldl State.endSession s1).mismatchLogged
  | .running => .next s1.stewardRestart
  | .restarting => .next s1.stewardRestart

/-- The re-placements of meadows whose commit a restart has dropped are made again (R348 step 3). -/
def State.replaceAgain (s : State) : State :=
  s.jobs.foldl (fun (s : State) x =>
    if !x.2.isolating then s
    else match s.placeAll (s.misplaced x.1) [] with
      | .inl moves =>
        if moves = [] then s.replacedDone x.1
        else s.drew.queueCommit (.replace x.1)
          (moves.foldl (fun m y => Tbl.put none m (elemKey Ob.map y.1) (some y.2)) [])
      | .inr l => s.drew.degrade x.1 l) s

/-- STEWARD_RESTART_COMPLETE (R23, R262, R277): the steward serves again; the mismatch is logged, an applied commit journalled, a BAR0
write discarded in the meantime recorded. -/
def execStewardRestartComplete (s : State) : Out :=
  if s.boot.steward ≠ .restarting then s.noEvent
  else
    let s1 := (s.bootDone).runComps [0]
    let s2 := s1.journalSettings
    let s3 := { s2 with dict := { s2.dict with restartRefusal := none } }
    let s4 := match s.dict.restartRefusal with
      | some key => s3.putOb Ob.dict_last_error
          (fld 0x09 8 + fld (key / 256 % 65536) 16 + fld (key % 256) 32 + fld (s.now % 2 ^ 64) 64)
      | none => s3
    .next s4.replaceAgain

end Sys2Proof.Machine
end

