-- ==== Sys2Proof/Machine/Repair.lean ====
section
/-! DEFINITION. Repair of a failure that a test has found (R105, R205, R295, R300). -/

namespace Sys2Proof.Machine

/-- A repair's outcome: the state, the defect's disposition (R300), the link ends it asks to fence. -/
structure Repaired where
  state : State
  disposition : Nat
  fences : List (Nat × Nat) := []

/-- Spare banks of a cistern (R105). -/
def spareBanks : Nat := 2

/-- Spare wires of a link direction at a bridge (R295). -/
def spareWires : Nat := 8

/-- The key of a bank, or of a link direction, of a tile. -/
def bankKey (unit sub : Nat) : Nat := unit * 256 + sub

/-- A failing bank takes a spare bank, else its tile is retired. -/
def State.repairBank (s : State) (unit : Nat) : Repaired :=
  let n := Tbl.get 0 s.defects.usedBanks unit
  if n < spareBanks then
    { state := { s with defects := { s.defects with usedBanks := s.defects.usedBanks.put 0 unit (n + 1) } }, disposition := 0 }
  else { state := s, disposition := 2 }

/-- The link ends of a tile. -/
def linkEnds (p : Nat) : List (Nat × Nat) := ((List.range 4).filter fun d => (meshNeighbour p d).isSome).map fun d => (p, d)

/-- The repair of a failure, by its kind (R295): a row or column takes a spare one of its bank, else the bank a spare bank, else the
tile is retired; a bridge wire takes a spare wire of its link direction, else the link is fenced; a link is fenced; a tile that fails
is retired, with its links fenced where its router failed; a lane is marked failed; a port-die unit is unrepairable. -/
def State.repair (s : State) (f : Failure) : Repaired :=
  let key := bankKey f.unit f.sub
  let x := s.defects
  if f.kind = 3 then
    if Tbl.get 0 x.usedRows key < Config.spareRows then
      { state := { s with defects := { x with usedRows := x.usedRows.mod 0 key (· + 1) } }, disposition := 0 }
    else s.repairBank f.unit
  else if f.kind = 4 then
    if Tbl.get 0 x.usedCols key < Config.spareCols then
      { state := { s with defects := { x with usedCols := x.usedCols.mod 0 key (· + 1) } }, disposition := 0 }
    else s.repairBank f.unit
  else if f.kind = 2 then s.repairBank f.unit
  else if f.kind = 6 then { state := s, disposition := 2, fences := linkEnds f.unit }
  else if f.kind = 7 then { state := s, disposition := 3, fences := [(f.unit, f.sub % 4)] }
  else if f.kind = 8 then
    if Tbl.get 0 x.usedWires key < spareWires then
      { state := { s with defects := { x with usedWires := x.usedWires.mod 0 key (· + 1) } }, disposition := 0 }
    else { state := s, disposition := 3, fences := [(f.unit, f.sub % 4)] }
  else if f.kind = 0x0B then { state := s, disposition := 4 }
  else if f.kind = 0x0C then { state := s, disposition := 5 }
  else if f.kind = 0x0D then { state := s, disposition := 6 }
  else { state := s, disposition := 2 }

/-- A failure is repaired and recorded with its source. -/
def State.repairFailure (s : State) (source : Nat) (f : Failure) : Repaired :=
  let r := s.repair f
  { r with state := r.state.recordDefect f.kind source r.disposition f.unit f.sub f.index }

/-- What the repairs of several failures came to: repairs made, tiles retired, links fenced. -/
structure RepairSum where
  state : State
  repairs : Nat := 0
  retired : List Nat := []
  fences : List (Nat × Nat) := []
  unrepairable : Bool := false

/-- Repairs failures in order. -/
def State.repairAll (s : State) (source : Nat) (fs : List Failure) : RepairSum :=
  fs.foldl (fun (x : RepairSum) f =>
    let r := x.state.repairFailure source f
    { state := r.state
      repairs := x.repairs + b2n (r.disposition == 0)
      retired := if r.disposition == 2 && !x.retired.contains f.unit then x.retired ++ [f.unit] else x.retired
      fences := x.fences ++ r.fences.filter fun l => !x.fences.contains l
      unrepairable := x.unrepairable || r.disposition == 5 }) { state := s }

end Sys2Proof.Machine
end

