-- ==== Sys2Proof/Machine/Testing.lean ====
section
/-! DEFINITION. Continuous test (R315 to R332): test rotation, shadow execution, margins and the projected end of life, the NOR copy of
the defect list. -/

namespace Sys2Proof.Machine

/-! Test rotation (R315 to R319). -/

/-- A rotation slot. -/
def State.slot (s : State) (i : Nat) : RotSlot := Tbl.get {} s.test.slots i

/-- Sets a rotation slot. -/
def State.setSlot (s : State) (i : Nat) (x : RotSlot) : State :=
  { s with test := { s.test with slots := s.test.slots.put {} i x } }

/-- Adds 1 to field `i` of rotation_counts: 0 visits, 1 passed, 2 failed, 3 skipped for buddy or neighbour, 4 for D = 0, 5 for no
spare, 6 abandoned, 7 router steps skipped. -/
def State.countRotation (s : State) (i : Nat) : State := s.addRec Ob.rotation_counts 0 i 1

/-- The tiles that hold the other copies of a tile's precious regions. -/
def State.otherCopies (s : State) (g l : Nat) : List Nat :=
  (s.regions g).filterMap fun x =>
    if !regionPrecious x.2 || !bit x.2 3 then none
    else if bits x.2 15 4 = l then some (bits x.2 27 16)
    else if bits x.2 27 16 = l then some (bits x.2 15 4)
    else none

/-- Why a tile with a logical role cannot be taken beside the logical tiles of the slot (R315): the field of rotation_counts. -/
def State.rotationCause (s : State) (taken : List Nat) (l : Nat) : Option Nat :=
  let copies := match s.meadowAt l with
    | some g => s.otherCopies g l
    | none => []
  if (copies ++ logicalNeighbours s.variant l).any taken.contains then some 3
  else if s.imageD l = some 0 then some 4
  else if (s.chooseSpare l true).isNone || s.freeMigration.isNone then some 5
  else none

/-- A tile that rotation passes over: retired, in a dark row, or already in a slot or a migration. -/
def State.passedOver (s : State) (p : Nat) : Bool :=
  s.retired p || darkRow s.variant p || (s.test.slots.any fun r => r.2.step != 0 && r.2.phys == p) ||
    s.migs.any fun m => m.2.step != 0 && (m.2.oldPhys == p || m.2.spare == p)

/-- A fallow tile is isolated for test; shadows it takes part in end. -/
def State.isolateFallow (s : State) (i p : Nat) : State :=
  ((s.dropShadows p).setSlot i { step := 2, phys := p, since := s.now }).countRotation 0

/-- A slot tries a tile (R315, R316): taken, or skipped and counted. `taken` are the slot's logical tiles; `n` its tiles so far. -/
def State.rotationTry (s : State) (taken : List Nat) (n p : Nat) : State × List Nat × Nat :=
  if s.passedOver p then (s, taken, n)
  else match s.roleOf p with
    | none => (s.isolateFallow n p, taken, n + 1)
    | some l => match s.rotationCause taken l with
      | some c => ((s.drew).countRotation c, taken, n)
      | none => match s.chooseSpare l true, s.freeMigration with
        | some q, some m =>
          (((s.drew.startMigration m l p q (some n)).setSlot n { step := 1, phys := p, logical := some l, since := s.now }).countRotation 0,
           taken ++ [l], n + 1)
        | _, _ => (s, taken, n)

/-- The tiles to be tried, in order: those to be taken first, then by physical id from where the previous slot stopped (R315). -/
def State.rotationOrder (s : State) : List Nat :=
  s.test.first ++ ((List.range 4608).map fun i => (s.test.nextPhys + i) % 4608).filter fun p => !s.test.first.contains p

/-- A slot takes its tiles. -/
def State.rotationTake (s : State) : State :=
  let first := s.test.first
  let width := s.ob Ob.rotation_width
  (s.rotationOrder.foldl (fun (x : State × List Nat × Nat) p =>
    if width ≤ x.2.2 then x
    else
      let y := x.1.rotationTry x.2.1 x.2.2 p
      if first.contains p then y
      else ({ y.1 with test := { y.1.test with nextPhys := (p + 1) % 4608 } }, y.2)) (s, [], 0)).1

/-- ROTATION_SLOT (R315, R317): `rotation_slot` after the last slot began, or when its tests have ended. -/
def execRotationSlot (s : State) : Out :=
  if s.ob Ob.rotation_enable = 1 ∧ s.stewardUp ∧ s.boot.routersUp ∧ !(s.test.slots.any fun r => r.2.step != 0) ∧
      ms (s.ob Ob.rotation_slot) ≤ s.now - s.test.slotStart then
    .next (({ s with test := { s.test with slotStart := s.now } }.runComps [3]).rotationTake)
  else s.noEvent

/-- The row repairs that scrub has asked for on a tile and that are still to be made (R104, R105). -/
def State.pendingRows (s : State) (p : Nat) : List Failure :=
  (s.defects.list.filter fun x => x.kind == 0x0D && x.unit == p &&
    !s.defects.list.any fun y => y.kind == 3 && y.unit == p && y.sub == x.sub && y.index == x.index).map fun x =>
      { kind := 3, unit := p, sub := x.sub, index := x.index }

/-- The values of a commit that fences link ends. -/
def State.fenceValues (s : State) (fs : List (Nat × Nat)) : Tbl (Option Nat) :=
  fs.foldl (fun m f =>
    let k := elemKey Ob.link_fence f.1
    Tbl.put none m k (some ((Tbl.get none m k).getD (s.obe Ob.link_fence f.1) ||| 2 ^ f.2))) []

/-- Fences and, for a router that has passed its test, releases the links of a tile (R316 step 6): each an epoch change. -/
def State.routerStep (s : State) (p : Nat) (fences : List (Nat × Nat)) (tested : Bool) : State :=
  let s := if fences = [] then s else s.queueCommit .fence (s.fenceValues fences)
  if tested ∧ fences = [] then
    let old := s.obe Ob.link_fence p
    (s.queueCommit .fence (s.fenceValues (linkEnds p))).queueCommit .fence [(elemKey Ob.link_fence p, some old)]
  else s

/-- The failures of a visit (R316): of the tile under test, and its margin below the retirement limit (R330). -/
def State.visitFailures (s : State) (p : Nat) (fs : List Failure) : List Failure :=
  (fs.filter fun f => f.unit == p && f.kind ≤ 0x0A && f.kind != 9) ++
    if (s.test.margins.any fun x => x.1 == p) && signed 16 (s.obe Ob.margin p) < (s.ob Ob.margin_retire : Nat) then
      [{ kind := 9, unit := p, sub := 0, index := 0 }] else []

/-- A failure as it is recorded: of a fleet pattern (kind 1, told by sub-unit 1) only the pattern's index. -/
def recorded (f : Failure) : Failure := if f.kind = 1 then { f with sub := 0 } else f

/-- The failures of fleet patterns are counted by index (R319). -/
def State.fleetFailed (s : State) (fs : List Failure) : State :=
  (fs.filter fun f => f.kind == 1 && f.sub == 1).foldl (fun s f => s.addObe Ob.fleet_failures f.index 1 32) s

/-- A visit ends (R316 steps 3 to 7, R319): repairs, failures recorded with source 2, the report, the router step, the reset, the
tile's return to the heath or its retirement. -/
def State.endVisit (s : State) (i : Nat) (x : RotSlot) (fs : List Failure) : State :=
  let p := x.phys
  let fails := s.visitFailures p fs
  let s := (s.repairAll 2 (s.pendingRows p)).state
  let r := s.repairAll 2 (fails.map recorded)
  let s := r.state.fleetFailed fails
  let s := if s.ob Ob.fleet_budget = 0 then s
    else { s with test := { s.test with fleetNext := s.freeVal 16 }, free := s.free + 1 }
  let s := match x.logical with
    | some l =>
      if fails.any fun f => f.kind ≤ 6 then
        s.raise { kind := 0x0700, phys := p, logical := l, meadow := (s.meadowAt l).getD 0xFF, detail2 := x.gaveUp }
      else s
    | none => s
  let through := s.routeThrough p
  let s := s.drew
  let s := s.routerStep p r.fences (!through)
  let s := if through then s.countRotation 7 else s
  let s := if fails = [] then (s.countRotation 1).putObe Ob.tile_last_test p s.now else s.countRotation 2
  let s := s.resetTile p true 50000
  { s.setSlot i {} with test := { (s.setSlot i {}).test with first := s.test.first.filter (· != p) } }

/-- ROTATION_TEST_COMPLETE (R316). -/
def execRotationTestComplete (i : Fin 8) (fs : List Failure) (s : State) : Out :=
  if !(fs.all Failure.wf) then .fault .malformedCommand
  else if (s.slot i).step ≠ 2 ∨ !s.stewardUp then s.noEvent
  else .next (s.endVisit i (s.slot i) fs)

/-! Shadow execution (R320 to R323). -/

/-- Adds 1 to field `i` of shadow_counts: 0 selected, 1 compared, 2 mismatched, 3 source suspect, 4 shadow suspect, 5 abandoned. -/
def State.countShadow (s : State) (i : Nat) : State := s.addRec Ob.shadow_counts 0 i 1

/-- The tiles that may be shadowed: members of meadows with a nonzero fraction, by meadow and logical id. -/
def State.shadowSources (s : State) : List Nat :=
  (List.range 256).flatMap fun g =>
    if s.obe Ob.shadow_fraction g = 0 then [] else (s.memberTiles g).filter (· < 4608)

/-- SHADOW_ASSIGN (R320): every second; assignments with an operation outstanding stand, the others go on to the next tiles. -/
def execShadowAssign (s : State) : Out :=
  if !s.stewardUp ∨ !s.boot.routersUp ∨ s.now - s.test.shadowAt < sec 1 then s.noEvent
  else
    let kept := (s.tiles.filter fun x => x.2.shadow.assigned.isSome && x.2.shadow.outstanding.isSome).map (·.1)
    let s1 := s.tiles.foldl (fun (s : State) x =>
      if kept.contains x.1 then s else s.modTile x.1 fun t => { t with shadow := { t.shadow with assigned := none } }) s
    let used := kept.filterMap fun p => (s.tile p).shadow.assigned
    let all := s.shadowSources.filter fun p => !kept.contains p
    let n := if all = [] then 0 else s.test.shadowNext % all.length
    let heath := s.heath.filter fun q => !used.contains q
    let pairs := ((all.drop n ++ all.take n).take (64 - kept.length)).zip heath
    let s2 := pairs.foldl (fun (s : State) (x : Nat × Nat) =>
      s.modTile x.1 fun t => { t with shadow := { t.shadow with assigned := some x.2 } }) s1
    .next { s2 with test := { s2.test with shadowAt := s.now, shadowNext := n + pairs.length } }

/-- A tile has a shadowed operation that still waits for its notice. -/
def Tile.awaitsNotice (t : Tile) : Bool := t.shadow.outstanding.isSome && !t.shadow.noticed && !t.shadow.abandoned

/-- Since when a shadowed operation holds its completion. -/
def Tile.shadowHeld (t : Tile) : Option Nat :=
  match t.shadow.outstanding with
  | some u => match (t.unit (u == .tensor)).exec with
    | some o => if o.shadowed && o.phase == .finished then some o.finishedAt else none
    | none => none
  | none => none

/-- SHADOW_COPY_DONE (R321 step 2): the notice reaches the source tile. -/
def execShadowCopyDone (p : Phys) (s : State) : Out :=
  if (s.tile p).awaitsNotice ∧ s.stewardUp then
    .next (s.modTile p fun t =>
      let t := match t.shadowHeld with
        | some at_ => t.lost s.now (s.now - at_)
        | none => t
      { t with shadow := { t.shadow with noticed := true } })
  else s.noEvent

/-- SHADOW_HOLD_TIMEOUT (R321): 100 µs after the operation's last result the completion is posted, and the shadow is abandoned. -/
def execShadowHoldTimeout (p : Phys) (s : State) : Out :=
  match (s.tile p).shadowHeld with
  | some at_ =>
    if (s.tile p).awaitsNotice ∧ us 100 ≤ s.now - at_ then
      .next ((s.abandonShadow p).modTile p fun t => t.lost s.now (s.now - at_))
    else s.noEvent
  | none => s.noEvent

/-- SHADOW_COMPARE (R321 step 5): the signatures agree, and the operation is done with; or the third run begins. -/
def execShadowCompare (p : Phys) (sig : BitVec 64) (s : State) : Out :=
  let x := (s.tile p).shadow
  match x.sig with
  | some a =>
    if x.outstanding.isNone ∨ !x.noticed ∨ x.abandoned ∨ x.sig2.isSome ∨ !s.stewardUp then s.noEvent
    else
      let s1 := s.countShadow 1
      if a = sig then .next (s1.modTile p Tile.endShadow)
      else .next ((s1.countShadow 2).modTile p fun t => { t with shadow := { t.shadow with sig2 := some sig } })
  | none => s.noEvent

/-- The report of a signature mismatch against a tile (R323, R325). -/
def State.shadowReport (s : State) (x : Shadow) (p : Nat) : State :=
  s.raiseFor x.job x.step { (s.tile p).report p 0x0101 with opValid := true, tag := x.tag, detail2 := (x.sig.getD 0).toNat }

/-- A tile is to be taken first in the next slot (R323, R330). -/
def State.takeFirst (s : State) (p : Nat) : State :=
  if s.test.first.contains p then s else { s with test := { s.test with first := s.test.first ++ [p] } }

/-- A shadow tile is tested at once (R323): in a free rotation slot, or first in the next. -/
def State.testNow (s : State) (q : Nat) : State :=
  match (List.range 8).find? fun i => (s.slot i).step == 0 with
  | some i => if s.passedOver q then s else s.isolateFallow i q
  | none => s.takeFirst q

/-- The source is suspect; the shadow is suspect (R323). -/
def State.sourceSuspect (s : State) (x : Shadow) (p : Nat) : State := ((s.countShadow 3).shadowReport x p).takeFirst p
def State.shadowSuspect (s : State) (x : Shadow) (q : Nat) : State := ((s.countShadow 4).shadowReport x q).testNow q

/-- THIRD_RUN_COMPLETE (R323): `sig` is the third run's signature, none where no third tile was free. -/
def execThirdRunComplete (p : Phys) (sig : Option (BitVec 64)) (s : State) : Out :=
  let x := (s.tile p).shadow
  match x.sig, x.sig2, x.assigned with
  | some a, some b, some q =>
    if x.outstanding.isNone ∨ !s.stewardUp then s.noEvent
    else
      let s1 := s.modTile p Tile.endShadow
      .next (if sig = some b then s1.sourceSuspect x p
        else if sig = some a then s1.shadowSuspect x q
        else (s1.sourceSuspect x p).shadowSuspect x q)
  | _, _, _ => s.noEvent

/-! Ageing (R330, R331). -/

/-- A day in ns. -/
def day : Nat := sec 86400

/-- MARGIN_MEASUREMENT (R330): the margin is shown; below the warning it is reported once, below the retirement limit reported and
the tile taken first. -/
def execMarginMeasurement (p : Phys) (ps : Int) (s : State) : Out :=
  if ps < -32768 ∨ 32767 < ps then .fault .malformedCommand
  else if !s.stewardUp ∨ !s.boot.routersUp ∨ darkRow s.variant p then s.noEvent
  else
    let old := Tbl.get [] s.test.margins p.val
    let hist := old.filter (fun x => s.now - x.1 ≤ 90 * day) ++ [(s.now, ps)]
    let warn := decide (ps < (s.ob Ob.margin_warn : Nat)) && !s.test.warned.contains p.val
    let s1 := { s.putObe Ob.margin p (unsigned 16 ps) with test := { s.test with
      margins := s.test.margins.put [] p.val hist, warned := if warn then s.test.warned ++ [p.val] else s.test.warned } }
    let s2 := if warn then s1.raiseTile p 0x0603 0 else s1
    .next (if ps < (s.ob Ob.margin_retire : Nat) then (s2.raiseTile p 0x0604 0).takeFirst p else s2)

/-- Twenty years in days. -/
def twentyYears : Nat := 7305

/-- The projected retirements exceed the spares on day `d` from today (R331): `others` tiles were retired for other causes in the last
90 days, `etas` are the tiles' crossing times. -/
def retirementsExceed (etas : List Nat) (others spares today d : Nat) : Bool :=
  90 * spares < others * d + 90 * (etas.filter fun e => e != 0 && e ≤ (today + d) * day).length

/-- The predicted end of life: the start of the first such day; all ones beyond twenty years (R331). -/
def eolDate (etas : List Nat) (others spares today : Nat) : Nat :=
  match (List.range (twentyYears + 1)).find? (retirementsExceed etas others spares today) with
  | some d => (today + d) * day
  | none => 2 ^ 64 - 1

/-- The projected crossing time of a tile (R331): 0 for none, all ones beyond twenty years. The arithmetic of the fit is not stated. -/
def State.crossing (s : State) (hist : List (Nat × Int)) : Nat :=
  let e := Config.marginEta hist (s.ob Ob.margin_retire) % 2 ^ 64
  if s.now + twentyYears * day < e then 2 ^ 64 - 1 else e

/-- Tiles retired for another cause than margin in the last 90 days. -/
def State.otherRetired (s : State) : Nat :=
  ((s.defects.list.filter fun x => x.disposition == 2 && x.kind != 9 && s.now - x.firstSeen ≤ 90 * day).map (·.unit)).eraseDups.length

/-- EOL_PROJECTION (R331): each day the projections are made anew. -/
def execEolProjection (s : State) : Out :=
  let today := s.now / day
  if !s.stewardUp ∨ today ≤ s.test.lastEol then s.noEvent
  else
    let s1 := s.test.margins.foldl (fun (s : State) x => s.putObe Ob.margin_eta x.1 (s.crossing x.2)) s
    let etas := s.test.margins.map fun x => s1.obe Ob.margin_eta x.1
    let oldest := (s.test.margins.flatMap fun x => x.2.map (·.1)).foldl min s.now
    let eol := if s.now - oldest < 30 * day then 0
      else eolDate etas s.otherRetired (s.heath.length - s.ob Ob.heath_reserve) today
    .next { s1.putOb Ob.eol_date eol with test := { s.test with lastEol := today } }

/-! The NOR copy (R301). -/

/-- DEFECT_NOR_WRITE (R301). -/
def execDefectNorWrite (s : State) : Out :=
  if s.defects.norDue.isSome ∧ s.stewardUp then
    .next { s with
      defects := { s.defects with nor := s.defects.list, norDue := none }
      fw := { s.fw with confirmDue := false }
      dict := { s.dict with storedOld := if s.fw.confirmDue then none else s.dict.storedOld } }
  else s.noEvent

end Sys2Proof.Machine
end

