-- ==== Sys2Proof/Machine/BringUp.lean ====
section
/-! DEFINITION. Bring-up stages 3 to 7 (R288 to R297), the map proposal (R306, R307), repair fuses (R299), commissioning (R314). -/

namespace Sys2Proof.Machine

/-! Which command is accepted (R289, R296, R314). -/

/-- A port that stands idle though its mode enables it: it was held back while the module was uncommissioned (R313). -/
def State.portWaits (s : State) (p : Nat) : Bool :=
  !bit (s.ob Ob.port_fence) p && (modeSubs (s.obe Ob.port_mode p)).any fun x => s.obe Ob.port_state (p * 8 + x.1) == 0

/-- A newly commissioned module may be commanded to stage 7 again (R314). -/
def State.portsHeldBack (s : State) : Bool :=
  7 ≤ s.ob Ob.bringup_stage && s.stageNow.2 == 1 && s.commissioned && (List.range 32).any s.portWaits

/-- The reason in `bringup_status`. -/
def State.stageReason (s : State) : Nat := bits (s.ob Ob.bringup_status) 15 8

/-- A stage command is accepted (R289): the stage before is done, or the stage itself has failed with a reason other than 6 and 7.
Command 5 is taken again for a fresh proposal (R307). -/
def State.stageAccepts (s : State) (n : Nat) : Bool :=
  !s.boot.held &&
    ((s.ob Ob.bringup_stage == n - 1 && s.stageNow == (n - 1, 1)) ||
     (s.ob Ob.bringup_stage == n && s.stageNow == (n, 2) && s.stageReason != 6 && s.stageReason != 7) ||
     (n == 5 && s.stageNow == (5, 0)) || (n == 7 && s.portsHeldBack))

/-! Stage 3 (R288, R298, R393). -/

/-- Command 3: a reference clock that is missing fails the stage with reason 2; otherwise its work begins. -/
def State.command3 (s : State) : State :=
  let s := s.stageBegin 3
  if s.pins.lostClks = [] then s else s.stageEnd 2 2

/-- Stage 3 is done: fused repairs are applied, the routers and the maintenance ring are released, the fabric clocks run at their lowest
rate. -/
def State.stage3Done (s : State) : State :=
  let s := (List.range 4).foldl (fun (s : State) d => s.putObe Ob.die_clock d 600) s
  { s with boot := { s.boot with routersUp := true, fusedApplied := true } }

/-! Stage 4 (R292 to R297). -/

/-- The copies of the defect list that can be read (R301). -/
def State.defectsReadable (s : State) : Bool := !s.defects.listBad || !s.defects.norBad

/-- Stage 4 takes the fast path (R292). -/
def State.fastPath (s : State) : Bool :=
  s.ob Ob.start_test_mode == 0 && s.defectsReadable && s.boot.powerHeld && !s.boot.activatedSince && !s.boot.lastFullFailed &&
    match s.boot.lastFull with
    | some t => s.now - t < sec (3600 * s.ob Ob.full_test_interval)
    | none => false

/-- Puts the fences of repairs into `link_fence`. -/
def State.putFences (s : State) (fs : List (Nat × Nat)) : State :=
  fs.foldl (fun (s : State) f => s.putObe Ob.link_fence f.1 (s.obe Ob.link_fence f.1 ||| 2 ^ f.2)) s

/-- Command 4: the failures that the test finds are recorded with source start-up and repaired; the outcome and the result are shown
when the stage is done. With no copy of the defect list readable an empty one is started (R301). Under BIST_STRICT every failure counts that no fused repair covers, those covered by soft repairs included. -/
def State.command4 (s : State) (fs : List Failure) : State :=
  let fast := s.fastPath
  let fresh := !s.defectsReadable
  let s := (s.runComps [3]).stageBegin 4
  let s := if fresh then { s with defects := { s.defects with list := [], extra := [], nor := [], norDue := some s.now, listBad := false, norBad := false } }
    else s
  let found := fs.length + if s.boot.strict then s.softRepairs else 0
  let r := s.repairAll 1 (fs.map recorded)
  let s := (r.state.fleetFailed fs).putFences r.fences
  let outcome :=
    if s.boot.strict ∧ found ≠ 0 then (3, 7)
    else if r.unrepairable ∨ (r.fences ≠ [] ∧ !s.routable) then (2, 6)
    else (1, if fresh then 5 else 0)
  let s := if fast then s
    else ((List.range 4608).filter fun p => !darkRow s.variant p).foldl (fun (s : State) p => s.putObe Ob.tile_last_test p s.now) s
  let result := b2n fast + fld (sat 8 fs.length) 8 + fld (sat 16 r.repairs) 16 + fld (sat 16 r.retired.length) 32 +
    fld (sat 16 r.fences.length) 48
  { s with boot := { s.boot with testOutcome := outcome, testResult := result } }

/-- Stage 4 is done: the result is written; the stage is done, failed or held (R296, R297). -/
def State.stage4Done (s : State) : State :=
  let o := s.boot.testOutcome
  let full := !bit s.boot.testResult 0
  let last := if full then some s.now else s.boot.lastFull
  let elapsed := (s.now - bits (s.ob Ob.bringup_status) 127 64) / 1000000
  let s := s.putOb Ob.start_test_result
    (s.boot.testResult + fld (sat 32 elapsed) 64 + fld (last.getD 0 % 2 ^ 64) 96)
  let b := { s.boot with lastFull := last, held := o.1 != 1 }
  let b := if full then { b with lastFullFailed := o.1 != 1, powerHeld := true, activatedSince := false } else b
  ({ s with boot := b }).stageEnd o.1 o.2

/-! Stage 5 (R301, R306). -/

/-- The proposal's changes so far over the committed map. -/
def State.proposed (s : State) (ch : Tbl (Option Nat)) (l : Nat) : Nat := (Tbl.get none ch l).getD (s.physOf l)

/-- One logical id of the proposal (R306): from a retired tile it goes to the best candidate of the heath that is left. -/
def State.propose (s : State) (heath : List Nat) (ch : Tbl (Option Nat)) (l : Nat) : Tbl (Option Nat) :=
  let p := s.physOf l
  if p = 0xFFFF ∨ !s.retired p then ch
  else
    let left := heath.filter fun q => !ch.any fun x => x.2 == some q
    Tbl.put none ch l (some ((bestOf (s.candidates left (s.proposed ch) l fun _ => s.ob Ob.map_detour)).getD 0xFFFF))

/-- The map proposal, as its changes over the committed map. -/
def State.proposal (s : State) : Tbl (Option Nat) :=
  (List.range (logicalTiles s.variant)).foldl (s.propose s.heath) []

/-- Command 5: the defect lists are merged, a copy that cannot be read skipped (R301), and the proposal is built (R306). -/
def State.command5 (s : State) : State :=
  let list := unionDefects (if s.defects.listBad then [] else s.defects.list) (if s.defects.norBad then [] else s.defects.nor)
  let due := if list = s.defects.nor then s.defects.norDue
    else match s.defects.norDue with
      | some t => some t
      | none => some s.now
  let s := ({ s with defects := { s.defects with list, norDue := due, listBad := false, norBad := false } }).stageBegin 5
  let changes := s.proposal
  let m := s.proposed changes
  let left := ((List.range (logicalTiles s.variant)).filter fun l => m l == 0xFFFF).length
  let new := (List.range 4096).filterMap fun l => if m l = nominalMap s.variant l then none else some (l, some (m l))
  let s := { s with boot := { s.boot with proposal := some new } }
  (s.putOb Ob.map_unplaced left).putOb Ob.map_state (if left = 0 then 2 else 3)

/-! Stage 6 (R312). -/

/-- An object that command 6 commits. -/
def meadowSetting (key : Nat) : Bool :=
  (key == Ob.tile_meadow || (0x3F0000 ≤ key && key ≤ 0x3F01FF) || (0x510000 ≤ key && key ≤ 0x5102FF)) &&
    ((objInfo key).map (·.pers)).getD 0 == 1

/-- Command 6: the steward commits the stored meadow settings in a transaction of its own. -/
def State.command6 (s : State) : State :=
  (s.stageBegin 6).queueCommit (.stage 6) (s.dict.vals.filter fun x => meadowSetting (x.1 / 65536))

/-! Stage 7 (R288, R313). -/

/-- A port with no sub-port up. -/
def State.portIdle (s : State) (p : Nat) : Bool :=
  (List.range 8).all fun i => !s.subUp (p * 8 + i)

/-- Command 7: the stored port settings take effect; ports that are not up already train. -/
def State.command7 (s : State) : State :=
  let stage := max 7 (s.ob Ob.bringup_stage)
  let s := (s.stageBegin 7).putOb Ob.bringup_stage stage
  ((List.range 32).filter s.portIdle).foldl State.portTrain s

/-- No enabled sub-port is still training. -/
def State.portsSettled (s : State) : Bool := (List.range 256).all fun sp => s.obe Ob.port_state sp != 1

/-- A write of `bringup_command` (R289). `fs` are the failures that a start-up test finds. -/
def State.bringupCommand (s : State) (n : Nat) (fs : List Failure) : State × Nat :=
  if n < 3 ∨ 7 < n ∨ !s.stageAccepts n then (s, 0x0D)
  else (match n with
    | 3 => s.command3
    | 4 => s.command4 fs
    | 5 => s.command5
    | 6 => s.command6
    | _ => s.command7, 0)

/-! Rows. -/

/-- STAGE_DONE (R288): the work of the stage under way is finished; `reason` is 0, or why stage 3 has failed. Stage 0 ends here too; 1
and 2 end with their events, 5 and 6 with a commit. -/
def execStageDone (reason : Nat) (s : State) : Out :=
  if s.boot.steward = .booting then
    if reason = 0 then .next ((s.bootDone.runComps [0, 1, 2, 3, 4]).stageEnd 1 0).stage1Due else s.noEvent
  else if !s.boot.stageWork ∨ !s.stewardUp then s.noEvent
  else
    let n := s.stageNow.1
    if n = 3 then
      if reason = 0 then .next (s.stage3Done.stageEnd 1 0)
      else if reason = 2 ∨ reason = 3 then .next (s.stageEnd 2 reason)
      else s.noEvent
    else if reason ≠ 0 then s.noEvent
    else if n = 4 then .next s.stage4Done
    else if n = 7 ∧ s.portsSettled then .next (s.stageEnd 1 (if s.commissioned then 0 else 9))
    else s.noEvent

/-- The limit of the stage under way (R288) in ns; that of a fast stage 4 is longer by the full steps for units that failed (R294). -/
def State.stageLimit (s : State) : Option Nat :=
  match s.stageNow.1 with
  | 1 => some (ms 200)
  | 2 => some (ms 200)
  | 3 => some (ms 600)
  | 4 =>
    if !bit s.boot.testResult 0 then some (sec 40)
    else if bits s.boot.testResult 15 8 = 0 then some (ms 1200) else some (ms 39700)
  | 6 => some (ms 500)
  | 7 => some (sec 1)
  | _ => none

/-- STAGE_LIMIT_EXCEEDED (R290): the stage fails with reason 10, and its work goes on. -/
def execStageLimitExceeded (s : State) : Out :=
  match s.stageLimit with
  | some limit =>
    if s.stageNow.2 = 0 ∧ s.stewardUp ∧ limit < s.now - bits (s.ob Ob.bringup_status) 127 64 then
      let s1 := s.stageEnd 2 10
      .next { s1 with boot := { s1.boot with stageWork := true } }
    else s.noEvent
  | none => s.noEvent

/-! Map adoption, fuses, commissioning. -/

/-- A write of `map_adopt` (R307): the proposal is staged whole. -/
def State.mapAdopt (s : State) (src : Source) (v : Nat) : State × Nat :=
  if v ≠ 1 then (s, 0)
  else match srcTxn src, objInfo Ob.map with
    | some n, some o =>
      if !(s.txnOf n).opened ∨ (s.txnOf n).committing then (s, 0x07)
      else if s.ob Ob.map_state ≠ 2 ∧ s.ob Ob.map_state ≠ 3 then (s, 0x0D)
      else s.stage src o 0 ((List.range 4096).map s.proposedAt)
    | _, _ => (s, 0x03)

/-- A soft repair is burned where its die's budget allows (R299). -/
def burnOne (x : Fused × List Defect) (y : Defect) : Fused × List Defect :=
  let d := dieOf y.unit
  let n := Tbl.get 2048 x.1.budget d
  if y.disposition = 0 ∧ n ≠ 0 then
    ({ x.1 with budget := x.1.budget.put 2048 d (n - 1) }, x.2 ++ [({ y with disposition := 1 } : Defect)])
  else (x.1, x.2 ++ [y])

/-- Stage 4 is done, and no later stage has failed it. -/
def State.stage4Passed (s : State) : Bool := 5 ≤ s.ob Ob.bringup_stage || s.stageNow == (4, 1)

/-- A write of `fuse_burn` (R299). -/
def State.fuseBurn (s : State) (v : Nat) : State × Nat :=
  if v ≠ 1 then (s, 0x04)
  else if !s.stage4Passed ∨ ((List.range 256).any fun g => s.members g != []) ∨ !s.pins.mainGood then (s, 0x0D)
  else
    let r := s.defects.list.foldl burnOne (s.fused, [])
    let due := match s.defects.norDue with
      | some t => some t
      | none => if r.2 = s.defects.list then none else some s.now
    ({ s with fused := r.1, defects := { s.defects with list := r.2, norDue := due } }, 0)

/-- A write of `commission` (R314): of the sampled slot, of 0xFF, or refused. -/
def State.commissionWrite (s : State) (v : Nat) : State × Nat :=
  if v = 0xFF then
    let s := s.putOb Ob.commission_slot 0xFF
    (((List.range 32).drop 1).foldl State.portTrain s, 0)
  else if 64 ≤ v then (s, 0x04)
  else if v ≠ s.boot.slotId then (s, 0x0D)
  else (s.putOb Ob.commission_slot v, 0)

end Sys2Proof.Machine
end

