-- ==== Sys2Proof/Machine/Firmware.lean ====
section
/-! DEFINITION. Firmware packages, the update procedure, recovery images (R375 to R386). -/

namespace Sys2Proof.Machine

/-! Checks and installation (R377, R379). -/

/-- The checks of a package against a slot (R379, R382): the reason and the component of the first that fails. -/
def State.pkgCheck (s : State) (bs : Bytes) (x : FwSlot) : Option (Nat × Nat) :=
  if s.fw.record.trial then some (7, 0)
  else if !pkgFormed bs then some (4, 0)
  else if !pkgSigned bs then some (1, 0)
  else if pkgField bs 2 1 < s.fused.security then some (3, 0)
  else match (pkgComps bs).find? fun c =>
      pkgDelta bs && Config.sha384 (x.comp c).bytes != pkgField bs (64 + 128 * c) 48 with
    | some c => some (2, c)
    | none => match pkgImages bs x with
      | .inr c => some (4, c)
      | .inl images => (pkgFits images).map fun c => (5, c)

/-- Writes a package's images into a slot. -/
def FwSlot.install (x : FwSlot) (bs : Bytes) (images : List (Nat × Bytes)) : FwSlot :=
  { comps := images.foldl (fun (m : Tbl (Option CompImage)) y => m.put none y.1 (some {
      bytes := y.2, toHash := pkgField bs (112 + 128 * y.1) 48, version := pkgField bs (176 + 128 * y.1) 4 })) x.comps
    security := pkgField bs 2 1
    settings := if pkgHas bs 4 then pkgField bs (180 + 128 * 4) 2 else x.settings
    bad := false }

/-! The update procedure (R379 to R383). -/

/-- The slot that is not active. -/
def FwState.inactive (f : FwState) : Nat := 1 - f.record.active

/-- Sets a slot. -/
def State.setSlotFw (s : State) (n : Nat) (x : FwSlot) : State := { s with fw := { s.fw with slots := s.fw.slots.put {} n x } }

/-- Sets `upd_state` and `upd_status` (reason, component, blocks written). -/
def State.updSet (s : State) (state reason comp blocks : Nat) : State :=
  (s.putOb Ob.upd_state state).putOb Ob.upd_status (reason + fld comp 8 + fld (blocks % 2 ^ 32) 16)

/-- Begin, apply and activate are refused (R379): a stage, a recovery, a migration or a commit is under way. -/
def State.updBusy (s : State) : Bool :=
  s.stageNow.2 == 0 || s.boot.stageWork || (s.jobs.any fun j => j.2.recovering || j.2.isolating) ||
    (s.migs.any fun m => m.2.step != 0) || s.txn.current.isSome || s.txn.queue != [] || s.txn.own != []

/-- Verify: verified, or failed with a reason and a report. -/
def State.updVerify (s : State) : State :=
  match s.pkgCheck s.staged (s.fw.slot s.fw.record.active) with
  | some r => (s.updSet 6 r.1 r.2 0).raise { kind := 0x0A00, unitClass := 5, detail := r.1 }
  | none => s.updSet 2 0 0 0

/-- Another component than the running one is active. -/
def State.activated (s : State) : State := { s with boot := { s.boot with activatedSince := true } }

/-- Confirm (R383): the counter goes up to the image's security version, trial is cleared, the NOR copy is
due, and the old format's records go with its writing. -/
def State.updConfirm (s : State) : State :=
  let v := min 64 (max s.fused.security (s.fw.slot s.fw.record.active).security)
  let due := match s.defects.norDue with
    | some t => some t
    | none => some s.now
  let s := { s with
    fused := { s.fused with security := v }
    fw := { s.fw.write { s.fw.record with trial := false } with confirmDue := true }
    defects := { s.defects with norDue := due } }
  (s.updSet 0 0 0 0).raise { kind := 0x0A04, unitClass := 5, detail := v }

/-- A write of `upd_command` (R379). -/
def State.updCommand (s : State) (v : Nat) : State × Nat :=
  let st := s.ob Ob.upd_state
  let no : State × Nat := (s, 0x0D)
  match v with
  | 1 =>
    if (st ≠ 0 ∧ st ≠ 6) ∨ s.updBusy then no
    else
      ({ s with fw := { s.fw with staged := [], recvLen := s.ob Ob.upd_length, fetching := false } }.updSet 1 0 0 0, 0)
  | 2 =>
    if st ≠ 1 ∨ s.fw.fetching ∨ !s.host.linkUp then no else ({ s with fw := { s.fw with fetching := true } }, 0)
  | 3 => if st ≠ 1 ∨ s.fw.fetching then no else (s.updVerify, 0)
  | 4 =>
    if st ≠ 2 ∨ s.updBusy then no
    else
      let s := { s with fw := { s.fw with journal := 0 } }
      ((s.setSlotFw s.fw.inactive { s.fw.slot s.fw.inactive with bad := true }).updSet 3 0 0 0, 0)
  | 5 =>
    if st ≠ 4 ∨ s.updBusy then no
    else
      let s := { s with fw := s.fw.write { s.fw.record with active := s.fw.inactive, trial := true } }.journalSettings
      ((s.updSet 5 0 0 0).activated.stewardRestart, 0)
  | 6 => if st ≠ 5 then no else (s.updConfirm, 0)
  | 7 =>
    if st ≠ 5 then no
    else
      let n := s.fw.inactive
      let s := { s with fw := s.fw.write { s.fw.record with active := n, trial := false } }.oldSettings
      let s := (s.updSet 0 0 0 0).raise { kind := 0x0A05, unitClass := 5, detail := n }
      (s.activated.stewardRestart, 0)
  | 8 =>
    if st ≠ 1 ∧ st ≠ 2 ∧ st ≠ 4 ∧ st ≠ 6 then no
    else ({ s with fw := { s.fw with staged := [], recvLen := 0, fetching := false } }.updSet 0 0 0 0, 0)
  | _ => no

/-- A write of an element of `upd_chunk` (R379): 2,048 B of the package, while it is received. -/
def State.updChunk (s : State) (e v : Nat) : State × Nat :=
  if s.ob Ob.upd_state ≠ 1 then (s, 0x0D)
  else
    let at_ := 2048 * e + 2 ^ 27 * s.ob Ob.upd_base
    ({ s with fw := { s.fw with staged := Mem.writeLE s.fw.staged at_ 2048 v } }, 0)

/-- FETCH_COMPLETE (R379): the bytes that the host's memory gave have arrived; none arrive when the PCIe link has gone down. -/
def execFetchComplete (bytes : Bytes) (s : State) : Out :=
  if !s.fw.fetching ∨ !s.stewardUp ∨ bytes.length ≠ s.fw.recvLen then s.noEvent
  else
    let s1 := { s with fw := { s.fw with fetching := false } }
    .next (if s.host.linkUp then
        { s1.hostWrite (s.ob Ob.upd_host_addr) bytes with fw := { s1.fw with staged := Mem.writeBytes s1.fw.staged 0 bytes } }
      else s1)

/-- APPLY_COMPLETE (R380): the images stand in the inactive slot, every block journalled, and their hashes are checked; on a mismatch the slot is left
unusable. -/
def execApplyComplete (s : State) : Out :=
  if s.ob Ob.upd_state ≠ 3 ∨ !s.stewardUp then s.noEvent
  else
    let n := s.fw.inactive
    match pkgImages s.staged (s.fw.slot s.fw.record.active) with
    | .inr c => .next (s.updSet 6 4 c 0)
    | .inl images =>
      let x := (s.fw.slot n).install s.staged images
      let s := { s with fw := { s.fw with journal := blocksOf images } }
      match pkgWrong s.staged images with
      | some c => .next ((s.setSlotFw n { x with bad := true }).updSet 6 6 c (blocksOf images))
      | none => .next ((s.setSlotFw n x).updSet 4 0 0 (blocksOf images))

/-! Recovery images (R385, R386). -/

/-- The recovery image in `rec_chunk`. -/
def State.recImage (s : State) : Bytes :=
  let n := s.ob Ob.rec_length
  ((List.range (ceilDiv n 2048)).flatMap fun e => toLE 2048 (s.obe Ob.rec_chunk e)).take n

/-- Install (R386): the ROM verifies a full image of components 0, 1, 2 and 4, writes it to the slot that failed last, else slot A, checks
the to-hashes, and makes the slot active and confirmed. A failed one leaves the boot record unchanged. -/
def State.recInstall (s : State) : State :=
  let bs := s.recImage
  let n := s.fw.lastFailed.getD 0
  let x := s.fw.slot n
  let refuse (reason comp : Nat) (s : State) : State :=
    (s.putOb Ob.upd_status (reason + fld comp 8)).raise { kind := 0x0A00, unitClass := 5, detail := reason }
  if pkgDelta bs ∨ pkgField bs 3 1 ≠ 0x17 then refuse 4 0 s
  else match ({ s with fw := { s.fw with recA := { s.fw.recA with trial := false }, recB := { s.fw.recB with trial := false } } }).pkgCheck bs x with
    | some r => refuse r.1 r.2 s
    | none =>
      let images := (pkgComps bs).map fun c => (c, pkgBody bs c)
      match pkgWrong bs images with
      | some c => refuse 6 c (s.setSlotFw n { x with bad := true })
      | none =>
        let v := min 64 (max s.fused.security (pkgField bs 2 1))
        let s := s.setSlotFw n (x.install bs images)
        let s := { s with
          fw := s.fw.write { s.fw.record with active := n, trial := false }
          fused := { s.fused with security := v } }
        ((s.updSet 0 0 0 (blocksOf images)).activated).raise { kind := 0x0A06, unitClass := 5, detail := n }

/-- Leave (R386): the ROM boots the active slot; stage 0 begins. -/
def State.recLeave (s : State) : State :=
  let s := (List.range 4).foldl State.endSession s
  let s := { s with fw := s.fw.write { s.fw.record with recovery := false } }
  ((s.reload false).stageAt 0 0 0).bootRom .booting 3

/-- A write of `rec_command` (R386). -/
def State.recCommand (s : State) (v : Nat) : State × Nat :=
  if s.boot.steward ≠ .recovery then (s, 0x0D)
  else if v = 1 then (s.recInstall, 0)
  else if v = 2 then (s.recLeave, 0)
  else (s, 0x04)

end Sys2Proof.Machine
end

