-- ==== Sys2Proof/Machine/Links.lean ====
section
/-! DEFINITION. Retries and fences of links, fences of roles and ports, a tile that the maintenance ring does not reach (R162, R236,
R328, R347). -/

namespace Sys2Proof.Machine

/-- A commit that the steward has queued or taken up already fences a link. -/
def State.fenceQueued (s : State) (r dir : Nat) : Bool :=
  ((s.txn.current.toList) ++ s.txn.queue ++ s.txn.own).any fun c =>
    c.why == .fence && bit ((Tbl.get none c.values (elemKey Ob.link_fence r)).getD 0) dir

/-- The steward fences a link for its retries (R328): the defect, the report, and its own transaction. -/
def State.fenceLink (s : State) (r dir : Nat) : State :=
  let s := (s.recordDefect 7 3 3 r dir 0).raise { kind := 0x0113, phys := r, unitClass := 2, subUnit := dir }
  s.queueCommit .fence [(elemKey Ob.link_fence r, some (s.obe Ob.link_fence r ||| 2 ^ dir))]

/-- A router's output has a link: to a neighbour, or over the mesh edge to a port die (R162). -/
def linkOut (p dir : Nat) : Bool := (meshNeighbour p dir).isSome || (dir == 3 && pCol p == 0) || (dir == 1 && pCol p == 71)

/-- LINK_CRC_RETRY (R162, R328): the flit is counted and the correction reported; a link with more than `link_retry_limit` retries
within 1 s is fenced. -/
def execLinkCrcRetry (p : Phys) (dir : Dir) (s : State) : Out :=
  if !linkOut p dir ∨ !s.boot.routersUp then s.noEvent
  else
    let old := (Tbl.get [] (s.router p).retries dir.val).filter fun t => s.now - t < sec 1
    let times := old ++ [s.now]
    let s1 := (s.addObe Ob.link_retries (p.val * 4 + dir.val) 1 64).raise {
      kind := 0x0112, phys := p, unitClass := 2, subUnit := dir }
    let many := decide (s.ob Ob.link_retry_limit < times.length) && s.stewardUp && !s.linkFenced p dir && !s.fenceQueued p dir
    let s2 := s1.modRouter p fun x => { x with retries := x.retries.put [] dir.val (if many then [] else times) }
    .next (if many then s2.fenceLink p dir else s2)

/-- What a write of `fence_role` does beyond its value (R236): requests to fenced peers complete with 0x08, and the peers' states
follow. -/
def State.fenceRoles (s : State) : State :=
  (List.range 4096).foldl (fun s i =>
    if !s.bound i then s
    else if s.peerFenced i then
      let s := [0, 1].foldl (fun s d => s.failOut d (fun r => r.peer == i) 0x08 fun s r reason => s.tellRequest d r reason []) s
      s.putObe Ob.peer_state i 3
    else if s.obe Ob.peer_state i = 3 then
      (s.modPeer (s.obe Ob.peer_home i) i fun x => { x with lastHeard := s.now }).putObe Ob.peer_state i 1
    else s) s

/-- What a write of `port_fence` does beyond its value (R236): a port newly fenced goes to electrical idle, one no longer fenced
takes its mode again. -/
def State.fencePorts (s : State) (old : Nat) : State :=
  (List.range 32).foldl (fun s p => if bit old p = bit (s.ob Ob.port_fence) p then s else s.portTrain p) s

/-- TILE_RING_TIMEOUT (R287, R347): a tile has not answered the maintenance ring within 100 µs: a unit fault of its meadow, and the
end of a migration that it takes part in. The originating report has no kind of its own: 0. -/
def execTileRingTimeout (p : Phys) (s : State) : Out :=
  if !s.stewardUp ∨ !s.boot.routersUp then s.noEvent
  else if (s.tile p).meadow.isSome then .next (s.unitFault p 0)
  else
    let spare := s.migs.any fun m => m.2.step != 0 && !m.2.sentEpoch && m.2.spare == p
    let s1 := s.raise { (s.tile p).report p 0x0802 with detail := 0 }
    let s1 := if spare then s1.recordDefect 1 3 2 p 0 0 else s1
    .next (((s.migrationsOf p).foldl (fun s m => s.abandonMigration m 3) s1).nextCommit)

end Sys2Proof.Machine
end

