-- ==== Sys2Proof/Machine/Power.lean ====
section
/-! DEFINITION. Meadow power commands, module states, the governor, thermal limits (R23, R370 to R374). -/

namespace Sys2Proof.Machine

/-! Meadows by command (R370). -/

/-- The drain of a meadow for its entry into `depth` begins. -/
def State.powerBegin (s : State) (g depth : Nat) : State :=
  ((s.setPowerCmd g { depth, busy := true }).putObe Ob.meadow_power_status g 1).notice stewardTarget g 0x22 0 0 true

/-- One tile of a meadow that is woken: from T3 by a restart (R369), from T2 onto WCLK, its run bit as it was. -/
def State.powerWakeTile (s : State) (p : Nat) : State :=
  let t := s.tile p
  let s := s.modTile p fun t => { t with
    seq := { t.seq with run := if t.power.commanded.isSome then t.power.runSaved else t.seq.run }
    power := { t.power with commanded := none, runSaved := false, refused := false } }
  match t.power.state with
  | .t3 => s.wakeT3 p
  | .t2 => (s.modTile p fun t => { t with power := { t.power with
      state := .t1, partWoken := false, sourceNow := true, source := true } }).settle p
  | .t0 => s.settle p
  | .t1 => s.settle p

/-- The wake command: every tile is woken, and the meadow resumes. -/
def State.powerWake (s : State) (g : Nat) : State :=
  let s := ((s.memberTiles g).filter (· < 4608)).foldl State.powerWakeTile s
  ((s.setPowerCmd g {}).putObe Ob.meadow_power_status g 0).notice stewardTarget g 0x23 0 0 true

/-- Some member of a meadow holds a copy of a precious region. -/
def State.anyPrecious (s : State) (g : Nat) : Bool := (s.members g).any (s.holdsPrecious g)

/-- A write of `meadow_power_cmd` (R370). A meadow without members takes none. -/
def State.meadowPower (s : State) (v : Nat) : State × Nat :=
  let g := bits v 7 0
  let op := bits v 9 8
  let n := (s.members g).length
  if op = 3 ∨ bits v 63 10 ≠ 0 then (s, 0x04)
  else if n = 0 ∨ 512 < n ∨ (s.powerCmd g).busy ∨ (op = 2 ∧ (s.obe Ob.job_state g = 2 ∨ s.anyPrecious g)) then (s, 0x0D)
  else if op = 0 then (s.powerWake g, 0)
  else (s.powerBegin g op, 0)

/-! Module states (R371). -/

/-- Stage 6 of bring-up is done. -/
def State.stage6Done (s : State) : Bool := 7 ≤ s.ob Ob.bringup_stage || s.stageNow == (6, 1)

/-- A recovery or a bring-up stage is under way, or an entry that has not ended. -/
def State.stateBusy (s : State) : Bool :=
  s.stageNow.2 == 0 || (s.jobs.any fun j => j.2.recovering || j.2.isolating) || s.power.entering.isSome ||
    s.power.cmds.any fun c => c.2.busy

/-- Every meadow goes through the entry sequence; the module is in its new state when all tiles are (R371). -/
def State.moduleBegin (s : State) (m depth : Nat) : State :=
  let s := { s with power := { s.power with cmds := [], entering := some m } }
  (s.meadows.foldl (fun (s : State) g => s.powerBegin g depth) s).moduleEntered

/-- Request 0 (R371): M2 and M3 are left by waking every meadow, M4 as by a D6. -/
def State.toM0 (s : State) : State :=
  if s.ob Ob.module_state = 4 then (s.d6.stageAt 0 1 0).stage1Due.countReset 6
  else if s.ob Ob.module_state = 1 then s.putOb Ob.module_state 0
  else (s.meadows.foldl State.powerWake s).putOb Ob.module_state 0

/-- A write of `module_state_request` (R371). -/
def State.moduleRequest (s : State) (v : Nat) : State × Nat :=
  let m := s.ob Ob.module_state
  let no : State × Nat := (s, 0x0D)
  if 5 ≤ v then (s, 0x04)
  else if s.stateBusy then no
  else match v with
    | 0 => if m = 0 ∨ s.pins.shutdownAt.isSome then no else (s.toM0, 0)
    | 2 => if (m ≠ 0 ∧ m ≠ 1) ∨ !s.stage6Done then no else (s.moduleBegin 2 1, 0)
    | 3 =>
      if 3 ≤ m ∨ (List.range 256).any (fun g => s.obe Ob.job_state g != 0) then no else (s.moduleBegin 3 2, 0)
    | 4 => if m ≠ 3 then no else (s.loadsOff, 0)
    | _ => no

/-- Some tile is in T0. -/
def State.anyRunning (s : State) : Bool := s.tiles.any fun x => x.2.power.state == .t0

/-- M1_IDLE_ENTRY (R371): no tile has been in T0 for 1 ms; the clocks go to 600 MHz. -/
def execM1IdleEntry (s : State) : Out :=
  if s.stewardUp ∧ s.boot.routersUp ∧ s.ob Ob.module_state = 0 ∧ !s.anyRunning ∧ ms 1 ≤ s.now - s.power.idleSince then
    .next ((List.range 4).foldl (fun (s : State) d => s.putObe Ob.die_clock d 600) (s.putOb Ob.module_state 1))
  else s.noEvent

/-! The governor (R372, R373). -/

/-- Credits of 16 nJ in a watt for 1 ms. -/
def creditsPerWatt : Nat := 62500

/-- Grants credits to every member tile of a meadow: the balance saturates at capacity, wake event [12] is raised. A tile in T3 keeps no
balance. -/
def State.grant (s : State) (g per : Nat) : State :=
  let cap := s.obe Ob.credit_capacity g
  let ps := (s.memberTiles g).filter (· < 4608)
  let s := ps.foldl (fun (s : State) p =>
    if (s.tile p).power.state = .t3 then s
    else (s.modTile p fun t => { t with power := { t.power with
        balance := min cap (t.power.balance + per), grants := (t.power.grants + 1) % 256 } }.latch 0x1000).eventWake p) s
  s.addObe Ob.credit_granted g (per * ps.length) 64

/-- A meadow's share of a tile budget in W, in credits for each member tile (R372 steps 4 and 5). -/
def State.share (s : State) (budget g : Nat) : Nat :=
  let total := (s.meadows.map fun h => s.obe Ob.meadow_power_weight h).foldl (· + ·) 0
  let all := budget * creditsPerWatt * s.obe Ob.meadow_power_weight g / total
  let cap := s.obe Ob.meadow_power_cap g
  (if cap = 0 then all else min all (cap * creditsPerWatt)) / (s.members g).length

/-- Grants every meadow its share, and keeps it for the repeater. -/
def State.grantAll (s : State) (budget : Nat) : State :=
  s.meadows.foldl (fun (s : State) g =>
    let n := s.share budget g
    { s.grant g n with power := { (s.grant g n).power with lastGrant := (s.grant g n).power.lastGrant.put 0 g n } }) s

/-- A field die is clamped by a throttle: its own, or its port die's (R374). -/
def State.clamped (s : State) (d : Nat) : Bool := s.power.throttled.contains d || s.power.throttled.contains (4 + d % 2)

/-- Sensors of a die that are ignored. -/
def State.deadSensors (s : State) (d : Nat) : Nat := (s.power.badSensors.filter fun x => x.1 == d).length

/-- A degree of a sensor's reading. -/
def degree : Int := 16

/-- A field die is hotter than `temp_target` (R372). -/
def State.tooHot (s : State) (d : Nat) : Bool := decide (degree * s.ob Ob.temp_target < signed 16 (s.obe Ob.die_temp d))

/-- The fastest clock that the governor may set for a field die (R18, R372): at most 100 MHz above the last, within its range; below the last
where the input or the die is over its limit; no more than the last where a throttle clamps it (R374). -/
def State.clockTop (s : State) (d : Nat) : Nat :=
  let old := s.obe Ob.die_clock d
  min (s.obe Ob.clock_max d)
    (if s.ob Ob.power_limit < s.ob Ob.input_power ∨ s.tooHot d then old - 25 else if s.clamped d then old else old + 100)

/-- The clock that the governor sets for a field die: a step of 25 MHz from 600 MHz to the fastest it may set. Which of these keeps the
projected input and the temperature at their limits is a free value (log entry 51). M1 and a die short of sensors run at 600 MHz. -/
def State.newClock (s : State) (d : Nat) : Nat :=
  if s.ob Ob.module_state = 1 ∨ 4 ≤ s.deadSensors d then 600
  else 600 + 25 * (Config.freeNat "fabric clock" (s.free * 4 + d) % ((s.clockTop d - 600) / 25 + 1))

/-- GOVERNOR_INTERVAL (R371 to R373): input power is published, M1 is left where a tile runs, the clocks are set, credits are granted
unless the input is over its limit at floor clocks. -/
def execGovernorInterval (x : PowerSample) (s : State) : Out :=
  if 2 ^ 32 ≤ x.input then .fault .malformedCommand
  else if !s.stewardUp ∨ !s.pins.loadsOn ∨ !s.boot.routersUp ∨ s.now - s.power.lastRepeat < ms 1 then s.noEvent
  else
    let limit := s.ob Ob.power_limit
    let floor := (List.range 4).all fun d => s.obe Ob.die_clock d == 600
    let above := decide (limit < x.input) && (floor || s.power.overLimit)
    let s1 := s.putOb Ob.input_power x.input
    let s2 := if s1.ob Ob.module_state = 1 ∧ s1.anyRunning then s1.putOb Ob.module_state 0 else s1
    let s3 := (List.range 4).foldl (fun (s : State) d => s.putObe Ob.die_clock d (s.newClock d)) s2
    let s4 := { s3.drew with power := { s3.power with overLimit := above, lastRepeat := s.now } }
    let s5 := if above ∧ !s.power.overLimit then s4.raise { kind := 0x0903, unitClass := 5, detail := x.input } else s4
    .next (if above then s5 else s5.grantAll (limit - x.other))

/-- ENERGY_GRANT_REPEAT (R23, R373): port die W repeats each meadow's last grant while the steward restarts. -/
def execEnergyGrantRepeat (s : State) : Out :=
  if s.boot.steward = .restarting ∧ ms 1 ≤ s.now - s.power.lastRepeat then
    let s1 := { s with power := { s.power with lastRepeat := s.now } }
    .next (s.power.lastGrant.foldl (fun (s : State) x => s.grant x.1 x.2) s1)
  else s.noEvent

/-! Thermal limits (R374). -/

/-- A reading that the hardware ignores: out of range, or none. -/
def SensorReading.failed (r : SensorReading) : Bool :=
  match r.value with
  | some v => decide (v < -40 * degree) || decide (150 * degree < v)
  | none => true

/-- A failed sensor is ignored from then on and reported once: die in the detail's [7:0], sensor in [15:8]. -/
def State.sensorLost (s : State) (r : SensorReading) : State :=
  if s.power.badSensors.contains (r.die.val, r.sensor.val) then s
  else ({ s with power := { s.power with badSensors := s.power.badSensors ++ [(r.die.val, r.sensor.val)] } }).raise
    { kind := 0x0904, unitClass := 5, detail := r.die.val + fld r.sensor.val 8 }

/-- The hottest of a die's good readings. -/
def hottest (rs : List SensorReading) (d : Nat) : Option Int :=
  (rs.filter fun r => r.die.val == d).foldl (fun (m : Option Int) r => match m, r.value with
    | some a, some b => some (max a b)
    | none, v => v
    | some a, none => some a) none

/-- A die's throttle after a sample: entry at 95 °C, exit after ten samples below 93 °C. -/
def State.throttleDie (s : State) (rs : List SensorReading) (d : Nat) : State :=
  match hottest rs d with
  | none => s
  | some v =>
    let s := s.putObe Ob.die_temp d (unsigned 16 v)
    if s.power.throttled.contains d then
      let n := if v < 93 * degree then Tbl.get 0 s.power.coolFor d + 1 else 0
      if n < 10 then { s with power := { s.power with coolFor := s.power.coolFor.put 0 d n } }
      else ({ s with power := { s.power with
          coolFor := s.power.coolFor.put 0 d 0, throttled := s.power.throttled.filter (· != d) } }).raise
        { kind := 0x0901, unitClass := 5, detail := d }
    else if 95 * degree ≤ v then
      (({ s with power := { s.power with throttled := s.power.throttled ++ [d] } }).alert 1).raise
        { kind := 0x0900, unitClass := 5, detail := d }
    else s

/-- A clamped field die's clock steps down by 100 MHz, to no less than 600; one with four or more failed sensors runs at 600. -/
def State.stepDown (s : State) (d : Nat) : State :=
  let old := s.obe Ob.die_clock d
  if old = 0 then s
  else if 4 ≤ s.deadSensors d then s.putObe Ob.die_clock d 600
  else if s.clamped d then s.putObe Ob.die_clock d (max 600 (old - 100))
  else s

/-- `throttle_state` of a die. -/
def State.throttleShown (s : State) (d : Nat) : State :=
  s.putObe Ob.throttle_state d
    (if s.power.throttled.contains d ∨ (d < 4 ∧ s.clamped d) then 1 else if 4 ≤ s.deadSensors d then 2 else 0)

/-- Thermal shutdown: every 12 V load is off, as in M4 with cisterns lost; request 0 and D6 wait 60 s. -/
def State.thermalShutdown (s : State) (r : SensorReading) : State :=
  let s := s.loadsOff
  (({ s with pins := { s.pins with shutdownAt := some s.now } }).alert 2).raise
    { kind := 0x0902, unitClass := 5, detail := r.die.val + fld r.sensor.val 8 }

/-- THERMAL_SAMPLE (R374): the hardware acts on the readings; a sensor that the command does not list has not changed what it asks for. -/
def execThermalSample (rs : List SensorReading) (s : State) : Out :=
  if !rs.all SensorReading.wf then .fault .malformedCommand
  else if !s.pins.loadsOn then s.noEvent
  else
    let s1 := (rs.filter SensorReading.failed).foldl State.sensorLost s
    let good := rs.filter fun r => !s1.power.badSensors.contains (r.die.val, r.sensor.val)
    match good.find? fun r => decide (115 * degree ≤ r.value.getD 0) with
    | some r => .next (s1.thermalShutdown r)
    | none =>
      let s2 := (List.range 6).foldl (fun (s : State) d => s.throttleDie good d) s1
      .next ((List.range 6).foldl State.throttleShown ((List.range 4).foldl State.stepDown s2))

/-- SHUTDOWN_LOCKOUT_EXPIRY (R374): 60 s after a thermal shutdown. -/
def execShutdownLockoutExpiry (s : State) : Out :=
  match s.pins.shutdownAt with
  | some t => if sec 60 ≤ s.now - t then .next { s with pins := { s.pins with shutdownAt := none } } else s.noEvent
  | none => s.noEvent

end Sys2Proof.Machine
end

