-- ==== Sys2Proof/Machine/ResetCmds.lean ====
section
/-! DEFINITION. Resets on request and dumps on request (R291, R333, R334, R339 to R341). -/

namespace Sys2Proof.Machine

/-! Resets (R333, R334). -/

/-- A D1 with clear falls on a copy of a precious region of a running job (R334). -/
def State.holdsRunning (s : State) (p : Nat) : Bool :=
  match (s.tile p).meadow, (s.tile p).logical with
  | some g, some l => s.obe Ob.job_state g == 2 && s.holdsPrecious g l
  | _, _ => false

/-- A D2 may not fall on a tile with a role, a route through it, or a link that is not fenced (R334). -/
def State.routerInUse (s : State) (p : Nat) : Bool :=
  (s.roleOf p).isSome || s.routeThrough p || (List.range 4).any fun d => !s.linkFenced p d

/-- The target of a reset names a unit. -/
def targetOk (dom target : Nat) : Bool :=
  if dom ≤ 2 then target < 4608 else if dom = 3 then target < 256 else if dom = 4 then target < 32 else target == 0

/-- `reset_status` of a request whose reset ends at `end_` (R334). -/
def State.resetStatus (s : State) (dom target end_ : Nat) : State :=
  s.putOb Ob.reset_status (dom + fld 1 3 + fld target 8 + fld (s.now % 2 ^ 64) 64 + fld (end_ % 2 ^ 64) 128)

/-- A reset's end within `limit` ns: a free value. -/
def State.resetEnd (s : State) (limit : Nat) : Nat := s.now + s.freeVal 32 % (limit + 1)

/-- D5 (R291, R333): every unit but PCIe and the mailbox; the next bring-up command is 3. A hold stands (R296). -/
def State.d5 (s : State) : State :=
  let s := (s.unitsLost.runComps [1, 2]).putOb Ob.bringup_stage 2
  if s.boot.held then s else s.stageAt 2 1 0

/-- Performs a reset that has been accepted. -/
def State.resetDo (s : State) (dom target : Nat) (clear : Bool) : State :=
  match dom with
  | 1 =>
    let s := (s.resetTile target clear 50000).countReset 1
    s.resetStatus 1 target (s.tile target).resetUntil
  | 2 =>
    let end_ := s.resetEnd 20000
    ((s.drew.resetRouter target).countReset 2).resetStatus 2 target end_
  | 3 =>
    let s := (s.resetMeadow target clear).countReset 3
    s.resetStatus 3 target (s.job target).resetUntil
  | 4 =>
    let end_ := s.resetEnd 200000000
    ((s.drew.portTrain target).countReset 4).resetStatus 4 target end_
  | 5 => (s.d5.countReset 5).resetStatus 5 0 s.now
  | _ => ((s.d6.stageAt 0 1 0).stage1Due.countReset 6).resetStatus 6 0 s.now

/-- A write of `reset_request` (R334). D6 is refused for 60 s after a thermal shutdown (R374). -/
def State.resetRequest (s : State) (src : Source) (v : Nat) : State × Nat :=
  let dom := bits v 2 0
  let target := bits v 20 8
  let clear := bit v 3
  if dom = 0 ∨ dom = 7 ∨ bits v 7 4 ≠ 0 ∨ bits v 63 21 ≠ 0 then (s, 0x04)
  else if 5 ≤ dom ∧ !srcPcie src then (s, 0x03)
  else if !targetOk dom target then (s, 0x04)
  else if (dom = 1 ∧ clear ∧ s.holdsRunning target) ∨ (dom = 2 ∧ s.routerInUse target) ∨ (dom = 6 ∧ s.pins.shutdownAt.isSome) then
    (s, 0x0D)
  else (s.resetDo dom target clear, 0)

/-! Dumps (R339 to R341). -/

/-- Bytes of the dump area (R25, R341). -/
def dumpArea : Nat := 2 ^ 30

/-- The dumps' bytes together lie within the dump area (R341). -/
def State.dumpsFit (s : State) : Bool := (s.dumps.foldl (fun n x => n + (x.2.map Dump.size).getD 0) 0) ≤ dumpArea

/-- A write of `dump_command` (R341). -/
def State.dumpCommand (s : State) (v : Nat) : State × Nat :=
  let scope := bits v 1 0
  let p := bits v 22 10
  if scope = 3 ∨ bits v 63 25 ≠ 0 ∨ (scope = 2 ∧ 4608 ≤ p) then (s, 0x04)
  else
    let units := if scope = 0 then s.meadowUnits (bits v 9 2)
      else if scope = 1 then List.range 4610
      else [p]
    match s.takeDump units (scope = 2 ∧ bit v 23) (bit v 24) 0 with
    | some s' => if s'.dumpsFit then (s', 0) else (s, 0x0D)
    | none => (s, 0x0D)

/-- A write of `dump_unprotect` (R341). -/
def State.dumpUnprotect (s : State) (n : Nat) : State × Nat :=
  if 8 ≤ n then (s, 0x04)
  else match s.dump n with
    | some x => ({ s with dumps := s.dumps.put none n (some { x with protect := false }) }, 0)
    | none => (s, 0)

/-- The latest dump that has a section of a unit. -/
def State.dumpOf (s : State) (unit : Nat) : Option (Nat × Dump) :=
  s.dumps.foldl (fun (m : Option (Nat × Dump)) x => match x.2 with
    | some d =>
      if d.left.contains unit then
        match m with
        | some b => if b.2.start ≤ d.start then some (x.1, d) else m
        | none => some (x.1, d)
      else m
    | none => m) none

/-- DUMP_UNIT_ABSENT (R340): a unit, 0 to 4,607 a tile, 4,608 and 4,609 a port die, has not answered a read of the latest dump that covers
it: recorded as absent and reported. -/
def execDumpUnitAbsent (unit : Nat) (s : State) : Out :=
  match s.dumpOf unit with
  | some (n, d) =>
    let phys := if unit < 4608 then unit else unit - 4608
    let cls := if unit < 4608 then 0 else 4
    let sections := d.sections.map fun (x : DumpSection) =>
      if x.phys = phys ∧ x.unitClass = cls then ({ phys, unitClass := cls } : DumpSection) else x
    let s1 := { s with dumps := s.dumps.put none n (some { d with left := d.left.filter (· != unit), sections }) }
    .next (s1.raise { kind := 0x0805, phys, unitClass := cls, detail := n })
  | none => s.noEvent

end Sys2Proof.Machine
end

