-- ==== Sys2Proof/Machine/Actions.lean ====
section
/-! DEFINITION. What a write of each RW, WO and W1C object does (R254, R261), and the rows that are a write of one object. -/

namespace Sys2Proof.Machine

/-! Objects with an effect or a rule of their own. -/

/-- The image that host memory holds for a meadow's load (R343). -/
def State.hostImage (s : State) (g : Nat) : Option GraphImage :=
  Config.imageOf (s.hostBytes (s.obe Ob.job_image_addr g) (s.obe Ob.job_image_len g))

/-- A write of `fm_root_hash` (R270): every session ends. -/
def State.rootHashWrite (s : State) (o : ObjInfo) (v : Nat) : State := (List.range 4).foldl State.endSession (s.putRw o 0 v)

/-- A write of `alert_cause` (R270): bits written as 1 are cleared. -/
def State.alertClear (s : State) (v : Nat) : State :=
  let c := s.ob Ob.alert_cause
  s.putOb Ob.alert_cause (c - (c &&& v))

/-- A value of an RW object obeys the rule that its object states beyond its range. -/
def State.rwRule (s : State) (key v : Nat) : Bool :=
  if key = Ob.clock_max then v % 25 == 0
  else if key = Ob.margin_warn then s.ob Ob.margin_retire < v
  else if key = Ob.margin_retire then v < s.ob Ob.margin_warn
  else if key = Ob.errlog_push then bits v 31 17 == 0 && bits v 63 48 == 0
  else true

/-- A write of element `e` of an object: its state and status. `img` is the image of a load, and `fs` what a start-up test finds, where
the command brings them; else they are the host's memory's and the free values'. -/
def writeAct (img : Option GraphImage) (fs : Option (List Failure)) : Act := fun s src key e v =>
  match objInfo key with
  | none => (s, 0x01)
  | some o =>
    if key = Ob.txn_command then s.txnCommand src v
    else if key = Ob.bringup_command then
      match fs with
      | some l => s.bringupCommand v l
      | none => s.drew.bringupCommand v (if v = 4 then Config.testFinds s.free else [])
    else if key = Ob.map_adopt then s.mapAdopt src v
    else if key = Ob.fuse_burn then s.fuseBurn v
    else if key = Ob.commission then s.commissionWrite v
    else if key = Ob.settings_erase then
      if v = 0xE5E5 then ({ s with dict := { s.dict with eraseNext := true } }, 0) else (s, 0x04)
    else if key = Ob.alert_cause then (s.alertClear v, 0)
    else if key = Ob.fm_root_hash then (s.rootHashWrite o v, 0)
    else if key = Ob.reset_request then s.resetRequest src v
    else if key = Ob.dump_command then s.dumpCommand v
    else if key = Ob.dump_unprotect then s.dumpUnprotect v
    else if key = Ob.job_command then
      match img with
      | some i => s.jobCommand v (some i)
      | none => s.jobCommand v (s.hostImage (bits v 7 0))
    else if key = Ob.upd_command then s.updCommand v
    else if key = Ob.upd_chunk then s.updChunk e v
    else if key = Ob.rec_length ∨ key = Ob.rec_chunk then
      if s.boot.steward = .recovery then (s.putRw o e v, 0) else (s, 0x0D)
    else if key = Ob.rec_command then (s.putRw o e v).recCommand v
    else if key = Ob.module_state_request then
      let r := s.moduleRequest v
      (r.1.putRw o e v, r.2)
    else if key = Ob.meadow_power_cmd then s.meadowPower v
    else if key = Ob.fence_role then ((s.putRw o e v).fenceRoles, 0)
    else if key = Ob.port_fence then ((s.putRw o e v).fencePorts (s.ob Ob.port_fence), 0)
    else if s.rwRule key v then (s.putRw o e v, 0)
    else (s, 0x04)

/-- A write of one element by a source. -/
def writeRow (src : Source) (key e v : Nat) (s : State) : Out := dictAccess (writeAct none none) (accessOf src key e v) s

/-! Bring-up (R289). -/

/-- BRINGUP_COMMAND_3 (R288, R289, R298, R393). -/
def execBringupCommand3 (src : Source) (s : State) : Out := writeRow src Ob.bringup_command 0 3 s

/-- BRINGUP_COMMAND_4 (R292 to R297). -/
def execBringupCommand4 (src : Source) (fs : List Failure) (s : State) : Out :=
  if fs.all Failure.wf then
    dictAccess (writeAct none (some fs)) (accessOf src Ob.bringup_command 0 4) s
  else .fault .malformedCommand

/-- BRINGUP_COMMAND_5 (R301, R306). -/
def execBringupCommand5 (src : Source) (s : State) : Out := writeRow src Ob.bringup_command 0 5 s

/-- BRINGUP_COMMAND_6 (R312). -/
def execBringupCommand6 (src : Source) (s : State) : Out := writeRow src Ob.bringup_command 0 6 s

/-- BRINGUP_COMMAND_7 (R288, R313). -/
def execBringupCommand7 (src : Source) (s : State) : Out := writeRow src Ob.bringup_command 0 7 s

/-- MAP_ADOPT (R307). -/
def execMapAdopt (src : Source) (v : Nat) (s : State) : Out :=
  if 256 ≤ v then .fault .malformedCommand else writeRow src Ob.map_adopt 0 v s

/-- FUSE_BURN (R299). -/
def execFuseBurn (src : Source) (v : Nat) (s : State) : Out :=
  if 256 ≤ v then .fault .malformedCommand else writeRow src Ob.fuse_burn 0 v s

/-- COMMISSION (R314). -/
def execCommission (src : Source) (v : Nat) (s : State) : Out :=
  if 256 ≤ v then .fault .malformedCommand else writeRow src Ob.commission 0 v s

/-- DECOMMISSION (R314). -/
def execDecommission (src : Source) (s : State) : Out := writeRow src Ob.commission 0 0xFF s

/-! Firmware (R379, R386). -/

/-- UPDATE_BEGIN (R379). -/
def execUpdateBegin (src : Source) (s : State) : Out := writeRow src Ob.upd_command 0 1 s

/-- UPDATE_FETCH (R379). -/
def execUpdateFetch (src : Source) (s : State) : Out := writeRow src Ob.upd_command 0 2 s

/-- UPDATE_VERIFY (R377 to R379, R382). -/
def execUpdateVerify (src : Source) (s : State) : Out := writeRow src Ob.upd_command 0 3 s

/-- UPDATE_APPLY (R380). -/
def execUpdateApply (src : Source) (s : State) : Out := writeRow src Ob.upd_command 0 4 s

/-- UPDATE_ACTIVATE (R375, R376, R379). -/
def execUpdateActivate (src : Source) (s : State) : Out := writeRow src Ob.upd_command 0 5 s

/-- UPDATE_CONFIRM (R383). -/
def execUpdateConfirm (src : Source) (s : State) : Out := writeRow src Ob.upd_command 0 6 s

/-- UPDATE_REVERT (R379). -/
def execUpdateRevert (src : Source) (s : State) : Out := writeRow src Ob.upd_command 0 7 s

/-- UPDATE_CANCEL (R379). -/
def execUpdateCancel (src : Source) (s : State) : Out := writeRow src Ob.upd_command 0 8 s

/-- RECOVERY_INSTALL (R386). -/
def execRecoveryInstall (src : Source) (s : State) : Out := writeRow src Ob.rec_command 0 1 s

/-- RECOVERY_LEAVE (R386). -/
def execRecoveryLeave (src : Source) (s : State) : Out := writeRow src Ob.rec_command 0 2 s

/-! Resets and dumps (R333, R334, R339 to R341). -/

/-- D1_RESET (R79, R333 to R335). -/
def execD1Reset (src : Source) (p : Phys) (clear : Bool) (s : State) : Out :=
  writeRow src Ob.reset_request 0 (1 + fld (b2n clear) 3 + fld p.val 8) s

/-- D2_RESET (R333, R334). -/
def execD2Reset (src : Source) (p : Phys) (s : State) : Out := writeRow src Ob.reset_request 0 (2 + fld p.val 8) s

/-- D3_RESET (R333, R335, R342). -/
def execD3Reset (src : Source) (g : Meadow) (clear : Bool) (s : State) : Out :=
  writeRow src Ob.reset_request 0 (3 + fld (b2n clear) 3 + fld g.val 8) s

/-- D4_RESET (R205, R333). -/
def execD4Reset (src : Source) (port : Port) (s : State) : Out := writeRow src Ob.reset_request 0 (4 + fld port.val 8) s

/-- D5_RESET (R291, R333, R334). -/
def execD5Reset (src : Source) (s : State) : Out := writeRow src Ob.reset_request 0 5 s

/-- D6_RESET (R291, R333, R334, R374). -/
def execD6Reset (src : Source) (s : State) : Out := writeRow src Ob.reset_request 0 6 s

/-- DUMP_COMMAND (R339, R341). -/
def execDumpCommand (src : Source) (v : BitVec 64) (s : State) : Out := writeRow src Ob.dump_command 0 v.toNat s

/-- DUMP_UNPROTECT (R341). -/
def execDumpUnprotect (src : Source) (n : Nat) (s : State) : Out :=
  if 256 ≤ n then .fault .malformedCommand else writeRow src Ob.dump_unprotect 0 n s

/-! Jobs (R343). -/

/-- JOB_LOAD (R79, R135, R308, R343, R344): the image is what host memory holds at `job_image_addr`. -/
def execJobLoad (src : Source) (g : Meadow) (img : GraphImage) (s : State) : Out :=
  dictAccess (writeAct (some img) none) (accessOf src Ob.job_command 0 (g.val + fld 1 8)) s

/-- JOB_UNLOAD (R343). -/
def execJobUnload (src : Source) (g : Meadow) (s : State) : Out := writeRow src Ob.job_command 0 (g.val + fld 2 8) s

/-- JOB_RECOVER (R343, R348). -/
def execJobRecover (src : Source) (g : Meadow) (s : State) : Out := writeRow src Ob.job_command 0 (g.val + fld 3 8) s

/-- JOB_ISOLATE (R343, R347, R348). -/
def execJobIsolate (src : Source) (g : Meadow) (s : State) : Out := writeRow src Ob.job_command 0 (g.val + fld 4 8) s

/-! Power (R370, R371). -/

/-- MEADOW_POWER_WAKE (R370). -/
def execMeadowPowerWake (src : Source) (g : Meadow) (s : State) : Out := writeRow src Ob.meadow_power_cmd 0 g.val s

/-- MEADOW_POWER_T2 (R370). -/
def execMeadowPowerT2 (src : Source) (g : Meadow) (s : State) : Out := writeRow src Ob.meadow_power_cmd 0 (g.val + fld 1 8) s

/-- MEADOW_POWER_T3 (R370). -/
def execMeadowPowerT3 (src : Source) (g : Meadow) (s : State) : Out := writeRow src Ob.meadow_power_cmd 0 (g.val + fld 2 8) s

/-- MODULE_STATE_REQUEST_M0 (R371, R374). -/
def execModuleStateRequestM0 (src : Source) (s : State) : Out := writeRow src Ob.module_state_request 0 0 s

/-- MODULE_STATE_REQUEST_M2 (R371). -/
def execModuleStateRequestM2 (src : Source) (s : State) : Out := writeRow src Ob.module_state_request 0 2 s

/-- MODULE_STATE_REQUEST_M3 (R371). -/
def execModuleStateRequestM3 (src : Source) (s : State) : Out := writeRow src Ob.module_state_request 0 3 s

/-- MODULE_STATE_REQUEST_M4 (R371). -/
def execModuleStateRequestM4 (src : Source) (s : State) : Out := writeRow src Ob.module_state_request 0 4 s

/-! Transactions, fences, settings, alerts (R236, R264, R269 to R274). -/

/-- TXN_OPEN (R264, R271). -/
def execTxnOpen (src : Source) (s : State) : Out := writeRow src Ob.txn_command 0 1 s

/-- TXN_COMMIT (R271, R274). -/
def execTxnCommit (src : Source) (s : State) : Out := writeRow src Ob.txn_command 0 2 s

/-- TXN_ABORT (R271, R277). -/
def execTxnAbort (src : Source) (s : State) : Out := writeRow src Ob.txn_command 0 3 s

/-- FENCE_ROLE_WRITE (R236). -/
def execFenceRoleWrite (src : Source) (e : Fin 256) (v : BitVec 32) (s : State) : Out := writeRow src Ob.fence_role e v.toNat s

/-- PORT_FENCE_WRITE (R236). -/
def execPortFenceWrite (src : Source) (v : BitVec 32) (s : State) : Out := writeRow src Ob.port_fence 0 v.toNat s

/-- SETTINGS_ERASE (R269). -/
def execSettingsErase (src : Source) (v : Nat) (s : State) : Out :=
  if 2 ^ 32 ≤ v then .fault .malformedCommand else writeRow src Ob.settings_erase 0 v s

/-- ALERT_CAUSE_CLEAR (R270). -/
def execAlertCauseClear (src : Source) (mask : BitVec 32) (s : State) : Out := writeRow src Ob.alert_cause 0 mask.toNat s

/-- FM_ROOT_HASH_WRITE (R270). -/
def execFmRootHashWrite (src : Source) (hash : Bytes) (s : State) : Out :=
  if hash.length ≠ 48 then .fault .malformedCommand else writeRow src Ob.fm_root_hash 0 (leNat hash) s

end Sys2Proof.Machine
end

