-- ==== Sys2Proof/Machine/Alu.lean ====
section
/-! DEFINITION. The ordinary instructions of the sequencer but for loads and stores (R60, R61). -/

namespace Sys2Proof.Machine

/-- A comparison's result as a register value. -/
def flag (c : Bool) : Word := if c then 1 else 0

/-- High 64 bits of the signed product (R60). -/
def mulHighS (x y : Word) : Word := BitVec.ofInt 64 (x.toInt * y.toInt / 2 ^ 64)

/-- High 64 bits of the unsigned product (R60). -/
def mulHighU (x y : Word) : Word := BitVec.ofNat 64 (x.toNat * y.toNat / 2 ^ 64)

/-- Signed quotient (R61): all ones for a zero divisor. Rounded toward zero (log entry 16). -/
def divS (x y : Word) : Word := if y = 0 then BitVec.allOnes 64 else x.sdiv y

/-- Unsigned quotient (R61). -/
def divU (x y : Word) : Word := if y = 0 then BitVec.allOnes 64 else x / y

/-- Signed remainder (R61): the dividend for a zero divisor; of the sign of the dividend (log entry 16). -/
def remS (x y : Word) : Word := if y = 0 then x else x.srem y

/-- Unsigned remainder (R61). -/
def remU (x y : Word) : Word := if y = 0 then x else x % y

/-- The shift amount of a register (R60). -/
def shamt (y : Word) : Nat := y.toNat % 64

def execAdd (p : Phys) (d a b : Reg) (s : State) : Out := aluR p 0x000 (fun x y => x + y) d a b s

def execSub (p : Phys) (d a b : Reg) (s : State) : Out := aluR p 0x001 (fun x y => x - y) d a b s

def execAnd (p : Phys) (d a b : Reg) (s : State) : Out := aluR p 0x002 (fun x y => x &&& y) d a b s

def execOr (p : Phys) (d a b : Reg) (s : State) : Out := aluR p 0x003 (fun x y => x ||| y) d a b s

def execXor (p : Phys) (d a b : Reg) (s : State) : Out := aluR p 0x004 (fun x y => x ^^^ y) d a b s

def execSll (p : Phys) (d a b : Reg) (s : State) : Out := aluR p 0x005 (fun x y => x <<< shamt y) d a b s

def execSrl (p : Phys) (d a b : Reg) (s : State) : Out := aluR p 0x006 (fun x y => x >>> shamt y) d a b s

def execSra (p : Phys) (d a b : Reg) (s : State) : Out := aluR p 0x007 (fun x y => x.sshiftRight (shamt y)) d a b s

def execSlt (p : Phys) (d a b : Reg) (s : State) : Out := aluR p 0x008 (fun x y => flag (x.slt y)) d a b s

def execSltu (p : Phys) (d a b : Reg) (s : State) : Out := aluR p 0x009 (fun x y => flag (x.ult y)) d a b s

def execMul (p : Phys) (d a b : Reg) (s : State) : Out := aluR p 0x010 (fun x y => x * y) d a b s

def execMulh (p : Phys) (d a b : Reg) (s : State) : Out := aluR p 0x011 mulHighS d a b s

def execMulhu (p : Phys) (d a b : Reg) (s : State) : Out := aluR p 0x012 mulHighU d a b s

def execDiv (p : Phys) (d a b : Reg) (s : State) : Out := aluR p 0x018 divS d a b s

def execDivu (p : Phys) (d a b : Reg) (s : State) : Out := aluR p 0x019 divU d a b s

def execRem (p : Phys) (d a b : Reg) (s : State) : Out := aluR p 0x01A remS d a b s

def execRemu (p : Phys) (d a b : Reg) (s : State) : Out := aluR p 0x01B remU d a b s

def execAddi (p : Phys) (d a : Reg) (imm : Imm16) (s : State) : Out :=
  aluI p 0x01 (fun x => x + sext16 imm) d a imm s

def execAndi (p : Phys) (d a : Reg) (imm : Imm16) (s : State) : Out :=
  aluI p 0x02 (fun x => x &&& imm.setWidth 64) d a imm s

def execOri (p : Phys) (d a : Reg) (imm : Imm16) (s : State) : Out :=
  aluI p 0x03 (fun x => x ||| imm.setWidth 64) d a imm s

def execXori (p : Phys) (d a : Reg) (imm : Imm16) (s : State) : Out :=
  aluI p 0x04 (fun x => x ^^^ imm.setWidth 64) d a imm s

def execSlti (p : Phys) (d a : Reg) (imm : Imm16) (s : State) : Out :=
  aluI p 0x05 (fun x => flag (x.slt (sext16 imm))) d a imm s

def execSltiu (p : Phys) (d a : Reg) (imm : Imm16) (s : State) : Out :=
  aluI p 0x06 (fun x => flag (x.ult (sext16 imm))) d a imm s

/-- SHI's operation (R60): amount imm[5:0], kind imm[7:6]. -/
def shiVal (imm : Imm16) (x : Word) : Word :=
  if bits imm.toNat 7 6 = 0 then x <<< bits imm.toNat 5 0
  else if bits imm.toNat 7 6 = 1 then x >>> bits imm.toNat 5 0
  else x.sshiftRight (bits imm.toNat 5 0)

/-- SHI; the reserved kind 3 and undefined immediate bits take fault 0x01 (R59, R60). -/
def execShi (p : Phys) (d a : Reg) (imm : Imm16) (s : State) : Out :=
  if bits imm.toNat 7 6 = 3 ∨ bits imm.toNat 15 8 ≠ 0 then
    issue p (encI 0x07 d a imm) (fun _ _ => .fault 0x01 0) s
  else aluI p 0x07 (shiVal imm) d a imm s

def execLui (p : Phys) (d : Reg) (imm : Imm21) (s : State) : Out :=
  issue p (encU 0x08 d imm) (fun s k => .retire (s.setReg p k d (sext21 imm <<< 16))) s

/-- The pc of a task as a word. -/
def State.pcWord (s : State) (p k : Nat) : Word := ((s.tile p).task k).pc.setWidth 64

def execJal (p : Phys) (d : Reg) (off : Imm21) (s : State) : Out :=
  issue p (encU 0x09 d off) (fun s k =>
    .jump (s.setReg p k d (s.pcWord p k + 4)) (s.pcWord p k + sext21 off * 4)) s

/-- JALR: the target is taken from g_a before g_d is written. -/
def execJalr (p : Phys) (d a : Reg) (imm : Imm16) (s : State) : Out :=
  issue p (encI 0x0A d a imm) (fun s k =>
    .jump (s.setReg p k d (s.pcWord p k + 4)) (s.reg p k a + sext16 imm)) s

def execBeq (p : Phys) (a b : Reg) (off : Imm16) (s : State) : Out := branch p 0x0C (fun x y => x == y) a b off s

def execBne (p : Phys) (a b : Reg) (off : Imm16) (s : State) : Out := branch p 0x0D (fun x y => x != y) a b off s

def execBlt (p : Phys) (a b : Reg) (off : Imm16) (s : State) : Out := branch p 0x0E (fun x y => x.slt y) a b off s

def execBge (p : Phys) (a b : Reg) (off : Imm16) (s : State) : Out := branch p 0x0F (fun x y => !x.slt y) a b off s

def execBltu (p : Phys) (a b : Reg) (off : Imm16) (s : State) : Out := branch p 0x10 (fun x y => x.ult y) a b off s

def execBgeu (p : Phys) (a b : Reg) (off : Imm16) (s : State) : Out := branch p 0x11 (fun x y => !x.ult y) a b off s

/-- YIELD (R55): the Running task becomes Ready and the scheduler chooses; with no other Ready task of equal or higher
priority it goes on. -/
def execYield (p : Phys) (d a b : Reg) (func : Func) (s : State) : Out :=
  issue p (encA 0x3B d a b func.toNat) (fun s k =>
    if d ≠ 0 ∨ a ≠ 0 ∨ b ≠ 0 ∨ func ≠ 0 then .fault 0x01 0
    else .retire (s.modTile p fun t => t.modTask k fun x => { x with state := .ready })) s

/-- HEARTBEAT (R74): the task's watchdog period restarts. -/
def execHeartbeat (p : Phys) (d a b : Reg) (func : Func) (s : State) : Out :=
  issue p (encA 0x3D d a b func.toNat) (fun s k =>
    if d ≠ 0 ∨ a ≠ 0 ∨ b ≠ 0 ∨ func ≠ 0 then .fault 0x01 0
    else .retire (s.modTile p fun t => t.modTask k fun x => { x with wdSince := s.now })) s

end Sys2Proof.Machine
end

