-- ==== Sys2Proof/Machine/Inbound.lean ====
section
/-! DEFINITION. Requests of peers that arrive at a port die (R201, R219, R223 to R225, R229 to R231, R234). -/

namespace Sys2Proof.Machine

/-- The common part of an inbound request: the checks of R209 to R223 up to the operation's own, then its meaning. A request to
an uncommissioned module (R313) or for an unbound endpoint is answered 0x07, one for a meadow under reset 0x0C (R335), one whose header does not agree with its payload
or its space 0x11. The first state that the operation is given is that of a packet which is heard and no more. -/
def inboundRow (f : Frame) (mine : Nat → Bool) (space : Nat) (s : State) (go : State → State → Nat → Nat → Nat → State) : Out :=
  if !f.wf then .fault .malformedCommand
  else if !mine f.op ∨ 0x80 ≤ f.op then s.noEvent
  else match s.inbound f 0 with
    | .noFrame => s.noEvent
    | .gone s1 => .next s1
    | .taken s1 i =>
      if !s.commissioned then .next (s1.replyTo i f 0x07 [])
      else match s1.dstMeadow f with
      | none => .next (s1.replyTo i f 0x07 [])
      | some g =>
        if s.now < (s.job g).resetUntil then .next (s1.replyTo i f 0x0C [])
        else if f.payloadLen ≠ f.payload.length ∨ 4096 < f.payloadLen ∨ f.space.val ≠ space then .next (s1.replyTo i f 0x11 [])
        else .next (go ((s.countPort f.subPort 0).heard f.die.val i) s1 f.die.val i g)

/-- The inbound buffer has space for a request's payload (R219). -/
def State.bufferFree (s : State) (d len : Nat) : Bool := (s.die d).inUse + len ≤ inboundBuffer

/-- A request finds no sink (R219): it is answered 0x06; where there is no room even for that answer, it is as if it had not been
received. -/
def State.noSink (s heard : State) (i : Nat) (f : Frame) : State :=
  if s.sendRoom f.die.val 64 then s.replyTo i f 0x06 [] else heard

/-- Takes space of the inbound buffer. -/
def State.buffer (s : State) (d len : Nat) : State := s.modDie d fun x => { x with inUse := x.inUse + len }

/-! WRITE and READ (R224). -/

/-- Sends an accepted WRITE into the mesh; `group` is its group's entry. -/
def State.writeIn (s : State) (d i g : Nat) (f : Frame) (group : Option Nat) : State :=
  let base := s.obe Ob.win_base f.winIndex + f.offset
  let m := s.meshParts g base f.payload.length
  if m = 0 then s.replyTo i f 0x03 []
  else
    let s := s.modDie d fun x => { x with windows := x.windows.mod {} f.winIndex fun y => { accepted := y.accepted + 1 } }
    let j := (s.buffer d f.payload.length).newJob d {
      work := .inWrite i f.seq f.winIndex (group.map fun e => (e, f.id)), left := m, total := f.payload.length }
    j.2.meshWrite d g base j.1 (match group with
      | some e => groupNumber d e + fld 1 9
      | none => 0) f.payload

/-- The tiles that an inbound write touches. -/
def State.tilesOf (s : State) (g base len : Nat) : List Nat := (s.meshPieces g base len).map (·.1)

/-- A grouped WRITE (R229): a finished or unknown group is refused 0x0D, one without a free entry 0x06, one beyond the limits 0x0E,
which aborts the group. -/
def State.writeGrouped (s heard : State) (d i g : Nat) (f : Frame) : State :=
  let len := f.payload.length
  let tiles := s.tilesOf g (s.obe Ob.win_base f.winIndex + f.offset) len
  if (s.die d).doneGroups.contains (i, f.id) then s.replyTo i f 0x0D []
  else match s.findGroup d i f.id with
    | some e => match s.inGroup d e with
      | some x =>
        if x.committing ∨ x.window ≠ f.winIndex then s.replyTo i f 0x0D []
        else if 4096 < x.writes + 1 ∨ 67108864 < x.bytes + len then (s.abortGroup d e).replyTo i f 0x0E []
        else (s.setInGroup d e (some { x with
            writes := x.writes + 1, bytes := x.bytes + len
            tiles := x.tiles ++ tiles.filter fun t => !x.tiles.contains t })).writeIn d i g f (some e)
      | none => s
    | none =>
      match (List.range 256).find? fun e => (s.inGroup d e).isNone with
      | none => s.noSink heard i f
      | some e =>
        (s.setInGroup d e (some { peer := i, id := f.id, window := f.winIndex, writes := 1, bytes := len, tiles, first := s.now
                                  })).writeIn d i g f (some e)

/-- TRASHANDI_WRITE (R219, R223, R224, R229). A reserved operation is refused 0x11 (R212). -/
def execTrashandiWrite (f : Frame) (s : State) : Out :=
  if f.op = 1 ∨ f.op = 0 ∨ 0x0A ≤ f.op then
    inboundRow f (fun op => op == 1 || op == 0 || 0x0A ≤ op) f.space.val s fun heard s d i g =>
      if f.op ≠ 1 ∨ f.payload = [] ∨ f.space ≠ 0 then s.replyTo i f 0x11 []
      else
        let r := s.windowCheck g i 0 f f.payload.length
        if r ≠ 0 then s.replyTo i f r []
        else if !s.bufferFree d f.payload.length then s.noSink heard i f
        else if f.id = 0 then s.writeIn d i g f none
        else s.writeGrouped heard d i g f
  else s.noEvent

/-- TRASHANDI_READ (R217, R223, R224). -/
def execTrashandiRead (f : Frame) (s : State) : Out :=
  inboundRow f (· == 2) 0 s fun _ s d i g =>
    if f.payload ≠ [] ∨ f.count = 0 ∨ 4096 < f.count then s.replyTo i f 0x11 []
    else
      let r := s.windowCheck g i 1 f f.count
      let base := s.obe Ob.win_base f.winIndex + f.offset
      let m := s.meshParts g base f.count
      if r ≠ 0 then s.replyTo i f r []
      else if m = 0 then s.replyTo i f 0x03 []
      else
        let j := s.newJob d { work := .inRead i f.seq g f.count, left := m }
        j.2.meshRead d g base j.1 f.count

/-- TRASHANDI_SEND (R201, R219, R223): a C4 SEND from source 0xFFF that expires after send_expiry. -/
def execTrashandiSend (f : Frame) (s : State) : Out :=
  inboundRow f (· == 3) 0 s fun heard s d i g =>
    let n := f.payload.length
    if n = 0 ∨ 256 < n ∨ n % 64 ≠ 0 ∨ bits f.id 31 23 ≠ 0 then s.replyTo i f 0x11 []
    else if !bit (s.obe Ob.peer_perm i) 0 then s.replyTo i f 0x05 []
    else if !s.bufferFree d n then s.noSink heard i f
    else
      let tile := bits f.id 11 0
      let j := (s.buffer d n).newJob d { work := .inSend i f.seq g, left := 1, total := n }
      j.2.dieRequest d 4 0x03 g tile 0 (mkLoc tile 0) (tile + fld (bits f.id 14 12) 12 + fld (bits f.id 22 15) 16)
        (s.now + us (s.ob Ob.send_expiry)) j.1 0 0 lastDeadline f.payload

/-- Why an inbound REDUCE is refused beyond its window's checks: no entry 0x06, a type mismatch or an overcount 0x10 (R219, R226);
0 where it is added. An id of the module's own range is no program entry (R283). -/
def State.reduceReason (s : State) (d : Nat) (f : Frame) : Nat :=
  if 0xFFFFFE10 ≤ f.id then 0x10
  else if 0xFFFFFE00 ≤ f.id then 0
  else match s.findRed d f.id with
    | none => if (s.freeRed d).isNone then 0x06 else 0
    | some k => match s.redOf d k with
      | some x => if x.type ≠ f.type ∨ (x.armed ∧ x.expected < x.count + f.count) then 0x10 else 0
      | none => 0

/-- TRASHANDI_REDUCE (R183, R219, R223, R234): elements that do not lie in a vector's places make the request malformed; a type mismatch
or an overcount has R183's effects on the entry and is answered 0x10. -/
def execTrashandiReduce (f : Frame) (s : State) : Out :=
  inboundRow f (· == 4) 2 s fun heard s d i g =>
    let n := f.payload.length
    let off := bits f.offset 11 0
    if n = 0 ∨ f.type < 2 ∨ 4 < f.type ∨ n % redWidth f.type ≠ 0 ∨ off % redWidth f.type ≠ 0 ∨ 4096 < off + n ∨ f.count = 0 ∨
        65536 < f.count then s.replyTo i f 0x11 []
    else
      let r := s.windowCheck g i 2 f n
      let why := s.reduceReason d f
      if r ≠ 0 then s.replyTo i f r []
      else if !s.bufferFree d n ∨ why = 0x06 then s.noSink heard i f
      else if 0xFFFFFE10 ≤ f.id then s.replyTo i f why []
      else (s.redArrive d g f.id f.type f.count off 0 f.payload).replyTo i f why []

/-! Groups (R230, R231). -/

/-- GROUP_COMMIT (R230): acted on once the writes and bytes that have landed equal its count and bytes. -/
def execGroupCommit (f : Frame) (s : State) : Out :=
  inboundRow f (· == 5) 0 s fun _ s d i g =>
    if f.payload ≠ [] ∨ f.count = 0 ∨ 4096 < f.count then s.replyTo i f 0x11 []
    else
      let r := s.windowCheck g i 0 f 0
      if r ≠ 0 then s.replyTo i f r []
      else match s.findGroup d i f.id with
        | some e => match s.inGroup d e with
          | some x =>
            if x.window ≠ f.winIndex ∨ x.commit.isSome then s.replyTo i f 0x0D []
            else (s.setInGroup d e (some { x with commit := some f })).groupMatch d e
          | none => s
        | none => s.replyTo i f 0x0D []

/-- GROUP_COMMIT_APPLY (R230): every touched tile removes the group's marks, the window's notify counter is raised, the reply
goes out. -/
def execGroupCommitApply (die : Die) (e : Nat) (s : State) : Out :=
  let d := die.val
  match s.inGroup d e with
  | some x =>
    match x.commit with
    | some f =>
      if !x.committing then s.noEvent
      else
        let s1 := (s.endGroupTiles d e x false).setInGroup d e none
        let s2 := s1.modDie d fun y => { y with doneGroups := y.doneGroups ++ [(x.peer, x.id)] }
        let v := s.obe Ob.win_notify x.window
        let s3 := if bit v 16 then s2.notifyCounter (bits v 11 0) (bits v 15 12) else s2
        .next (s3.replyTo x.peer f 0 [])
    | none => s.noEvent
  | none => s.noEvent

/-- GROUP_ABORT (R231). -/
def execGroupAbort (f : Frame) (s : State) : Out :=
  inboundRow f (· == 6) 0 s fun _ s d i g =>
    if f.payload ≠ [] then s.replyTo i f 0x11 []
    else
      let r := s.windowCheck g i 0 f 0
      if r ≠ 0 then s.replyTo i f r []
      else match s.findGroup d i f.id with
        | some e => match s.inGroup d e with
          | some x =>
            if x.committing ∨ x.window ≠ f.winIndex then s.replyTo i f 0x0D [] else (s.abortGroup d e).replyTo i f 0 []
          | none => s
        | none => s.replyTo i f 0x0D []

/-- GROUP_TIMEOUT (R230): group_timeout has passed since the group's first write. -/
def execGroupTimeout (die : Die) (e : Nat) (s : State) : Out :=
  match s.inGroup die e with
  | some x =>
    if !x.committing ∧ us (s.ob Ob.group_timeout) ≤ s.now - x.first then .next (s.abortGroup die e) else s.noEvent
  | none => s.noEvent

end Sys2Proof.Machine
end

