-- ==== Sys2Proof/Machine/DictRows.lean ====
section
/-! DEFINITION. The rows of the dictionary service: reads and writes over BAR0, the mailbox, I3C and the dictionary protocol, SPDM sessions,
the settings journal (R254 to R267, R385). -/

namespace Sys2Proof.Machine

/-- What a write does where no command brings more. -/
def plainAct : Act := writeAct none none

/-! Writes and reads (R254, R259, R263). -/

/-- The object that a write goes to. -/
def accessKey : DictAccess → Nat
  | .bar0 off _ _ => slotKey off
  | .msg _ r => r.index * 256 + r.sub

/-- An access goes to an RWT object. -/
def accessStages (a : DictAccess) : Bool :=
  match objInfo (accessKey a) with
  | some o => o.acc == 4
  | none => false

/-- DICT_WRITE (R254, R257 to R263, R266, R269): a write of an object that is not RWT. -/
def execDictWrite (a : DictAccess) (s : State) : Out := if accessStages a then s.noEvent else dictAccess plainAct a s

/-- RWT_STAGE (R254, R258, R264, R272, R273): a write of an RWT object. -/
def execRwtStage (a : DictAccess) (s : State) : Out := if accessStages a then dictAccess plainAct a s else s.noEvent

/-- A message with a given operation. -/
def opMessage (op : Nat) (src : Source) (r : DictReq) (s : State) : Out :=
  if r.op ≠ op then .fault .malformedCommand else dictMessage plainAct src r s

/-- DICT_READ (R254, R257, R263). -/
def execDictRead (src : Source) (r : DictReq) (s : State) : Out := opMessage 1 src r s

/-- READ_STAGED (R263). -/
def execReadStaged (src : Source) (r : DictReq) (s : State) : Out := opMessage 3 src r s

/-- DESCRIBE (R263). -/
def execDescribe (src : Source) (r : DictReq) (s : State) : Out := opMessage 4 src r s

/-- BAR0_READ (R259, R260, R262): 4 or 8 B of a slot, all ones while the steward restarts. What a read of another size or alignment returns is
not stated: a free value. -/
def execBar0Read (off size : Nat) (s : State) : Out :=
  if size = 0 ∨ 8 < size ∨ bar0Bytes < off + size then .fault .malformedCommand
  else if !s.host.linkUp then s.noEvent
  else
    let put (v : Nat) (s : State) : Out := .next { s with dict := { s.dict with bar0Value := v } }
    if s.boot.steward = .restarting then put (2 ^ (8 * size) - 1) s
    else if !s.serving then put (s.freeVal (8 * size)) s.drew
    else if (size = 4 ∨ size = 8) ∧ off % size = 0 then
      put (s.slotWord (off / 8 * 8) / 2 ^ (8 * (off % 8)) % 2 ^ (8 * size)) s
    else put (s.freeVal (8 * size)) s.drew

/-! The mailbox (R265). -/

/-- Bytes of the mailbox's buffer. -/
def mailboxBytes : Nat := 0x0FE0

/-- MAILBOX_GO (R265): the driver writes the buffer from its start, and the control register. While a request is being served the writes of the
buffer and of go are discarded and counted; the register's other fields are written. -/
def execMailboxGo (reg : BitVec 64) (buf : Bytes) (s : State) : Out :=
  let v := reg.toNat
  if mailboxBytes < buf.length then .fault .malformedCommand
  else if !s.host.linkUp then s.noEvent
  else
    let busy := s.dict.mbBusy
    let d := { s.dict with
      mbBuf := if busy then s.dict.mbBuf else Mem.writeBytes s.dict.mbBuf 0 buf
      mbIe := bit v 4, mbVector := bits v 10 5, mbDone := s.dict.mbDone && !bit v 2
      mbRefused := if busy then (s.dict.mbRefused + b2n (buf != []) + b2n (bit v 0)) % 2 ^ 64 else s.dict.mbRefused }
    let s1 := { s with dict := d }
    if busy || !bit v 0 then .next s1
    else if s.boot.steward = .restarting ∨ s.serving then
      dictMessage plainAct .mailbox (reqOf (Mem.readBytes d.mbBuf 0 mailboxBytes)) s1
    else .next { s1 with dict := { d with mbBusy := true } }

/-! SPDM (R267). -/

/-- A message that carries SPDM. -/
def spdmReq : DictReq :=
  { op := 5, index := 0, sub := 0, first := 0, count := 1, length := 0, tag := 0, reserved := 0, data := [] }

/-- Sessions that the module holds; the ROM holds one (R385). -/
def State.maxSessions (s : State) : Nat := if s.boot.steward = .recovery then 1 else 4

/-- What an SPDM message does to a session: KEY_EXCHANGE with mutual authentication under the stored root opens one; a root hash of zero refuses
every session. -/
def State.spdm (s : State) (n : Nat) (m : SpdmMsg) : State :=
  match m with
  | .keyExchange root both =>
    if both && !(s.sess n).opened && decide (n < s.maxSessions) && s.ob Ob.fm_root_hash != 0 && s.ob Ob.fm_root_hash == root then
      s.drew.modSess n fun _ => { opened := true, key := s.free, lastMsg := s.now }
    else s
  | .endSession => s.endSession n
  | .other => if (s.sess n).opened then s.modSess n fun x => { x with lastMsg := s.now } else s

/-- SPDM (R262, R267). -/
def execSpdm (n : Session) (m : SpdmMsg) (s : State) : Out :=
  if s.boot.steward = .restarting then .next (s.refuseReq (.session n) spdmReq 0x09)
  else if s.serving then .next (s.spdm n m)
  else s.noEvent

/-- SESSION_IDLE_TIMEOUT (R267). -/
def execSessionIdleTimeout (n : Session) (s : State) : Out :=
  if (s.sess n).opened ∧ s.serving ∧ ms (s.ob Ob.fm_session_idle) ≤ s.now - (s.sess n).lastMsg then
    .next ((s.endSession n).nextCommit)
  else s.noEvent

/-! The dictionary protocol (R217, R223, R267, R313, R385). -/

/-- The session under whose keys a payload's tag verifies, and the message it carries. -/
def State.unsealed (s : State) (payload : Bytes) : Option (Session × Bytes) :=
  (([0, 1, 2, 3] : List Session).filterMap fun (n : Session) =>
    if (s.sess n.val).opened then (Config.dictOpen (s.sess n.val).key payload).map fun bs => (n, bs) else none).head?

/-- The session that an SPDM message outside a session is for: a new one. -/
def State.freshSession (s : State) : Nat := ((List.range s.maxSessions).find? fun n => !(s.sess n).opened).getD 4

/-- A response's bytes. -/
def respBytes (x : DictResp) : Bytes := reqHeader x.req x.status ++ x.req.data

/-- Serves a DICT payload: the state and the reply's payload. A message outside a session other than SPDM, or one whose tag fails, is answered
0x0C and counted; while the steward restarts the port die answers 0x09. -/
def State.dictPayload (s : State) (payload : Bytes) : State × Bytes :=
  let r := reqOf payload
  if s.boot.steward = .restarting then
    (s.refusal 3 0x09 r.index r.sub, respBytes { status := 0x09, req := { r with length := 0, data := [] } })
  else match s.unsealed payload with
    | some (n, bs) =>
      let q := reqOf bs
      let key := (s.sess n).key
      let s := s.modSess n fun x => { x with lastMsg := s.now }
      if q.op = 5 then
        let d := Config.spdmAnswer s.free
        (s.drew.spdm n (Config.spdmMsg q.data),
          Config.dictSeal key (respBytes { status := 0, req := { q with length := d.length, data := d } }))
      else
        let w := s.serve plainAct (.session n) q
        (w.1.respond (.session n) w.2, Config.dictSeal key (respBytes w.2))
    | none =>
      if r.op = 5 ∧ r.data.length = r.length then
        let d := Config.spdmAnswer s.free
        (s.drew.spdm s.freshSession (Config.spdmMsg r.data), respBytes { status := 0, req := { r with length := d.length, data := d } })
      else (s.refusal 3 0x0C r.index r.sub, respBytes { status := 0x0C, req := { r with length := 0, data := [] } })

/-- A DICT packet is acted on: refused, or served and answered. -/
def State.dictAct (s : State) (i : Nat) (f : Frame) : State :=
  if f.payloadLen ≠ f.payload.length ∨ 4096 < f.payloadLen then s.replyTo i f 0x11 []
  else if !bit (s.obe Ob.peer_perm i) 1 then s.replyTo i f 0x05 []
  else if s.boot.steward = .off ∨ s.boot.steward = .booting then s
  else
    let w := s.dictPayload f.payload
    w.1.replyTo i f 0 w.2

/-- Control packets of a peer that are now in sequence are acted on. -/
def State.dictInOrder (s : State) (d i : Nat) : Nat → State
  | 0 => s
  | n + 1 =>
    let x := s.peer d i
    let cum := (x.space 3).rxCum
    match x.ctl.find? fun f => 2 ^ 31 ≤ (f.seq + 2 ^ 32 - cum) % 2 ^ 32 with
    | some f => ((s.modPeer d i fun x => { x with ctl := x.ctl.filter (· != f) }).dictAct i f).dictInOrder d i n
    | none => s

/-- Keeps control packets in the order of their sequences. -/
def insertCtl (cum : Nat) (f : Frame) : List Frame → List Frame
  | [] => [f]
  | x :: xs => if (f.seq + 2 ^ 32 + 4096 - cum) % 2 ^ 32 < (x.seq + 2 ^ 32 + 4096 - cum) % 2 ^ 32 then f :: x :: xs
    else x :: insertCtl cum f xs

/-- The recovery endpoint takes a DICT packet (R385): of any source, in sequence; the space starts at 0 with a session's first packet. -/
def State.dictRecovery (s : State) (f : Frame) : State :=
  let fresh := f.seq = 0 ∧ !(s.sess 0).opened
  if f.die ≠ 0 ∨ f.subPort ≠ 0 ∨ f.version ≠ 1 ∨ f.kind ≠ 0 ∨ !s.subUp 0 ∨ f.dstRole ≠ 0xFFFE ∨ f.dstEpoch ≠ 0 ∨ f.space ≠ 3 ∨
      f.payloadLen ≠ f.payload.length ∨ 4096 < f.payloadLen ∨ (f.seq ≠ s.dict.recSeq ∧ !fresh) then s
  else
    let w := { s with dict := { s.dict with recSeq := (f.seq + 1) % 2 ^ 32 } }.dictPayload f.payload
    w.1.transmit 0 { blankFrame 0 0 with
      space := 3, op := 0x89, answered := f.seq, payload := w.2, payloadLen := w.2.length
      dstRole := f.srcRole, dstEpoch := f.srcEpoch, srcRole := 0xFFFE, addr := f.addr, port := s.drawPort {} 0 }

/-- TRASHANDI_DICT (R212, R217, R223, R267, R313, R385). -/
def execTrashandiDict (f : Frame) (s : State) : Out :=
  if !f.wf then .fault .malformedCommand
  else if f.op ≠ 9 then s.noEvent
  else if s.boot.steward = .recovery then .next (s.dictRecovery f)
  else match s.inbound f 0 with
    | .noFrame => s.noEvent
    | .gone s1 => .next s1
    | .taken s1 i =>
      let d := f.die.val
      if (s1.dstMeadow f).isNone then .next (s1.replyTo i f 0x07 [])
      else if f.space ≠ 3 then .next (s1.replyTo i f 0x11 [])
      else
        let cum := ((s1.peer d i).space 3).rxCum
        let s2 := s1.modPeer d i fun x => { x with ctl := insertCtl cum f x.ctl }
        .next (s2.dictInOrder d i ((s2.peer d i).ctl.length + 1))

/-! The journal (R255). -/

/-- SETTINGS_JOURNAL_WRITE (R255): the changed stored values are journalled; settings_pending clears. -/
def execSettingsJournalWrite (s : State) : Out :=
  if s.dict.journalDue ∧ s.stewardUp then
    .next s.journalSettings
  else s.noEvent

end Sys2Proof.Machine
end

