-- ==== Sys2Proof/Machine/HostRows.lean ====
section
/-! DEFINITION. What the host and the programs do to result queues, doorbells and BAR2 (R336, R355 to R361). -/

namespace Sys2Proof.Machine

/-! Result posts (R356, R357). -/

/-- The post in a 64 B write (R356). -/
def postOf (n : Nat) (data : Bytes) : Post :=
  let v := leNat data
  { seq := bits v 63 0, stream := bits v 73 64, job := bits v 111 96, payload := bits v 191 128, length := bits v 223 192
    status := bits v 255 224, packet := n }

/-- The reserved fields of a post are zero. -/
def postClean (data : Bytes) : Bool :=
  let v := leNat data
  bits v 95 74 == 0 && bits v 127 112 == 0 && bits v 511 256 == 0

/-- A post of a meadow is taken by a queue (R336, R356): the host link is up, the queue is on and the meadow's, the length fits. -/
def State.postOk (s : State) (q meadow : Nat) (x : Post) : Bool :=
  s.host.linkUp && s.obe Ob.rq_mode q != 0 && s.obe Ob.rq_meadow q == meadow &&
    x.length ≤ (if s.obe Ob.rq_mode q = 2 then 32 else s.obe Ob.rq_slot_size q)

/-- RESULT_POST (R356, R357): a write into the result post aperture. -/
def execResultPost (n : PacketId) (s : State) : Out :=
  match s.atSink n with
  | some k =>
    if 1 < k.h.cls ∨ k.h.op ≠ 2 ∨ k.target < 4608 ∨ !k.postAperture then s.noEvent
    else
      let q := bits k.h.addr 39 20
      let x := postOf n k.data
      if 64 ≤ q ∨ bits k.h.addr 19 0 ≠ 0 ∨ k.h.bytes ≠ 64 ∨ k.data.length ≠ 64 ∨ !postClean k.data then
        .next (s.answer n k k.target 0x0A 0)
      else if !s.postOk q k.h.meadow x then .next (s.postRefuse q n)
      else .next ((s.owe n k).postArrive q x)
  | none => s.noEvent

/-- RQ_CONSUMED_WRITE (R358): a value below the previous one is ignored. -/
def execRqConsumedWrite (q : Fin 64) (v : BitVec 64) (s : State) : Out :=
  if !s.host.linkUp then s.noEvent
  else .next (s.modRq q fun x => { x with consumed := max x.consumed v.toNat })

/-- MMIO_ACKNOWLEDGE (R359): the head's ring sequence pops it; any other value is ignored and counted. -/
def execMmioAcknowledge (q : Fin 64) (v : BitVec 64) (s : State) : Out :=
  if !s.host.linkUp then s.noEvent
  else
    let ignored (x : RQueue) : RQueue := { x with ackIgnored := x.ackIgnored + 1 }
    .next (s.modRq q fun x => match x.mmio with
      | h :: rest => if h.ring = v.toNat then { x with mmio := rest } else ignored x
      | [] => ignored x)

/-- An MMIO queue's head window (R359): 32 B of record, 32 B of payload; zeros where the queue is empty. -/
def State.headWindow (s : State) (q : Nat) : Bytes :=
  match (s.rq q).mmio with
  | h :: _ => h.record ++ h.payload
  | [] => List.replicate 64 0

/-! The reads of BAR4 (R265, R355). They change nothing: no command brings one. -/

/-- A mailbox register or a word of its buffer, at an offset that is a multiple of 8 (R265). -/
def State.mailboxWord (s : State) (off : Nat) : Nat :=
  if off = 0 then fld (b2n s.dict.mbBusy) 1 + fld (b2n s.dict.mbDone) 2 + fld (b2n (s.boot.steward == .restarting)) 3 +
    fld (b2n s.dict.mbIe) 4 + fld (s.dict.mbVector % 64) 5
  else if off = 8 then s.dict.mbRefused
  else if 0x1000 ≤ off ∧ off < 0x1FE0 then s.dict.mbBuf.readLE (off - 0x1000) 8
  else 0

/-- The state of a result queue as its control block shows it (R355). -/
def State.rqState (s : State) (q : Nat) : Nat := if s.obe Ob.rq_mode q ≠ 0 ∧ !s.host.linkUp then 3 else s.obe Ob.rq_mode q

/-- A word of a result queue's control block (R355). -/
def State.rqWord (s : State) (q i : Nat) : Nat :=
  match i with
  | 0 => (s.rq q).consumed
  | 1 => (s.rq q).next
  | 3 => s.rqState q
  | _ => 0

/-- What a read of 8 B of BAR4 returns, at an offset that is a multiple of 8 (R355); reserved offsets read zero. -/
def State.bar4Word (s : State) (off : Nat) : Nat :=
  if off < 0x2000 then s.mailboxWord off
  else if off < 0x2800 then s.rqWord ((off - 0x2000) / 32) (off % 32 / 8)
  else if 0x4000 ≤ off ∧ off < 0x5000 then leNat ((s.headWindow ((off - 0x4000) / 64)).drop (off % 64) |>.take 8)
  else if 0x8000 ≤ off ∧ off < 0x8800 then
    let d : Doorbell := s.doorbell ((off - 0x8000) / 8)
    d.accepted + fld d.refused 32
  else 0

/-! Doorbells (R360). -/

/-- DOORBELL_WRITE (R360): the value is queued with the BAR2 writes before it; a full queue or a disabled doorbell refuses it. -/
def execDoorbellWrite (d : Fin 256) (v : BitVec 64) (s : State) : Out :=
  if !s.host.linkUp then s.noEvent
  else if !bit (s.obe Ob.doorbell_target d) 23 ∨ 64 ≤ (s.doorbell d).vals.length then
    .next (s.modDoorbell d fun x => { x with refused := (x.refused + 1) % 2 ^ 32 })
  else .next (s.modDoorbell d fun x => { x with vals := x.vals ++ [(v.toNat, s.host.bar2Writes)] })

/-- DOORBELL_TAKE_UP (R360): once the BAR2 writes before it have their WRITE_ACKs, and the value before it its SEND_DONE. -/
def execDoorbellTakeUp (d : Fin 256) (s : State) : Out :=
  match (s.doorbell d).vals with
  | (v, before) :: _ =>
    if (s.doorbell d).outstanding ∨ before.any s.host.bar2Writes.contains then s.noEvent
    else .next (s.doorbellSend d v)
  | [] => s.noEvent

/-! BAR2 (R361). -/

/-- Bytes of BAR2. -/
def bar2Bytes : Nat := 2 ^ 36

/-- BAR2_WRITE (R361): C1 WRITEs into the entry's meadow, or discarded and counted. -/
def execBar2Write (off : Nat) (bytes : Bytes) (s : State) : Out :=
  if bytes = [] ∨ bar2Bytes < off + bytes.length then .fault .malformedCommand
  else if !s.host.linkUp then s.noEvent
  else match s.bar2Allowed off bytes.length 0 with
    | none => .next (s.addObe Ob.bar2_refused 0 1 64)
    | some e =>
      let g := s.obe Ob.bar2_meadow e
      let a := s.bar2Addr e off
      let m := s.meshParts g a bytes.length
      if m = 0 then .next (s.addObe Ob.bar2_refused 0 1 64)
      else
        let j := s.newJob 0 { work := .bar2Write, left := m }
        let s1 := { j.2 with host := { j.2.host with bar2Writes := j.2.host.bar2Writes ++ [j.1] } }
        .next (s1.meshWrite 0 g a j.1 0 bytes)

/-- BAR2_READ (R361): C1 READs of the entry's meadow, or all ones and counted. -/
def execBar2Read (off len : Nat) (s : State) : Out :=
  if len = 0 ∨ bar2Bytes < off + len then .fault .malformedCommand
  else if !s.host.linkUp then s.noEvent
  else match s.bar2Allowed off len 1 with
    | none => .next (s.bar2Fail len)
    | some e =>
      let g := s.obe Ob.bar2_meadow e
      let a := s.bar2Addr e off
      let m := s.meshParts g a len
      if m = 0 then .next (s.bar2Fail len)
      else
        let j := s.newJob 0 { work := .bar2Read len, left := m }
        .next (j.2.meshRead 0 g a j.1 len)

end Sys2Proof.Machine
end

