-- ==== Sys2Proof/Machine/Outbound.lean ====
section
/-! DEFINITION. What tiles send to peers through the port dies, and the peers' replies (R126, R212, R216, R222, R226 to R228, R232,
R235). -/

namespace Sys2Proof.Machine

/-- The request of a reply's operation and space that a port die keeps (R212, R216). -/
def OutReq.answeredBy (r : OutReq) (i : Nat) (f : Frame) : Bool :=
  r.peer == i && r.seq == f.answered && replySpaceOf r.space == f.space.val && r.op + 0x80 == f.op

/-- TRASHANDI_REPLY (R212, R216, R226): a reply to no request, or with another operation, is discarded and counted. -/
def execTrashandiReply (f : Frame) (s : State) : Out :=
  if !f.wf then .fault .malformedCommand
  else if f.op < 0x80 then s.noEvent
  else match s.inbound f 0 with
    | .noFrame => s.noEvent
    | .gone s1 => .next s1
    | .taken s1 i =>
      let d := f.die.val
      match (s1.die d).outReqs.find? fun r => r.answeredBy i f with
      | none => .next (s1.countPeer i 3)
      | some r =>
        let reason := knownReason f.status
        let s2 := if reason = 0 then s1 else s1.countPeer i (5 + reason)
        let s3 := s2.modDie d fun x => { x with outReqs := x.outReqs.filter (· != r) }
        .next (s3.tellRequest d r reason f.payload)

/-- A window-form packet at its peer's home die (R106, R222). -/
def Packet.windowForm (k : Packet) : Bool :=
  4608 ≤ k.target && k.target < 4610 && k.h.cls == 0 && !k.pageForward && bits k.h.addr 63 60 == 2

/-- An open or closed outbound group of a window (R227). -/
def State.outGroup (s : State) (d w id : Nat) : Option Nat :=
  ((s.die d).outGroups.find? fun x => match x.2 with
    | some y => y.window == w && y.id == id
    | none => false).map (·.1)

/-- Changes an outbound group. -/
def State.setOutGroup (s : State) (d e : Nat) (x : OutGroup) : State :=
  s.modDie d fun y => { y with outGroups := y.outGroups.put none e (some x) }

/-- The place behind a die's outbound groups. -/
def State.outGroupPlace (s : State) (d : Nat) : Nat := (s.die d).outGroups.foldl (fun m x => max m (x.1 + 1)) 0

/-- The place of a new outbound group: at most 256 are open (R227). -/
def State.newOutGroup (s : State) (d : Nat) : Option Nat :=
  let xs := (s.die d).outGroups
  let opened := (xs.filter fun x => match x.2 with
    | some y => !y.closed
    | none => false).length
  if opened < 256 then some (s.outGroupPlace d) else none

/-- A grouped write is counted in its group (R227): the reason where it is refused. -/
def State.countOut (s : State) (d w id len : Nat) : Except Nat State :=
  match s.outGroup d w id with
  | some e => match Tbl.get none (s.die d).outGroups e with
    | some x =>
      if x.closed then .error 0x0D
      else .ok (s.setOutGroup d e { x with writes := x.writes + 1, bytes := x.bytes + len })
    | none => .error 0x06
  | none => match s.newOutGroup d with
    | some e => .ok (s.setOutGroup d e { window := w, id, writes := 1, bytes := len })
    | none => .error 0x06

/-- OUTBOUND_WINDOW_ACCESS (R126, R220, R222, R227): checked at the home die, then sent to the peer once there is room; the tile is
answered when the remote reply has come. -/
def execOutboundWindowAccess (n : PacketId) (s : State) : Out :=
  match s.atSink n with
  | some k =>
    let d := k.target - 4608
    if !k.windowForm then s.noEvent
    else
      let g := k.h.meadow
      let w := bits k.h.addr 51 40
      let r := s.outReason d g w (bits k.h.addr 55 52)
      let len := k.h.bytes
      if k.h.op ≠ 1 ∧ k.h.op ≠ 2 then .next (s.answer n k k.target 0x0C 0)
      else if r ≠ 0 then .next (s.answer n k k.target 0x09 r)
      else if s.lacksRoom d k then s.noEvent
      else
        let grouped := bit k.h.arg1 32 && k.h.op == 2
        let id := bits k.h.arg1 31 0
        let f := s.remoteHandle w { blankFrame d 0 with
          op := if k.h.op = 1 then 2 else 1, offset := bits k.h.addr 39 0, count := if k.h.op = 1 then len else 0
          id := if grouped then id else 0, payload := if k.h.op = 1 then [] else k.data.take len }
        match if grouped then s.countOut d w id len else .ok s with
        | .error e => .next (s.answer n k k.target 0x09 e)
        | .ok s1 => .next ((s1.owe n k).sendRequest d (s.windowPeer w) 0 g (.access { k.h with tag := n })
            (if grouped then some id else none) f)
  | none => s.noEvent

/-- A group control record (R228). -/
def groupControlOk (r : Nat) : Bool := bits r 31 17 == 0 && bits r 511 64 == 0 && bits r 63 32 != 0

/-- GROUP_COMMIT_CONTROL and GROUP_ABORT_CONTROL (R227, R228): the group is closed, one that sent nothing too, and the peer told, with the
die's own counts. -/
def groupControl (n : PacketId) (abort : Bool) (s : State) : Out :=
  match s.atSink n with
  | some k =>
    let d := k.target - 4608
    let r := leNat (k.data.take 64)
    if !k.objectWrite 7 ∨ bit r 16 ≠ abort then s.noEvent
    else if !groupControlOk r ∨ bits k.h.addr 43 0 ≠ 0 ∨ k.data.length ≠ 64 then .next (s.answer n k k.target 0x0C 0)
    else
      let g := k.h.meadow
      let w := bits r 11 0
      let id := bits r 63 32
      let why := s.outReason d g w (bits r 15 12)
      let x := (s.outGroup d w id).bind fun e => (Tbl.get none (s.die d).outGroups e).map fun x => (e, x)
      if why ≠ 0 then .next (s.answer n k k.target 0x09 why)
      else
        let old := match x with
          | some y => y.2
          | none => { window := w, id }
        if old.closed ∨ (x.isNone ∧ !abort) then .next (s.answer n k k.target 0x09 0x0D)
        else if s.lacksRoom d k then s.noEvent
        else
          let place := match x with
            | some y => y.1
            | none => s.outGroupPlace d
          let s1 := s.setOutGroup d place { old with closed := true }
          let f := s.remoteHandle w { blankFrame d 0 with
            op := if abort then 6 else 5, id, count := if abort then 0 else old.writes
            groupBytes := if abort then 0 else old.bytes }
          .next ((s1.owe n k).sendRequest d (s.windowPeer w) 0 g (.groupControl { k.h with tag := n })
            none f)
  | none => s.noEvent

/-- GROUP_COMMIT_CONTROL (R228). -/
def execGroupCommitControl (n : PacketId) (s : State) : Out := groupControl n false s

/-- GROUP_ABORT_CONTROL (R228). -/
def execGroupAbortControl (n : PacketId) (s : State) : Out := groupControl n true s

/-- REMOTE_SEND (R232, R235). A write of a port-die object that has no meaning is answered 0x0C. -/
def execRemoteSend (n : PacketId) (s : State) : Out :=
  match s.atSink n with
  | some k =>
    let d := k.target - 4608
    if k.h.cls ≤ 1 ∧ 4608 ≤ k.target ∧ k.target < 4610 ∧ !k.pageForward ∧ bits k.h.addr 63 60 = 4 ∧
        (k.h.op ≠ 2 ∨ bits k.h.addr 47 44 < 1 ∨ 7 < bits k.h.addr 47 44 ∨
          (2 ≤ bits k.h.addr 47 44 ∧ bits k.h.addr 47 44 ≤ 4)) then
      .next (s.answer n k k.target 0x0C 0)
    else if !k.objectWrite 5 then s.noEvent
    else
      let a := k.h.addr
      let peer := bits a 43 32
      let len := k.data.length
      if bits a 8 0 ≠ 0 ∨ len = 0 ∨ 256 < len ∨ len % 64 ≠ 0 then .next (s.answer n k k.target 0x0C 0)
      else
        let why := s.peerReason d k.h.meadow peer
        if why ≠ 0 then .next (s.answer n k k.target 0x09 why)
        else if s.lacksRoom d k then s.noEvent
        else
          let f := { blankFrame d 0 with
            op := 3, id := bits a 31 20 + fld (bits a 19 17) 12 + fld (bits a 16 9) 15, payload := k.data }
          .next ((s.owe n k).sendRequest d peer 0 k.h.meadow (.remoteSend { k.h with tag := n }) none f)
  | none => s.noEvent

end Sys2Proof.Machine
end

