-- ==== Sys2Proof/Machine/Pages.lean ====
section
/-! DEFINITION. The commands of the page store (R242 to R249). -/

namespace Sys2Proof.Machine

/-- The page request that a frame carries (R245). -/
def framePage (f : Frame) : PageReq where
  op := f.op
  subop := bits f.id 27 24
  handle := f.offset + fld (bits f.id 23 0) 40
  chunk := f.count
  flags := f.type
  scale := f.groupBytes
  payload := f.payload

/-- A page request of a peer with an operation and subop; a reserved bit set is refused 0x19. -/
def pageRow (f : Frame) (mine : PageReq → Bool) (s : State) : Out :=
  if !mine (framePage f) then s.noEvent
  else inboundRow f (fun op => op == 7 || op == 8) 0 s fun heard s d i g =>
    let len := f.payload.length
    if bits f.id 31 28 ≠ 0 then s.pageRefuse d (.peer i f.seq) g f.op 0x19
    else if !s.bufferFree d len then s.noSink heard i f
    else
      let held := if (framePage f).isWrite && pageDie (framePage f).tile == d then len else 0
      let before := (s.die d).nextJob
      let s1 := s.pageRequest d i f.seq g (framePage f) held
      if before < (s1.die d).nextJob then s1.buffer d held else s1

/-- ALLOC (R243). A subop that is reserved is refused 0x19 (R245). -/
def execAlloc (f : Frame) (s : State) : Out :=
  pageRow f (fun r => r.isAlloc || (r.op == 8 && 3 ≤ r.subop) || (r.op == 7 && 2 ≤ r.subop)) s

/-- PAGE_WRITE (R242, R246). -/
def execPageWrite (f : Frame) (s : State) : Out := pageRow f PageReq.isWrite s

/-- FREE (R242, R246). -/
def execFree (f : Frame) (s : State) : Out := pageRow f PageReq.isFree s

/-- PAGE_READ (R242, R246). -/
def execPageRead (f : Frame) (s : State) : Out := pageRow f PageReq.isRead s

/-- ATTEND (R246, R247). -/
def execAttend (f : Frame) (s : State) : Out := pageRow f (fun r => r.op == 7 && r.subop == 1) s

/-- ATTEND_DONE (R246, R247, R251): the page program of a tile finishes its oldest ATTEND; a queued one starts. -/
def execAttendDone (p : Phys) (s : State) : Out :=
  match (s.tile p).logical, (s.tile p).meadow with
  | some l, some g =>
    let d := pageDie l
    let q : AttendQ := Tbl.get {} (s.die d).attends l
    match q.held with
    | [] => s.noEvent
    | a :: rest =>
      if (s.tile p).power.state = .t3 then s.noEvent
      else
        let q' : AttendQ := { held := rest ++ q.queued.take 1, queued := q.queued.drop 1 }
        let s1 := (s.modDie d fun x => { x with attends := x.attends.put {} l q' }).frameDone d (frameKey l a.frame)
        match s.attendResult p g a with
        | some bs => .next (s1.pageAnswer d a.client g 7 0 0 bs)
        | none => .next ((s1.uncorrectable p (a.frame * s.pageSize g)).pageRefuse d a.client g 7 0x0F)
  | _, _ => s.noEvent

/-- FORWARDED_PAGE_REQUEST (R244): a C0 packet from the other port die. -/
def execForwardedPageRequest (n : PacketId) (s : State) : Out :=
  match s.atSink n with
  | some k =>
    if k.h.cls ≠ 0 ∨ k.target < 4608 ∨ 4610 ≤ k.target ∨ (k.h.op ≠ 7 ∧ k.h.op ≠ 8) ∨ k.h.srcKind = 0 then s.noEvent
    else
      let d := k.target - 4608
      let g := k.h.meadow
      let r : PageReq := {
        op := k.h.op, subop := bits k.h.arg0 7 0, handle := k.h.addr, flags := bits k.h.arg0 23 16
        chunk := bits k.h.arg0 40 24, scale := bits k.h.arg1 31 0, payload := k.data }
      let c := PageClient.otherDie k.h
      let s1 := s.consume n k
      if r.op = 8 ∧ (r.subop = 0 ∨ r.subop = 3) then
        match s1.allocHalf d g (bits k.h.arg1 43 32) r.flags (r.subop == 3) with
        | some x => .next (x.2.pageAnswer d c g 8 0 x.1 [])
        | none => .next (s1.pageAnswer d c g 8 0x18 0 [])
      else .next (s1.pageAct d c g r 0)
  | none => s.noEvent

/-- PAGE_FORWARD_REPLY (R244). -/
def execPageForwardReply (n : PacketId) (s : State) : Out :=
  match s.atSink n with
  | some k =>
    let d := k.target - 4608
    if k.h.cls ≠ 2 ∨ k.target < 4608 ∨ 4610 ≤ k.target then s.noEvent
    else match s.dieJob d k.h.tag with
      | some { work := .forwarded peer seq g op subop flags, .. } =>
        let want := if op = 7 ∧ subop = 0 then 4096
          else if op = 7 then (flags + 1) * (8 + 4 * s.pageWidth g) else 0
        let s1 := ((s.consume n k).releaseReply k.target want).modDie d fun x =>
          { x with jobs := x.jobs.put none k.h.tag none }
        .next (s1.pageForwarded d peer seq g op subop flags (if k.h.status = 0 then 0 else k.h.detail) k.h.arg0 k.data)
      | _ => s.noEvent
  | none => s.noEvent

/-- PAGE_SEAL_TIMEOUT (R242): a frame, by its key in the die's page table, that has stayed Allocated for longer than
page_seal_timeout. -/
def execPageSealTimeout (die : Die) (fr : Nat) (s : State) : Out :=
  let f := s.frame die fr
  if f.state = .allocated ∧ us (s.ob Ob.page_seal_timeout) < s.now - f.allocAt then
    .next ((s.modFrame die fr PageFrame.freed).addRec Ob.page_counts (s.obe Ob.tile_meadow (fr / 1024)) 2 1)
  else s.noEvent

/-! Page commands (R249). -/

/-- A page command with an operation; one whose record is bad is answered 0x0C, one whose requests find no room waits (R220). -/
def pageCommandRow (n : PacketId) (mine : Nat → Bool) (s : State) : Out :=
  match s.atSink n with
  | some k =>
    let d := k.target - 4608
    let r := leNat (k.data.take 64)
    if !k.objectWrite 6 ∨ !mine (pcOp r) then s.noEvent
    else if !pageCmdOk r ∨ bits k.h.addr 43 0 ≠ 0 ∨ k.data.length ≠ 64 then .next (s.answer n k k.target 0x0C 0)
    else if s.peerReason d k.h.meadow (pcPeer r) = 0 ∧ s.lacksRoom d k then s.noEvent
    else .next (s.cmdStart d n k)
  | none => s.noEvent

/-- PAGE_COMMAND_PUT (R249). A record with a reserved operation is answered 0x0C. -/
def execPageCommandPut (n : PacketId) (s : State) : Out := pageCommandRow n (fun op => op == 1 || op == 0 || 4 < op) s

/-- PAGE_COMMAND_GET (R249). -/
def execPageCommandGet (n : PacketId) (s : State) : Out := pageCommandRow n (· == 2) s

/-- PAGE_COMMAND_ATTEND (R249). -/
def execPageCommandAttend (n : PacketId) (s : State) : Out := pageCommandRow n (· == 3) s

/-- PAGE_COMMAND_FREE (R249). -/
def execPageCommandFree (n : PacketId) (s : State) : Out := pageCommandRow n (· == 4) s

end Sys2Proof.Machine
end

