-- ==== Sys2Proof/Machine/Steps.lean ====
section
/-! DEFINITION. Step commit and the step-progress timeout (R279 to R283, R337, R338, R346, R351). -/

namespace Sys2Proof.Machine

/-! The scan of intake regions (R346, R351). -/

/-- `n` bytes of an intake ring, from a position of the ring. -/
def ringBytes (m : Mem) (base len pos n : Nat) : Bytes := (List.range n).map fun i => m.read (base + (pos + i) % len)

/-- The headers of the records of a ring from a position forward, as (stream, sequence): up to one that is no header (all zero, or
with a nonzero reserved field), or once round. -/
def ringRecords (m : Mem) (base len : Nat) : Nat → Nat → Nat → List (Nat × Nat)
  | 0, _, _ => []
  | fuel + 1, pos, done =>
    let h := leNat (ringBytes m base len pos 32)
    let size := 32 + ceilDiv (bits h 159 128) 32 * 32
    if h = 0 ∨ bits h 127 112 ≠ 0 ∨ bits h 255 160 ≠ 0 ∨ len < done + size then []
    else (bits h 95 64, bits h 63 0) :: ringRecords m base len fuel (pos + size) (done + size)

/-- The records of an intake region from its read position forward. -/
def State.intakeRecords (s : State) (r : Nat) : List (Nat × Nat) :=
  let base := bits r 54 32
  let len := bits r 127 96 - 64
  let m := (s.tile (s.physOf (bits r 15 4))).cistern
  if len = 0 then [] else ringRecords m (base + 64) len (len / 32) (m.readLE base 8) 0

/-- The lowest request sequence of each stream. -/
def lowestOf (xs : List (Nat × Nat)) : List (Nat × Nat) :=
  xs.foldl (fun acc x =>
    if acc.any fun y => y.1 == x.1 then acc.map fun y => if y.1 = x.1 then (y.1, min y.2 x.2) else y else acc ++ [x]) []

/-- The steward's scan of a meadow's intake regions. -/
def State.intakeScan (s : State) (g : Nat) : List (Nat × Nat) :=
  lowestOf (((s.regions g).filter fun x => bits x.2 2 0 == 3).flatMap fun x => s.intakeRecords x.2)

/-! Step commit (R279). -/

/-- The state pairs of a meadow's tiles: (logical tile, pair). -/
def State.statePairs (s : State) (g : Nat) : List (Nat × Nat) :=
  (s.members g).flatMap fun l => (List.range 16).filterMap fun n =>
    let x := (s.tile (s.physOf l)).trough n
    if x.configured && x.statePair then some (l, n) else none

/-- The local conditions of R279. -/
def State.stepReady (s : State) (g : Nat) : Bool :=
  (s.job g).stepPending && (s.job g).drained && (s.job g).faults == [] &&
    (s.statePairs g).all fun x => !(s.tile (s.physOf x.1)).troughBusy x.2

/-- Checkpoints (R279 step 1, R344): append regions their length, intake regions their read position. -/
def State.checkpoint (s : State) (g : Nat) : State :=
  (s.regions g).foldl (fun s x =>
    let r := x.2
    let v := if bits r 2 0 = 2 then some (bits r 191 160)
      else if bits r 2 0 = 3 then some ((s.tile (s.physOf (bits r 15 4))).cistern.readLE (bits r 54 32) 8)
      else none
    match v with
    | some n => s.putObe Ob.region_table (g * 64 + x.1) (setBits r 159 128 n)
    | none => s) s

/-- The action of a step commit on every tile of the meadow (R279): the checkpoint, the roles, S, the gates. -/
def State.commitStep (s : State) (g : Nat) : State :=
  let n := (s.obe Ob.step_number g + 1) % 2 ^ 64
  let s := s.checkpoint g
  let s := (s.statePairs g).foldl (fun s x =>
    s.modTile (s.physOf x.1) fun t => t.modTrough x.2 fun y => y.swap s.now) s
  let s := s.putObe Ob.step_number g n
  let s := s.modBarElem 0 g 15 fun x => { gen := (x.gen + 1) % 256 }
  let pairs := (s.statePairs g).map fun x => (x.1 * 64 + x.2, ((s.tile (s.physOf x.1)).trough x.2).role)
  let scan := s.intakeScan g
  let s := s.modJob g fun j => { j with
    stepPending := false, drained := false, released := false, arrived := false, stepAt := s.now, pairs, scan }
  (s.memberTiles g).foldl (fun s p => ((s.modTile p Tile.openGates).barrierDone p 15 n).streamsGo p) s

/-- STEP_COMMIT (R279, R282): the step is committed; a meadow of a step group first sends its arrival, and waits for the release. -/
def execStepCommit (g : Meadow) (s : State) : Out :=
  if !s.stepReady g then s.noEvent
  else if bit (s.stepGroup g) 0 && !(s.job g).released then
    if (s.job g).arrived then s.noEvent else .next (s.stepArrive g)
  else .next (s.commitStep g)

/-- STEP_TIMEOUT (R337, R338): the step number of a running job has not advanced for `step_timeout`; each such interval is one
detection. -/
def execStepTimeout (g : Meadow) (s : State) : Out :=
  let limit := s.obe Ob.step_timeout g
  if limit ≠ 0 ∧ s.obe Ob.job_state g = 2 ∧ ms limit ≤ s.now - (s.job g).stepAt then
    let s1 := s.modJob g fun j => { j with stepAt := s.now }
    let s2 := s1.raise { kind := 0x0800, unitClass := 6, meadow := g, detail := s.obe Ob.step_number g % 2 ^ 32 }
    .next (s2.hangFound g 1)
  else s.noEvent

end Sys2Proof.Machine
end

