-- ==== Sys2Proof/Machine/Tap.lean ====
section
/-! DEFINITION. The board-test access port (R394): commands of an IEEE 1149.1 port with TRST_N high, but for TAP_RESET. -/

namespace Sys2Proof.Machine

/-- The identification code. -/
def tapIdcode : Nat := 0x19409B47

/-- Changes the test access port. -/
def State.modTap (s : State) (f : TapState → TapState) : State := { s with pins := { s.pins with tap := f s.pins.tap } }

/-- EXTEST, EXTEST_PULSE and EXTEST_TRAIN take effect: MOD_RESET_N is low and both supplies are in range. -/
def State.extestAllowed (s : State) : Bool := !s.pins.modResetN && s.pins.auxGood && s.pins.mainGood

/-- The lands are driven from the boundary register. -/
def State.landsDriven (s : State) : Bool :=
  s.extestAllowed && (s.pins.tap.instr == .extest || s.pins.tap.instr == .extestPulse || s.pins.tap.instr == .extestTrain)

/-- An instruction of the boundary register: the levels at the lands are shifted out, `scan` is shifted in. -/
def State.boundary (s : State) (i : TapInstr) (lands scan : Nat) : State :=
  s.modTap fun _ => { instr := i, shifted := lands, update := scan }

/-- An instruction that drives lands; where it may not take effect it acts as SAMPLE/PRELOAD. -/
def State.driving (s : State) (i : TapInstr) (lands scan : Nat) : State :=
  s.boundary (if s.extestAllowed then i else .sample) lands scan

/-- TAP_RESET (R394): Test-Logic-Reset; no land is driven. -/
def execTapReset (s : State) : Out := .next (s.modTap fun t => { t with instr := .reset })

/-- BYPASS (R394): the one-bit bypass register, which captures 0 (IEEE 1149.1). -/
def execBypass (s : State) : Out := .next (s.modTap fun t => { t with instr := .bypass, shifted := 0 })

/-- IDCODE (R394). -/
def execIdcode (s : State) : Out := .next (s.modTap fun t => { t with instr := .idcode, shifted := tapIdcode })

/-- SAMPLE_PRELOAD (R394). -/
def execSamplePreload (lands scan : Nat) (s : State) : Out := .next (s.boundary .sample lands scan)

/-- EXTEST (R394). -/
def execExtest (lands scan : Nat) (s : State) : Out := .next (s.driving .extest lands scan)

/-- EXTEST_PULSE (R394; IEEE 1149.6). -/
def execExtestPulse (lands scan : Nat) (s : State) : Out := .next (s.driving .extestPulse lands scan)

/-- EXTEST_TRAIN (R394; IEEE 1149.6). -/
def execExtestTrain (lands scan : Nat) (s : State) : Out := .next (s.driving .extestTrain lands scan)

end Sys2Proof.Machine
end

