-- ==== Sys2Proof/Machine/Dispatch.lean ====
section
/-! DEFINITION. The dispatch of a command to its meaning, one arm per constructor of Instr. -/

namespace Sys2Proof.Machine

def exec (i : Instr) (s : State) : Host.Outcome State Fault Refusal :=
  match i with
  | .auxPowerGood st resetHigh => Sys2Proof.Machine.execAuxPowerGood st resetHigh s
  | .bootTimeout => Sys2Proof.Machine.execBootTimeout s
  | .mainPowerApplied => Sys2Proof.Machine.execMainPowerApplied s
  | .regulatorStart => Sys2Proof.Machine.execRegulatorStart s
  | .perstDeassert => Sys2Proof.Machine.execPerstDeassert s
  | .perstAssert => Sys2Proof.Machine.execPerstAssert s
  | .modResetNAssert => Sys2Proof.Machine.execModResetNAssert s
  | .auxResetNAssert => Sys2Proof.Machine.execAuxResetNAssert s
  | .mainSupplyFault => Sys2Proof.Machine.execMainSupplyFault s
  | .auxUndervoltage => Sys2Proof.Machine.execAuxUndervoltage s
  | .refclkLoss clk => Sys2Proof.Machine.execRefclkLoss clk s
  | .thermalSample rs => Sys2Proof.Machine.execThermalSample rs s
  | .shutdownLockoutExpiry => Sys2Proof.Machine.execShutdownLockoutExpiry s
  | .tapReset => Sys2Proof.Machine.execTapReset s
  | .bypass => Sys2Proof.Machine.execBypass s
  | .idcode => Sys2Proof.Machine.execIdcode s
  | .samplePreload lands scan => Sys2Proof.Machine.execSamplePreload lands scan s
  | .extest lands scan => Sys2Proof.Machine.execExtest lands scan s
  | .extestPulse lands scan => Sys2Proof.Machine.execExtestPulse lands scan s
  | .extestTrain lands scan => Sys2Proof.Machine.execExtestTrain lands scan s
  | .updateBegin src => Sys2Proof.Machine.execUpdateBegin src s
  | .updateFetch src => Sys2Proof.Machine.execUpdateFetch src s
  | .fetchComplete bytes => Sys2Proof.Machine.execFetchComplete bytes s
  | .updateVerify src => Sys2Proof.Machine.execUpdateVerify src s
  | .updateApply src => Sys2Proof.Machine.execUpdateApply src s
  | .applyComplete => Sys2Proof.Machine.execApplyComplete s
  | .updateActivate src => Sys2Proof.Machine.execUpdateActivate src s
  | .updateConfirm src => Sys2Proof.Machine.execUpdateConfirm src s
  | .updateRevert src => Sys2Proof.Machine.execUpdateRevert src s
  | .updateCancel src => Sys2Proof.Machine.execUpdateCancel src s
  | .recoveryInstall src => Sys2Proof.Machine.execRecoveryInstall src s
  | .recoveryLeave src => Sys2Proof.Machine.execRecoveryLeave src s
  | .bringupCommand3 src => Sys2Proof.Machine.execBringupCommand3 src s
  | .bringupCommand4 src fs => Sys2Proof.Machine.execBringupCommand4 src fs s
  | .bringupCommand5 src => Sys2Proof.Machine.execBringupCommand5 src s
  | .bringupCommand6 src => Sys2Proof.Machine.execBringupCommand6 src s
  | .bringupCommand7 src => Sys2Proof.Machine.execBringupCommand7 src s
  | .stageDone reason => Sys2Proof.Machine.execStageDone reason s
  | .stageLimitExceeded => Sys2Proof.Machine.execStageLimitExceeded s
  | .mapAdopt src v => Sys2Proof.Machine.execMapAdopt src v s
  | .fuseBurn src v => Sys2Proof.Machine.execFuseBurn src v s
  | .commission src v => Sys2Proof.Machine.execCommission src v s
  | .decommission src => Sys2Proof.Machine.execDecommission src s
  | .defectNorWrite => Sys2Proof.Machine.execDefectNorWrite s
  | .bar0Read off size => Sys2Proof.Machine.execBar0Read off size s
  | .dictWrite a => Sys2Proof.Machine.execDictWrite a s
  | .rwtStage a => Sys2Proof.Machine.execRwtStage a s
  | .dictRead src r => Sys2Proof.Machine.execDictRead src r s
  | .readStaged src r => Sys2Proof.Machine.execReadStaged src r s
  | .describe src r => Sys2Proof.Machine.execDescribe src r s
  | .spdm n m => Sys2Proof.Machine.execSpdm n m s
  | .mailboxGo reg buf => Sys2Proof.Machine.execMailboxGo reg buf s
  | .trashandiDict f => Sys2Proof.Machine.execTrashandiDict f s
  | .sessionIdleTimeout n => Sys2Proof.Machine.execSessionIdleTimeout n s
  | .settingsJournalWrite => Sys2Proof.Machine.execSettingsJournalWrite s
  | .settingsErase src v => Sys2Proof.Machine.execSettingsErase src v s
  | .alertCauseClear src mask => Sys2Proof.Machine.execAlertCauseClear src mask s
  | .fmRootHashWrite src hash => Sys2Proof.Machine.execFmRootHashWrite src hash s
  | .stewardLockstepMismatch => Sys2Proof.Machine.execStewardLockstepMismatch s
  | .stewardRestartComplete => Sys2Proof.Machine.execStewardRestartComplete s
  | .energyGrantRepeat => Sys2Proof.Machine.execEnergyGrantRepeat s
  | .txnOpen src => Sys2Proof.Machine.execTxnOpen src s
  | .txnCommit src => Sys2Proof.Machine.execTxnCommit src s
  | .txnAbort src => Sys2Proof.Machine.execTxnAbort src s
  | .commitPrepared => Sys2Proof.Machine.execCommitPrepared s
  | .commitPrepareTimeout => Sys2Proof.Machine.execCommitPrepareTimeout s
  | .commitRetireTimeout => Sys2Proof.Machine.execCommitRetireTimeout s
  | .epoch n => Sys2Proof.Machine.execEpoch n s
  | .epochInstant => Sys2Proof.Machine.execEpochInstant s
  | .txnIdleTimeout src => Sys2Proof.Machine.execTxnIdleTimeout src s
  | .epochCountCollect => Sys2Proof.Machine.execEpochCountCollect s
  | .epochRetireOverdue => Sys2Proof.Machine.execEpochRetireOverdue s
  | .stepCommit g => Sys2Proof.Machine.execStepCommit g s
  | .migratePrecopy m => Sys2Proof.Machine.execMigratePrecopy m s
  | .precopyComplete m => Sys2Proof.Machine.execPrecopyComplete m s
  | .migrateFreeze m => Sys2Proof.Machine.execMigrateFreeze m s
  | .freezeComplete m => Sys2Proof.Machine.execFreezeComplete m s
  | .migrateHandoverCopy m => Sys2Proof.Machine.execMigrateHandoverCopy m s
  | .migrateThaw m => Sys2Proof.Machine.execMigrateThaw m s
  | .migrateRelease m => Sys2Proof.Machine.execMigrateRelease m s
  | .migrateFreezeTimeout m => Sys2Proof.Machine.execMigrateFreezeTimeout m s
  | .migrateSelfThaw m => Sys2Proof.Machine.execMigrateSelfThaw m s
  | .spareResume m => Sys2Proof.Machine.execSpareResume m s
  | .oldEpochForward n => Sys2Proof.Machine.execOldEpochForward n s
  | .add p d a b => Sys2Proof.Machine.execAdd p d a b s
  | .sub p d a b => Sys2Proof.Machine.execSub p d a b s
  | .and p d a b => Sys2Proof.Machine.execAnd p d a b s
  | .or p d a b => Sys2Proof.Machine.execOr p d a b s
  | .xor p d a b => Sys2Proof.Machine.execXor p d a b s
  | .sll p d a b => Sys2Proof.Machine.execSll p d a b s
  | .srl p d a b => Sys2Proof.Machine.execSrl p d a b s
  | .sra p d a b => Sys2Proof.Machine.execSra p d a b s
  | .slt p d a b => Sys2Proof.Machine.execSlt p d a b s
  | .sltu p d a b => Sys2Proof.Machine.execSltu p d a b s
  | .mul p d a b => Sys2Proof.Machine.execMul p d a b s
  | .mulh p d a b => Sys2Proof.Machine.execMulh p d a b s
  | .mulhu p d a b => Sys2Proof.Machine.execMulhu p d a b s
  | .div p d a b => Sys2Proof.Machine.execDiv p d a b s
  | .divu p d a b => Sys2Proof.Machine.execDivu p d a b s
  | .rem p d a b => Sys2Proof.Machine.execRem p d a b s
  | .remu p d a b => Sys2Proof.Machine.execRemu p d a b s
  | .addi p d a imm => Sys2Proof.Machine.execAddi p d a imm s
  | .andi p d a imm => Sys2Proof.Machine.execAndi p d a imm s
  | .ori p d a imm => Sys2Proof.Machine.execOri p d a imm s
  | .xori p d a imm => Sys2Proof.Machine.execXori p d a imm s
  | .slti p d a imm => Sys2Proof.Machine.execSlti p d a imm s
  | .sltiu p d a imm => Sys2Proof.Machine.execSltiu p d a imm s
  | .shi p d a imm => Sys2Proof.Machine.execShi p d a imm s
  | .lui p d imm => Sys2Proof.Machine.execLui p d imm s
  | .jal p d off => Sys2Proof.Machine.execJal p d off s
  | .jalr p d a imm => Sys2Proof.Machine.execJalr p d a imm s
  | .beq p a b off => Sys2Proof.Machine.execBeq p a b off s
  | .bne p a b off => Sys2Proof.Machine.execBne p a b off s
  | .blt p a b off => Sys2Proof.Machine.execBlt p a b off s
  | .bge p a b off => Sys2Proof.Machine.execBge p a b off s
  | .bltu p a b off => Sys2Proof.Machine.execBltu p a b off s
  | .bgeu p a b off => Sys2Proof.Machine.execBgeu p a b off s
  | .lb p d a imm => Sys2Proof.Machine.execLb p d a imm s
  | .lh p d a imm => Sys2Proof.Machine.execLh p d a imm s
  | .lw p d a imm => Sys2Proof.Machine.execLw p d a imm s
  | .ld p d a imm => Sys2Proof.Machine.execLd p d a imm s
  | .lbu p d a imm => Sys2Proof.Machine.execLbu p d a imm s
  | .lhu p d a imm => Sys2Proof.Machine.execLhu p d a imm s
  | .lwu p d a imm => Sys2Proof.Machine.execLwu p d a imm s
  | .sb p b a imm => Sys2Proof.Machine.execSb p b a imm s
  | .sh p b a imm => Sys2Proof.Machine.execSh p b a imm s
  | .sw p b a imm => Sys2Proof.Machine.execSw p b a imm s
  | .sd p b a imm => Sys2Proof.Machine.execSd p b a imm s
  | .claim p d a b func => Sys2Proof.Machine.execClaim p d a b func s
  | .release p d a b func => Sys2Proof.Machine.execRelease p d a b func s
  | .pump p d a b func => Sys2Proof.Machine.execPump p d a b func s
  | .swap p d a b func => Sys2Proof.Machine.execSwap p d a b func s
  | .send p d a b func => Sys2Proof.Machine.execSend p d a b func s
  | .sendt p d a b func => Sys2Proof.Machine.execSendt p d a b func s
  | .waitany p d a b func => Sys2Proof.Machine.execWaitany p d a b func s
  | .fold p d a b func => Sys2Proof.Machine.execFold p d a b func s
  | .token p d a b func => Sys2Proof.Machine.execToken p d a b func s
  | .tokenEndWord p d a b func => Sys2Proof.Machine.execTokenEndWord p d a b func s
  | .wait p d a b func => Sys2Proof.Machine.execWait p d a b func s
  | .credit p d a b func => Sys2Proof.Machine.execCredit p d a b func s
  | .yield p d a b func => Sys2Proof.Machine.execYield p d a b func s
  | .barrier p d a b func => Sys2Proof.Machine.execBarrier p d a b func s
  | .heartbeat p d a b func => Sys2Proof.Machine.execHeartbeat p d a b func s
  | .stallRelease p k => Sys2Proof.Machine.execStallRelease p k s
  | .taskStart p k fr => Sys2Proof.Machine.execTaskStart p k fr s
  | .taskStop p k fr => Sys2Proof.Machine.execTaskStop p k fr s
  | .taskClearFault p k fr => Sys2Proof.Machine.execTaskClearFault p k fr s
  | .watchdogExpiry p k => Sys2Proof.Machine.execWatchdogExpiry p k s
  | .timerWake p => Sys2Proof.Machine.execTimerWake p s
  | .maintenanceRequest p => Sys2Proof.Machine.execMaintenanceRequest p s
  | .clockSourceSwitch p => Sys2Proof.Machine.execClockSourceSwitch p s
  | .matmul p => Sys2Proof.Machine.execMatmul p s
  | .lacvt p => Sys2Proof.Machine.execLacvt p s
  | .vadd p => Sys2Proof.Machine.execVadd p s
  | .vsub p => Sys2Proof.Machine.execVsub p s
  | .vmul p => Sys2Proof.Machine.execVmul p s
  | .vfma p => Sys2Proof.Machine.execVfma p s
  | .vmax p => Sys2Proof.Machine.execVmax p s
  | .vmin p => Sys2Proof.Machine.execVmin p s
  | .vscale p => Sys2Proof.Machine.execVscale p s
  | .vadds p => Sys2Proof.Machine.execVadds p s
  | .vabs p => Sys2Proof.Machine.execVabs p s
  | .vneg p => Sys2Proof.Machine.execVneg p s
  | .vexp2 p => Sys2Proof.Machine.execVexp2 p s
  | .vexp p => Sys2Proof.Machine.execVexp p s
  | .vlog2 p => Sys2Proof.Machine.execVlog2 p s
  | .vlog p => Sys2Proof.Machine.execVlog p s
  | .vrcp p => Sys2Proof.Machine.execVrcp p s
  | .vrsqrt p => Sys2Proof.Machine.execVrsqrt p s
  | .rsum p => Sys2Proof.Machine.execRsum p s
  | .rmax p => Sys2Proof.Machine.execRmax p s
  | .vexpsub p => Sys2Proof.Machine.execVexpsub p s
  | .vmulrow p => Sys2Proof.Machine.execVmulrow p s
  | .cvt p => Sys2Proof.Machine.execCvt p s
  | .vdot p => Sys2Proof.Machine.execVdot p s
  | .waitingOperationStart p u => Sys2Proof.Machine.execWaitingOperationStart p u s
  | .unitStallRelease p u => Sys2Proof.Machine.execUnitStallRelease p u s
  | .unitCompletion p u => Sys2Proof.Machine.execUnitCompletion p u s
  | .unitCompletionPlaced p u => Sys2Proof.Machine.execUnitCompletionPlaced p u s
  | .patrolScrub p => Sys2Proof.Machine.execPatrolScrub p s
  | .scrubWriteBack p word => Sys2Proof.Machine.execScrubWriteBack p word s
  | .pumpDescriptorStart p n => Sys2Proof.Machine.execPumpDescriptorStart p n s
  | .pumpDescriptorComplete p n j => Sys2Proof.Machine.execPumpDescriptorComplete p n j s
  | .pumpCompletionPlaced p n => Sys2Proof.Machine.execPumpCompletionPlaced p n s
  | .wellFedDescriptor p => Sys2Proof.Machine.execWellFedDescriptor p s
  | .pumpRingStore p n fr => Sys2Proof.Machine.execPumpRingStore p n fr s
  | .troughConfigure p n fr => Sys2Proof.Machine.execTroughConfigure p n fr s
  | .counterStore p n upper fr => Sys2Proof.Machine.execCounterStore p n upper fr s
  | .sluiceRefill => Sys2Proof.Machine.execSluiceRefill s
  | .sluiceAdmit p n => Sys2Proof.Machine.execSluiceAdmit p n s
  | .endRow p inp => Sys2Proof.Machine.execEndRow p inp s
  | .endBlock p inp => Sys2Proof.Machine.execEndBlock p inp s
  | .endStep p inp => Sys2Proof.Machine.execEndStep p inp s
  | .select p inp => Sys2Proof.Machine.execSelect p inp s
  | .drainToken p inp => Sys2Proof.Machine.execDrainToken p inp s
  | .foldToken p inp => Sys2Proof.Machine.execFoldToken p inp s
  | .barrierToken p inp => Sys2Proof.Machine.execBarrierToken p inp s
  | .userToken p inp => Sys2Proof.Machine.execUserToken p inp s
  | .endWord p inp => Sys2Proof.Machine.execEndWord p inp s
  | .steerFire p u => Sys2Proof.Machine.execSteerFire p u s
  | .steerStructural p u => Sys2Proof.Machine.execSteerStructural p u s
  | .counterTerminal p n => Sys2Proof.Machine.execCounterTerminal p n s
  | .counterEmission p n => Sys2Proof.Machine.execCounterEmission p n s
  | .foldSwitch p => Sys2Proof.Machine.execFoldSwitch p s
  | .graphSourceStop p n => Sys2Proof.Machine.execGraphSourceStop p n s
  | .quietContribution p => Sys2Proof.Machine.execQuietContribution p s
  | .drainTimeout g => Sys2Proof.Machine.execDrainTimeout g s
  | .streamTelemetrySample => Sys2Proof.Machine.execStreamTelemetrySample s
  | .linkCrcRetry p dir => Sys2Proof.Machine.execLinkCrcRetry p dir s
  | .routerHeaderArrival n => Sys2Proof.Machine.execRouterHeaderArrival n s
  | .escapeWaitExpiry n => Sys2Proof.Machine.execEscapeWaitExpiry n s
  | .classWaitExpiry n => Sys2Proof.Machine.execClassWaitExpiry n s
  | .requestIssue n => Sys2Proof.Machine.execRequestIssue n s
  | .readSpaceClaim n => Sys2Proof.Machine.execReadSpaceClaim n s
  | .read n => Sys2Proof.Machine.execRead n s
  | .write n => Sys2Proof.Machine.execWrite n s
  | .c4SendArrival n => Sys2Proof.Machine.execC4SendArrival n s
  | .sendPlace p => Sys2Proof.Machine.execSendPlace p s
  | .sendExpiry p => Sys2Proof.Machine.execSendExpiry p s
  | .reduce n => Sys2Proof.Machine.execReduce n s
  | .mcastWrite n => Sys2Proof.Machine.execMcastWrite n s
  | .readData n => Sys2Proof.Machine.execReadData n s
  | .writeAck n => Sys2Proof.Machine.execWriteAck n s
  | .sendDone n => Sys2Proof.Machine.execSendDone n s
  | .quiet n => Sys2Proof.Machine.execQuiet n s
  | .drain n => Sys2Proof.Machine.execDrain n s
  | .resume n => Sys2Proof.Machine.execResume n s
  | .stallDetect n => Sys2Proof.Machine.execStallDetect n s
  | .packetTelemetryPublish => Sys2Proof.Machine.execPacketTelemetryPublish s
  | .wellOpen p w fr => Sys2Proof.Machine.execWellOpen p w fr s
  | .wellClose p w fr => Sys2Proof.Machine.execWellClose p w fr s
  | .wellReset p w fr => Sys2Proof.Machine.execWellReset p w fr s
  | .wellResettingDone p w => Sys2Proof.Machine.execWellResettingDone p w s
  | .laneFail port lane => Sys2Proof.Machine.execLaneFail port lane s
  | .portRetrainDone port up => Sys2Proof.Machine.execPortRetrainDone port up s
  | .lldpTransmit sp => Sys2Proof.Machine.execLldpTransmit sp s
  | .lldpReceive sp pdu => Sys2Proof.Machine.execLldpReceive sp pdu s
  | .arpNdFrame sp f => Sys2Proof.Machine.execArpNdFrame sp f s
  | .icmpEchoRequest sp f => Sys2Proof.Machine.execIcmpEchoRequest sp f s
  | .ptpFrame sp f => Sys2Proof.Machine.execPtpFrame sp f s
  | .pausePfcFrame sp => Sys2Proof.Machine.execPausePfcFrame sp s
  | .otherFrame sp cause => Sys2Proof.Machine.execOtherFrame sp cause s
  | .helloSend die => Sys2Proof.Machine.execHelloSend die s
  | .hello f => Sys2Proof.Machine.execHello f s
  | .helloReply f => Sys2Proof.Machine.execHelloReply f s
  | .peerHelloTimeout peer => Sys2Proof.Machine.execPeerHelloTimeout peer s
  | .ack f => Sys2Proof.Machine.execAck f s
  | .ackTimer die peer space => Sys2Proof.Machine.execAckTimer die peer space s
  | .retransmitTimeout die peer space seq => Sys2Proof.Machine.execRetransmitTimeout die peer space seq s
  | .trashandiWrite f => Sys2Proof.Machine.execTrashandiWrite f s
  | .trashandiRead f => Sys2Proof.Machine.execTrashandiRead f s
  | .trashandiSend f => Sys2Proof.Machine.execTrashandiSend f s
  | .trashandiReduce f => Sys2Proof.Machine.execTrashandiReduce f s
  | .groupCommit f => Sys2Proof.Machine.execGroupCommit f s
  | .groupCommitApply die e => Sys2Proof.Machine.execGroupCommitApply die e s
  | .groupAbort f => Sys2Proof.Machine.execGroupAbort f s
  | .groupTimeout die e => Sys2Proof.Machine.execGroupTimeout die e s
  | .trashandiReply f => Sys2Proof.Machine.execTrashandiReply f s
  | .outboundWindowAccess n => Sys2Proof.Machine.execOutboundWindowAccess n s
  | .groupCommitControl n => Sys2Proof.Machine.execGroupCommitControl n s
  | .groupAbortControl n => Sys2Proof.Machine.execGroupAbortControl n s
  | .reductionArm n => Sys2Proof.Machine.execReductionArm n s
  | .remoteSend n => Sys2Proof.Machine.execRemoteSend n s
  | .fenceRoleWrite src e v => Sys2Proof.Machine.execFenceRoleWrite src e v s
  | .portFenceWrite src v => Sys2Proof.Machine.execPortFenceWrite src v s
  | .alloc f => Sys2Proof.Machine.execAlloc f s
  | .pageWrite f => Sys2Proof.Machine.execPageWrite f s
  | .free f => Sys2Proof.Machine.execFree f s
  | .pageRead f => Sys2Proof.Machine.execPageRead f s
  | .attend f => Sys2Proof.Machine.execAttend f s
  | .attendDone p => Sys2Proof.Machine.execAttendDone p s
  | .forwardedPageRequest n => Sys2Proof.Machine.execForwardedPageRequest n s
  | .pageForwardReply n => Sys2Proof.Machine.execPageForwardReply n s
  | .pageSealTimeout die fr => Sys2Proof.Machine.execPageSealTimeout die fr s
  | .pageCommandPut n => Sys2Proof.Machine.execPageCommandPut n s
  | .pageCommandGet n => Sys2Proof.Machine.execPageCommandGet n s
  | .pageCommandAttend n => Sys2Proof.Machine.execPageCommandAttend n s
  | .pageCommandFree n => Sys2Proof.Machine.execPageCommandFree n s
  | .rotationSlot => Sys2Proof.Machine.execRotationSlot s
  | .rotationTestComplete inp fs => Sys2Proof.Machine.execRotationTestComplete inp fs s
  | .shadowAssign => Sys2Proof.Machine.execShadowAssign s
  | .shadowCopyDone p => Sys2Proof.Machine.execShadowCopyDone p s
  | .shadowHoldTimeout p => Sys2Proof.Machine.execShadowHoldTimeout p s
  | .shadowCompare p sig => Sys2Proof.Machine.execShadowCompare p sig s
  | .thirdRunComplete p sig => Sys2Proof.Machine.execThirdRunComplete p sig s
  | .errorReport => Sys2Proof.Machine.execErrorReport s
  | .errlogCoalesceExpiry key => Sys2Proof.Machine.execErrlogCoalesceExpiry key s
  | .marginMeasurement p ps => Sys2Proof.Machine.execMarginMeasurement p ps s
  | .eolProjection => Sys2Proof.Machine.execEolProjection s
  | .d1Reset src p clear => Sys2Proof.Machine.execD1Reset src p clear s
  | .d2Reset src p => Sys2Proof.Machine.execD2Reset src p s
  | .d3Reset src g clear => Sys2Proof.Machine.execD3Reset src g clear s
  | .d4Reset src port => Sys2Proof.Machine.execD4Reset src port s
  | .d5Reset src => Sys2Proof.Machine.execD5Reset src s
  | .d6Reset src => Sys2Proof.Machine.execD6Reset src s
  | .stepTimeout g => Sys2Proof.Machine.execStepTimeout g s
  | .tileRingTimeout p => Sys2Proof.Machine.execTileRingTimeout p s
  | .dumpCommand src v => Sys2Proof.Machine.execDumpCommand src v s
  | .dumpUnitAbsent unit => Sys2Proof.Machine.execDumpUnitAbsent unit s
  | .dumpUnprotect src n => Sys2Proof.Machine.execDumpUnprotect src n s
  | .jobLoad src g img => Sys2Proof.Machine.execJobLoad src g img s
  | .jobUnload src g => Sys2Proof.Machine.execJobUnload src g s
  | .jobIsolate src g => Sys2Proof.Machine.execJobIsolate src g s
  | .jobRecover src g => Sys2Proof.Machine.execJobRecover src g s
  | .reprotectionComplete g => Sys2Proof.Machine.execReprotectionComplete g s
  | .resultPost n => Sys2Proof.Machine.execResultPost n s
  | .rqConsumedWrite q v => Sys2Proof.Machine.execRqConsumedWrite q v s
  | .mmioAcknowledge q v => Sys2Proof.Machine.execMmioAcknowledge q v s
  | .doorbellWrite d v => Sys2Proof.Machine.execDoorbellWrite d v s
  | .doorbellTakeUp d => Sys2Proof.Machine.execDoorbellTakeUp d s
  | .bar2Write off bytes => Sys2Proof.Machine.execBar2Write off bytes s
  | .bar2Read off len => Sys2Proof.Machine.execBar2Read off len s
  | .powerEntryRetry p => Sys2Proof.Machine.execPowerEntryRetry p s
  | .t2ReturnTimer p => Sys2Proof.Machine.execT2ReturnTimer p s
  | .meadowPowerWake src g => Sys2Proof.Machine.execMeadowPowerWake src g s
  | .meadowPowerT2 src g => Sys2Proof.Machine.execMeadowPowerT2 src g s
  | .meadowPowerT3 src g => Sys2Proof.Machine.execMeadowPowerT3 src g s
  | .moduleStateRequestM0 src => Sys2Proof.Machine.execModuleStateRequestM0 src s
  | .moduleStateRequestM2 src => Sys2Proof.Machine.execModuleStateRequestM2 src s
  | .moduleStateRequestM3 src => Sys2Proof.Machine.execModuleStateRequestM3 src s
  | .moduleStateRequestM4 src => Sys2Proof.Machine.execModuleStateRequestM4 src s
  | .m1IdleEntry => Sys2Proof.Machine.execM1IdleEntry s
  | .governorInterval ms => Sys2Proof.Machine.execGovernorInterval ms s
  | .auxResetNDeassert st => Sys2Proof.Machine.execAuxResetNDeassert st s
  | .handoverCopyComplete m => Sys2Proof.Machine.execHandoverCopyComplete m s
  | .dataWord p inp => Sys2Proof.Machine.execDataWord p inp s

end Sys2Proof.Machine
end

