-- ==== Sys2Proof/Machine/Tick.lean ====
section
/-! DEFINITION. What the passing of a nanosecond does when no command waits (R10, R237, R365; log entry 3). -/

namespace Sys2Proof.Machine

/-- One nanosecond passes. A correction still to be slewed moves the time by one more, or holds it, once in 5,000 ns: 200 ppm
(R237). Fabric time never goes back. -/
def State.timePasses (s : State) : State :=
  if s.slew = 0 then { s with now := (s.now + 1) % 2 ^ 64 }
  else if s.slewPhase < 4999 then { s with now := (s.now + 1) % 2 ^ 64, slewPhase := s.slewPhase + 1 }
  else if 0 < s.slew then { s with now := (s.now + 2) % 2 ^ 64, slewPhase := 0, slew := s.slew - 1 }
  else { s with slewPhase := 0, slew := s.slew + 1 }

/-- What an idle step does: a nanosecond passes, and the power entries that it ends are made (R365). -/
def tick (s : State) : State := s.timePasses.entriesEnd

end Sys2Proof.Machine
end

