-- ==== Sys2Proof/Safety.lean ====
section
/-! DEFINITION. What the statements about the block say, in the spec's terms: when a task issues, what an instruction leaves unchanged,
how a dictionary write is accepted, how the fuses may change. -/

namespace Sys2Proof.Machine

/-! The sequencer (R53 to R61). -/

/-- Tile `p` issues for task `k` (R54, R55, R77): its run bit is set, its compute branch runs, it is not frozen, task `k` is its Running
task, the instruction word at its pc has no error (R75) and is not a reserved one (R59), and none of the task's registers has a parity
error (R75). -/
def State.issues (s : State) (p k : Nat) : Prop :=
  (s.tile p).runner = some k ∧ k < 16 ∧ (s.tile p).fetchPoison k = 0 ∧ reservedWord ((s.tile p).wordAt k) = false ∧
    ((s.tile p).task k).parity = []

/-- The instruction at the pc is not the last word of instruction memory (R61). -/
def State.pcInside (s : State) (p k : Nat) : Prop := ((s.tile p).task k).pc ≠ 0xFFFC#16

/-- A tile but for its sequencer. -/
def Tile.besides (t : Tile) : Tile := { t with seq := {} }

/-- A task but for its state, which the scheduler changes (R55). -/
def Task.work (x : Task) : Task := { x with state := .idle, stall := none }

/-- A sequencer's controls: everything but its tasks, the task last run and its performance counters. -/
def Seq.controls (q : Seq) : Seq := { q with cur := 0, tasks := [], issues := 0, stalls := 0, switches := 0, ecc := 0 }

/-- The module but for its tiles. -/
def State.besidesTiles (s : State) : State := { s with tiles := [] }

/-- Everything outside task `k` of tile `p` is unchanged: the rest of the module, every other tile, the rest of this tile, and
every other task but for its place in the schedule. -/
structure State.OnlyTask (s t : State) (p k : Nat) : Prop where
  module : t.besidesTiles = s.besidesTiles
  tiles : ∀ q, q ≠ p → t.tile q = s.tile q
  tile : (t.tile p).besides = (s.tile p).besides
  controls : (t.tile p).seq.controls = (s.tile p).seq.controls
  tasks : ∀ j, j ≠ k → ((t.tile p).task j).work = ((s.tile p).task j).work

/-- Task `k` of tile `p` has written `v` to its register `d` (a write to g0 is discarded) and gone on to `pc`; nothing else has
changed. -/
structure State.Wrote (s t : State) (p k : Nat) (d : Reg) (v : Word) (pc : BitVec 16) : Prop where
  written : t.reg p k d = if d = 0 then 0 else v
  others : ∀ r, r ≠ d → t.reg p k r = s.reg p k r
  pc : ((t.tile p).task k).pc = pc
  task : { ((t.tile p).task k).work with regs := [], pc := 0 } = { ((s.tile p).task k).work with regs := [], pc := 0 }
  frame : s.OnlyTask t p k

/-- The pc of the next word. -/
def State.nextPc (s : State) (p k : Nat) : BitVec 16 := ((s.tile p).task k).pc + 4

/-- Task `k` of tile `p` has written `v` to its register `d` (a write to g0 is discarded) and gone on to the next word; every other
register of it, every other task, every other tile and the sequencer's controls are as they were. What else the instruction did to the
tile and to the module is said beside it. -/
structure State.Retired (s t : State) (p k : Nat) (d : Reg) (v : Word) : Prop where
  written : t.reg p k d = if d = 0 then 0 else v
  others : ∀ r, r ≠ d → t.reg p k r = s.reg p k r
  pc : ((t.tile p).task k).pc = s.nextPc p k
  tasks : ∀ j, j ≠ k → ((t.tile p).task j).work = ((s.tile p).task j).work
  tiles : ∀ q, q ≠ p → t.tile q = s.tile q
  controls : (t.tile p).seq.controls = (s.tile p).seq.controls

/-- Task `k` but for its registers, its pc and its place in the schedule is unchanged. -/
def State.sameTask (s t : State) (p k : Nat) : Prop :=
  { ((t.tile p).task k).work with regs := [], pc := 0 } = { ((s.tile p).task k).work with regs := [], pc := 0 }

/-- Task `k` of tile `p` has faulted (R75): it is Faulted, its fault record holds the code, its pc, the instruction word and the detail
word, under policy 0 the run bit is clear, its error report has gone to the steward, of a fault that is a silent-error detection that report
too, and the task's registers and pc are as they were. The
rest of the tile is as it was, but for its power record. -/
structure State.Faulted (s t : State) (p k code word : Nat) (detail : Word) : Prop where
  state : ((t.tile p).task k).state = .faulted
  faultCode : ((t.tile p).task k).faultCode = code
  faultPc : ((t.tile p).task k).faultPc = ((s.tile p).task k).pc
  faultInstr : ((t.tile p).task k).faultInstr = BitVec.ofNat 32 word
  faultDetail : ((t.tile p).task k).faultDetail = detail
  run : (t.tile p).seq.run = ((s.tile p).seq.run && (s.tile p).seq.policy)
  regs : ((t.tile p).task k).regs = ((s.tile p).task k).regs
  pc : ((t.tile p).task k).pc = ((s.tile p).task k).pc
  tasks : ∀ j, j ≠ k → ((t.tile p).task j).work = ((s.tile p).task j).work
  tiles : ∀ q, q ≠ p → t.tile q = s.tile q
  tile : { (t.tile p).besides with power := {} } = { (s.tile p).besides with power := {} }
  report : s.boot.steward ≠ .restarting → ∃ rs, t.errs.queue = s.errs.queue ++ rs ∧
    rs.map (fun r => (r.kind, r.phys, r.task)) =
      (0x0200, p, k) :: (if detectionKind code = 0 then [] else [(detectionKind code, p, k)])

/-- Task `k` of tile `p` has stalled for a reason (R57): its registers, its pc, the rest of its tile but for the power state, every other
tile, every packet and the dictionary are as they were. -/
structure State.Stalled (s t : State) (p k : Nat) (why : Stall) : Prop where
  state : ((t.tile p).task k).state = .stalled
  reason : ((t.tile p).task k).stall = some why
  task : { ((t.tile p).task k).work with stall := none } = { ((s.tile p).task k).work with stall := none }
  tasks : ∀ j, j ≠ k → ((t.tile p).task j).work = ((s.tile p).task j).work
  tile : { (t.tile p).besides with power := {} } = { (s.tile p).besides with power := {} }
  tiles : ∀ q, q ≠ p → t.tile q = s.tile q
  net : t.net = s.net
  dict : t.dict = s.dict

/-- Task `k` of tile `p` has begun an action and stalled until its completion (R57): its registers, its pc, every other task and every
other tile are as they were. What the action did to the tile and the module is said beside it. -/
structure State.Begun (s t : State) (p k : Nat) (why : Stall) : Prop where
  state : ((t.tile p).task k).state = .stalled
  reason : ((t.tile p).task k).stall = some why
  task : { ((t.tile p).task k).work with stall := none } = { ((s.tile p).task k).work with stall := none }
  tasks : ∀ j, j ≠ k → ((t.tile p).task j).work = ((s.tile p).task j).work
  tiles : ∀ q, q ≠ p → t.tile q = s.tile q

/-- What events `e` that reach the tasks of tile `p` do to task `j` (R71): they join its pending events unless it is Idle; a task that waits
for one of them, or whatever it waits for on event 13, gets the events in its register, loses the latched ones it gets, and goes on at the
next word with its watchdog period restarted. (A WAIT in the last word of instruction memory faults instead, R61.) -/
def State.wokenBy (s t : State) (p e j : Nat) : Prop :=
  let x := (s.tile p).task j
  let y := (t.tile p).task j
  let pend := x.pend ||| e
  let r := ((pend &&& 0x3F00) ||| (s.tile p).wellLevels) &&& (x.waitMask.toNat ||| 0x2000)
  (x.state = .idle → y.work = x.work) ∧
  (x.state ≠ .idle → x.state ≠ .waiting → y.work = { x.work with pend := pend }) ∧
  (x.state = .waiting → x.pc ≠ 0xFFFC#16 → r = 0 → y.work = { x.work with pend := pend }) ∧
  (x.state = .waiting → x.pc ≠ 0xFFFC#16 → r ≠ 0 → (y.state = .ready ∨ y.state = .running) ∧
    y.work = { (x.setReg x.waitD (BitVec.ofNat 64 r)).work with pend := pend - (pend &&& r), wdSince := s.now, pc := x.pc + 4 })

/-- A tile but for its sequencer and its power state, which scheduling changes. -/
def Tile.beside (t : Tile) : Tile := { t.besides with power := {} }

/-- The module but for its tiles and the time since which they are idle, which scheduling changes (R371). -/
def State.besideTiles (s : State) : State := { s.besidesTiles with power := { s.power with idleSince := 0 } }

/-! Loads and stores (R60, R62, R76). -/

/-- An address names the local offset `off` of tile `p` in one of the two accepted forms (R62). -/
def State.names (s : State) (p : Nat) (addr : Word) (off : Nat) : Prop :=
  off < 2 ^ 23 ∧ (addr.toNat = 0xF * 2 ^ 60 + off ∨
    ∃ l, (s.tile p).logical = some l ∧ l < 4096 ∧ addr.toNat = l * 2 ^ 36 + off)

/-- The `n` bytes of a tile's cistern from an offset, as a number (R9). -/
def State.cisternNat (s : State) (p off n : Nat) : Nat := leNat ((List.range n).map fun i => (s.tile p).cistern.read (off + i))

/-- An access of the cistern meets no strict-mode fault, no Void range, no poisoned word (R103, R110, R114). -/
def State.cisternClean (s : State) (p off n : Nat) : Prop :=
  off + n ≤ cisternBytes s.variant ∧ s.strictFault (s.tile p) off n = false ∧ (s.tile p).poison off n = 0

/-! Unit operations (R80 to R99). -/

/-- A unit takes the message `m` of well `w` next (R80): it works, holds no waiting operation and no completion, and that well's is the
next message in rotation. -/
structure State.TakesNext (s : State) (p : Nat) (tensor : Bool) (w : Nat) (m : WellMsg) (rest : List WellMsg) : Prop where
  works : (s.tile p).works = true
  waiting : ((s.tile p).unit tensor).waiting = none
  held : ((s.tile p).unit tensor).held = none
  well : (s.tile p).unitWell tensor = some w
  msgs : ((s.tile p).well w).msgs = m :: rest

/-- The chunks of work that an operation has still to do, computed on the operands as they stand (R90, R96): output blocks or rows. -/
def State.opChunks (s : State) (p : Nat) (tensor : Bool) (o : UnitOp) : List Chunk :=
  (if tensor then o.blocks.map fun b => o.tensorChunk p b s else (List.range o.m).map fun i => o.rowChunk p i s).drop o.next

/-- The first of them that an operation does before one whose reads or writes wait (R82). -/
def State.doneChunks (s : State) (p : Nat) (tensor : Bool) (o : UnitOp) : List Chunk :=
  (s.opChunks p tensor o).takeWhile fun c => !s.chunkStalls p c

/-- No word is on its way over a tile between the two of a link (R136). -/
def State.relaysIdle (s : State) : Prop := ∀ q, ∀ r ∈ (s.tile q).relays, r.words = []

/-- An operation that its unit accepts and runs as it is taken (R81, R82, R87): the unit holds no other, none of its reads and writes meets a
range that is Filling or Draining, it uses no stream port, the stream plane has nothing to move, the tile has no shadow assignment and its meadow declares no region. -/
structure State.RunsAtOnce (s : State) (p : Nat) (tensor : Bool) (o : UnitOp) : Prop where
  accepted : o.refusal s p tensor = 0
  alone : ((s.tile p).unit tensor).exec = none
  streams : o.streams = false
  stalls : ∀ c ∈ s.opChunks p tensor o, s.chunkStalls p c = false
  shadow : (s.tile p).shadow.assigned = none
  regions : ∀ g, (s.tile p).meadow = some g → s.regions g = []
  slack : (s.tile p).stream.slackQ = []
  sinks : (s.tile p).stream.sinkQ = []
  pipes : (s.tile p).stream.pipeOut = []
  relays : s.relaysIdle
  other : ∀ x, ((s.tile p).unit (!tensor)).exec = some x → x.streams = false ∧ x.out = []

/-- Reads and writes of an operation meet no Void range, no uncorrected error and no strict-mode fault (R87), no residue mismatch is found. -/
def State.chunkClean (s : State) (p : Nat) (c : Chunk) : Prop :=
  (∀ e ∈ c.reads, s.readAbort p e = 0 ∧ (s.tile p).poison e.1 e.2 = 0) ∧
  (∀ w ∈ c.writes, s.strictFault (s.tile p) w.1 w.2.length = false) ∧ ∀ d ∈ c.parts, d.mismatches = []

/-- What row `i` of a vector operation reads, with the whole of a per-row B (R96). -/
def UnitOp.rowNeeds (o : UnitOp) (i : Nat) : List (Nat × Nat) :=
  o.rowReads i ++ (if bPerRow o.op && !bit o.bAddr 23 then [(o.bAddr, o.bRow)] else [])

/-- A write touches none of some extents. -/
def apartFrom (w : Nat × Bytes) (es : List (Nat × Nat)) : Prop := ∀ e ∈ es, w.1 + w.2.length ≤ e.1 ∨ e.1 + e.2 ≤ w.1

/-- A tile but for what a unit's operation changes in it. -/
def Tile.besidesUnit (t : Tile) : Tile := { t with cistern := [], ecc := {}, dirty := [], wells := [], tensor := {}, vector := {} }

/-- A unit of tile `p` has taken the first message of well `w` and holds, in its executing place, the operation finished as `o'`; the bytes
`ws` are in the cistern. Nothing else has changed, but for the ECC and the dirty granules of what was written. -/
structure State.Computed (s t : State) (p : Nat) (tensor : Bool) (w : Nat) (rest : List WellMsg) (o' : UnitOp) (ws : List (Nat × Bytes)) : Prop where
  cistern : (t.tile p).cistern = ws.foldl (fun m x => m.writeBytes x.1 x.2) (s.tile p).cistern
  unit : (t.tile p).unit tensor = { (s.tile p).unit tensor with exec := some o', lastWell := w }
  other : (t.tile p).unit (!tensor) = (s.tile p).unit (!tensor)
  well : (t.tile p).well w = { (s.tile p).well w with msgs := rest, lastTaken := s.now }
  wells : ∀ v, v ≠ w → (t.tile p).well v = (s.tile p).well v
  tile : (t.tile p).besidesUnit = (s.tile p).besidesUnit
  tiles : ∀ q, q ≠ p → t.tile q = s.tile q
  module : t.besidesTiles = s.besidesTiles

/-- An operation that has run to its end with what it has counted and the blocks or rows it has written (R93). -/
def UnitOp.finished (o : UnitOp) (now : Nat) (stats : Stats) (blocks : Nat) : UnitOp :=
  { o with
    phase := .finished, outcome := outcomeOf stats, status := statusRecord (outcomeOf stats) 0 blocks o.tag stats, finishedAt := now
    next := 0, stats := {}, doneBlocks := 0, rows := 0, cbuf := [] }

/-- An accepted operation of tile `p` that uses no stream port and runs over clean operands that its results do not touch, in a tile whose meadow
declares no region. -/
structure State.CleanOp (s : State) (p : Nat) (tensor : Bool) (o : UnitOp) : Prop where
  accepted : o.refusal s p tensor = 0
  streams : o.streams = false
  regions : ∀ g, (s.tile p).meadow = some g → s.regions g = []
  clean : ∀ c ∈ s.opChunks p tensor o, s.chunkClean p c
  apart : ∀ c ∈ s.opChunks p tensor o, ∀ w ∈ c.writes, apartFrom w (if tensor then o.readExtents else (List.range o.m).flatMap o.rowNeeds)

/-- The stream plane of tile `p` has nothing to move, and the operations its units execute send nothing. -/
structure State.PlaneIdle (s : State) (p : Nat) : Prop where
  slack : (s.tile p).stream.slackQ = []
  sinks : (s.tile p).stream.sinkQ = []
  pipes : (s.tile p).stream.pipeOut = []
  relays : s.relaysIdle
  units : ∀ b x, ((s.tile p).unit b).exec = some x ∨ ((s.tile p).unit b).waiting = some x → x.streams = false ∧ x.out = []

/-- An operation as it is finished from the chunks it still had to do. -/
def UnitOp.ran (o : UnitOp) (now : Nat) (cs : List Chunk) : UnitOp :=
  o.finished now (cs.foldl (fun st c => st.plus c.stats) o.stats) (cs.foldl (fun n c => n + c.blocks) o.doneBlocks)

/-- An operation that has stalled after some chunks (R82), of whose stream result `rows` rows would be complete. -/
def UnitOp.paused (o : UnitOp) (cs : List Chunk) (rows : Nat) : UnitOp :=
  { o with
    phase := .stalled, next := o.next + cs.length, stats := cs.foldl (fun st c => st.plus c.stats) o.stats
    doneBlocks := cs.foldl (fun n c => n + c.blocks) o.doneBlocks, rows }

/-- The command is the taking, by the tensor unit or the vector unit of tile `p`, of operations of an opcode (R80, R86, R96). -/
def takesOp (c : Instr) (p : Phys) (tensor : Bool) (op : Nat) : Prop :=
  (tensor = true ∧ ((c = .matmul p ∧ op ≠ 2) ∨ (c = .lacvt p ∧ op = 2))) ∨
  (tensor = false ∧ ((c = .vadd p ∧ (op = 0x40 ∨ vectorOpcode op = false)) ∨ (c = .vsub p ∧ op = 0x41) ∨ (c = .vmul p ∧ op = 0x42) ∨
    (c = .vfma p ∧ op = 0x43) ∨ (c = .vmax p ∧ op = 0x44) ∨ (c = .vmin p ∧ op = 0x45) ∨ (c = .vscale p ∧ op = 0x46) ∨
    (c = .vadds p ∧ op = 0x47) ∨ (c = .vabs p ∧ op = 0x48) ∨ (c = .vneg p ∧ op = 0x49) ∨ (c = .vexp2 p ∧ op = 0x50) ∨
    (c = .vexp p ∧ op = 0x51) ∨ (c = .vlog2 p ∧ op = 0x52) ∨ (c = .vlog p ∧ op = 0x53) ∨ (c = .vrcp p ∧ op = 0x54) ∨
    (c = .vrsqrt p ∧ op = 0x55) ∨ (c = .rsum p ∧ op = 0x58) ∨ (c = .rmax p ∧ op = 0x59) ∨ (c = .vexpsub p ∧ op = 0x5A) ∨
    (c = .vmulrow p ∧ op = 0x5B) ∨ (c = .cvt p ∧ op = 0x60) ∨ (c = .vdot p ∧ op = 0x61)))

/-- One error report with some property has gone to the steward, unless the steward is restarting (R324, R326). -/
def State.Reported (s t : State) (f : Report → Prop) : Prop :=
  s.boot.steward ≠ .restarting → ∃ r, t.errs.queue = s.errs.queue ++ [r] ∧ f r

/-- What a command leaves besides what its clause says: every other tile, every task that does not wait but for its place in the schedule,
and the rest of the tile, which `blank` blanks, but for its power record. -/
def storeFrame (s t : State) (p : Nat) (blank : Tile → Tile) : Prop :=
  (∀ q, q ≠ p → t.tile q = s.tile q) ∧
  (∀ j, ((s.tile p).task j).state ≠ .waiting → ((t.tile p).task j).work = ((s.tile p).task j).work) ∧
  (blank (t.tile p).beside = blank (s.tile p).beside)

/-! Streams (R132 to R160). -/

/-- The command passes on a word of its kind from an input of tile `p` (R140 to R143). -/
def passesOn (c : Instr) (p : Phys) (i : StreamInput) (w : StreamWord) : Prop :=
  (c = .endRow p i ∧ w.isToken 1 = true) ∨ (c = .endBlock p i ∧ w.isToken 2 = true) ∨ (c = .endStep p i ∧ w.isToken 3 = true) ∨
  (c = .select p i ∧ w.isToken 4 = true) ∨ (c = .drainToken p i ∧ w.isToken 5 = true) ∨ (c = .foldToken p i ∧ w.isToken 6 = true) ∨
  (c = .barrierToken p i ∧ w.isToken 7 = true) ∨ (c = .userToken p i ∧ w.isUser = true) ∨ (c = .endWord p i ∧ w.isEnd = true) ∨
  (c = .dataWord p i ∧ w.isData = true)

/-- An input of tile `p` holds the word `w` at its head and feeds one entry of one lane, which has not taken it and has not stalled, and no
standpipe's tail; the tile is not frozen, has nothing else to move in its stream plane, and no counter that counts the word is at its end; the
tile from which the input's words come has none waiting. -/
structure State.WordAt (s : State) (p : Nat) (i : StreamInput) (w : StreamWord) (rest : List StreamWord) (e k : Nat) : Prop where
  keys : (s.tile p).inputKeys i = [inKey i.cls i.idx]
  queue : (s.tile p).inQueue (inKey i.cls i.idx) = w :: rest
  fed : (s.tile p).fed (inKey i.cls i.idx) = [(e, k)]
  lane : entryGang ((s.tile p).entry e) = 1
  tail : (s.tile p).pipeTail (inKey i.cls i.idx) = none
  stall : Tbl.get 0 (s.tile p).stream.stallSince e = 0
  taken : ∀ x ∈ (s.tile p).stream.taken, x / 128 ≠ inKey i.cls i.idx
  held : (s.tile p).tapHeld (inKey i.cls i.idx) = false
  counters : ∀ n ∈ (s.tile p).tapped (inKey i.cls i.idx) w, ((s.tile p).counter n).reached = false ∧ ((s.tile p).counter n).stopped = false
  idle : s.PlaneIdle p
  awake : (s.tile p).frozen = false
  upstream : ∀ q, s.upstream p i.cls i.idx = some q → (s.tile q).stream.slackQ = [] ∧ (s.tile q).stream.pipeOut = []

/-- The stream plane of tile `p` has nothing to move by itself: no slack queue, no standpipe's head and no operand port holds a word, no word is on
its way between two tiles, and the operations its units execute use no stream; the tile is not frozen. -/
structure State.PlaneStill (s : State) (p : Nat) : Prop where
  slack : (s.tile p).stream.slackQ = []
  ports : ∀ key < 32, (s.tile p).sinkQueue key = []
  pipes : (s.tile p).stream.pipeOut = []
  relays : s.relaysIdle
  units : ∀ b x, ((s.tile p).unit b).exec = some x → x.streams = false ∧ x.out = []
  awake : (s.tile p).frozen = false

/-! Fuses (R269, R299, R383). -/

/-- The fused values fit their fuses: the variant is one of R1's three, the security version at most 64, a die's repair budget at most 2,048. -/
def State.FusesFit (s : State) : Prop := s.fused.variant ≤ 2 ∧ s.fused.security ≤ 64 ∧ ∀ d, Tbl.get 2048 s.fused.budget d ≤ 2048

/-! Supplies and resets (R333, R388 to R393). -/

/-- The module's units have lost their state and no 12 V load is on (R333, R371, R389): no tile, router, packet, port die unit or job is left, the PCIe link is
down and MAIN_PG deasserted. -/
structure State.Dark (t : State) : Prop where
  loads : t.pins.loadsOn = false
  mainPg : t.pins.mainPg = false
  link : t.host.linkUp = false
  tiles : t.tiles = []
  routers : t.routers = []
  net : t.net = []
  dies : t.dies = []
  jobs : t.jobs = []

/-- What a command leaves that neither the supplies nor a boot touch: the commands that wait, the time, the fuses, the slots' images and the staged package, the
defect list, the dumps and the bytes of host memory. -/
def State.lasting (s : State) : List Instr × Nat × Fused × Tbl FwSlot × Mem × List Defect × Tbl (Option Dump) × Tbl (Option Byte) :=
  (s.pending, s.now, s.fused, s.fw.slots, s.fw.staged, s.defects.list, s.dumps, s.host.mem)

/-! Dictionary writes (R254, R263 to R267). -/

/-- A source's write of an object is served (R254, R264 to R267, R314): the steward runs, the PCIe function has its link, a session is open, and the source may
write the object. -/
structure State.Writes (s : State) (src : Source) (key : Nat) : Prop where
  running : s.boot.steward = .running
  link : srcPcie src = true → s.host.linkUp = true
  opened : ∀ n, src = .session n → (s.sess n).opened = true
  may : ∃ o, objInfo key = some o ∧ mayWrite src o = true

/-- The module when a source's message is served: a session's last message is this one (R267). -/
def State.asked (s : State) (src : Source) : State :=
  match src with
  | .session n => s.modSess n fun x => { x with lastMsg := s.now }
  | _ => s

/-- The response, of status 0, to a write of one element (R263). -/
def answerTo (key e : Nat) : DictResp :=
  { status := 0, req := { op := 2, index := key / 256, sub := key % 256, first := e, count := 1, length := 0, tag := 0, reserved := 0, data := [] } }

/-- The command writes element `e` of an object for a source, is accepted, and leaves a module of which `f` holds, with the source's answer. -/
def State.served (s : State) (c : Instr) (src : Source) (key e : Nat) (f : State → Prop) : Prop :=
  ∃ x, exec c s = .next (x.respond src (answerTo key e)) ∧ f x

/-- The module `x` is `y` but for the values of some objects that are no ARRAYs. -/
structure State.Shows (x y : State) (ks : List (Nat × Nat)) : Prop where
  rest : { x with dict := { x.dict with vals := [] } } = { y with dict := { y.dict with vals := [] } }
  shown : ∀ k ∈ ks, x.ob k.1 = k.2
  others : ∀ k e, e < 65536 → (e ≠ 0 ∨ k ∉ ks.map (·.1)) → x.obe k e = y.obe k e

/-- The module with one error report more on its way to the steward (R324). -/
def State.sentReport (s : State) (r : Report) : State := { s with free := s.free + 1, errs := { s.errs with queue := s.errs.queue ++ [r] } }

/-! Bring-up (R288 to R297). -/

/-- `bringup_status` shows stage `n` in a state with a reason, begun at `since` (R291). -/
def State.AtStage (s : State) (n state reason since : Nat) : Prop :=
  s.stageNow = (n, state) ∧ s.stageReason = reason ∧ bits (s.ob Ob.bringup_status) 127 64 = since % 2 ^ 64

/-- A stage command is in order (R289): the stage before it is done, or the stage itself has failed with a reason that may be tried again; no hold stands. -/
def State.mayStart (s : State) (n : Nat) : Prop :=
  s.boot.held = false ∧ ((s.ob Ob.bringup_stage = n - 1 ∧ s.stageNow = (n - 1, 1)) ∨
    (s.ob Ob.bringup_stage = n ∧ s.stageNow = (n, 2) ∧ s.stageReason ≠ 6 ∧ s.stageReason ≠ 7))

/-- The sub-ports of port `p` stand in electrical idle where the port is fenced, and train where they are `enabled`; else they are idle (R205, R236). -/
def State.portAs (s : State) (p : Nat) (enabled : Nat → Prop) : Prop :=
  ∀ i < 8, (bit (s.ob Ob.port_fence) p = true → s.obe Ob.port_state (p * 8 + i) = 6) ∧
    (bit (s.ob Ob.port_fence) p = false → enabled i → s.obe Ob.port_state (p * 8 + i) = 1) ∧
    (bit (s.ob Ob.port_fence) p = false → ¬ enabled i → s.obe Ob.port_state (p * 8 + i) = 0)

/-! Resets and power (R79, R333, R334, R363, R370). -/

/-- `reset_status` shows a request of a domain that falls on a target (R334), begun now. -/
def State.resetStands (s : State) (dom target now : Nat) : Prop :=
  bits (s.ob Ob.reset_status) 2 0 = dom ∧ bit (s.ob Ob.reset_status) 3 = true ∧ bits (s.ob Ob.reset_status) 20 8 = target ∧
    bits (s.ob Ob.reset_status) 127 64 = now % 2 ^ 64

/-- A tile's sequencer and engines are as a D1 leaves them (R79, R333): every task Idle with zero registers, nothing in its pumps, units, ranges, troughs
and counters. -/
structure Tile.ResetState (t : Tile) : Prop where
  seq : t.seq = {}
  pumps : t.pumps = []
  ranges : t.ranges = []
  troughs : t.troughs = []
  counters : t.counters = []
  tensor : t.tensor = {}
  vector : t.vector = {}

/-- No migration is under way. -/
def State.noMigration (s : State) : Prop := ∀ y ∈ s.migs, y.2.step = 0

/-- A C5 notice of an operation for a meadow stands at port die W, to be copied to its tiles (R154, R165). -/
def State.noticeSent (s : State) (n g op : Nat) : Prop :=
  ∃ k, s.pkt n = some k ∧ k.h.cls = 5 ∧ k.h.op = op ∧ k.h.meadow = g ∧ k.fan = some []

/-! Transactions (R264, R271 to R277). -/

/-- No commit but the current one is queued, and none of the steward's waits for a table. -/
def State.noCommitWaits (s : State) : Prop := s.txn.queue = [] ∧ s.txn.own = []

/-- A transaction has ended: it holds nothing, and its status shows the state and the reason (R277). -/
def State.txnEnded (t : State) (n state reason : Nat) : Prop :=
  t.txnOf n = {} ∧ bits (t.obe Ob.txn_status n) 2 0 = state ∧ bits (t.obe Ob.txn_status n) 15 8 = reason

/-- A commit has been refused with a reason (R275): a source's transaction is over, a bring-up stage has failed. -/
def State.commitRefused (t : State) (c : Commit) (reason : Nat) : Prop :=
  t.txn.current = none ∧ (∀ n < 5, c.why = .source n → t.txnEnded n 5 reason) ∧ (∀ k, c.why = .stage k → t.stageNow.2 = 2 ∧ t.stageReason = 8)

/-! Migrations (R284 to R287). -/

/-- Migration `m` stands as `y`; every other migration is as it was. -/
def State.migrationIs (s t : State) (m : Nat) (y : Migration) : Prop := t.mig m = y ∧ ∀ i, i ≠ m → t.mig i = s.mig i

/-- Field `i` of a RECORD of U64 counts has gone up by one. -/
def State.countedRec (s t : State) (key i : Nat) : Prop :=
  bits (t.ob key) (64 * i + 63) (64 * i) = (bits (s.ob key) (64 * i + 63) (64 * i) + 1) % 2 ^ 64

/-- Migration `m` has been abandoned (R285, R287): the old tile goes on, the spare is blank again, a rotation's visit has ended, and field `i` of the counts
has gone up. -/
structure State.Abandoned (s t : State) (m i : Nat) : Prop where
  migration : s.migrationIs t m {}
  thawed : (t.tile (s.mig m).oldPhys).frozen = false ∧ (t.tile (s.mig m).oldPhys).trackDirty = false ∧ (t.tile (s.mig m).oldPhys).dirty = []
  spare : (t.tile (s.mig m).spare).cistern = [] ∧ (t.tile (s.mig m).spare).imem = [] ∧ (t.tile (s.mig m).spare).seq = {} ∧ (t.tile (s.mig m).spare).logical = none
  rotation : ∀ r, (s.mig m).rotation = some r → t.slot r = {}
  counted : s.countedRec t Ob.migrate_counts i

/-! Dictionary messages and reads (R254, R260, R263 to R267). -/

/-- A source's messages are served (R264 to R267): the steward runs, the PCIe function has its link, a session is open. -/
structure State.Serves (s : State) (src : Source) : Prop where
  running : s.boot.steward = .running
  message : src ≠ .bar0
  link : srcPcie src = true → s.host.linkUp = true
  opened : ∀ n, src = .session n → (s.sess n).opened = true

/-- A message that asks for the elements of an object, and brings nothing (R263): the elements exist, what they hold fits a response, and the object lies where the source may
read. -/
def asksFor (r : DictReq) (src : Source) (op : Nat) (o : ObjInfo) : Prop :=
  reqFits r = true ∧ r.op = op ∧ r.reserved = 0 ∧ r.length = 0 ∧ r.data = [] ∧ r.index < 0xF000 ∧ objInfo (r.index * 256 + r.sub) = some o ∧
    (o.count = 0 → r.first = 0 ∧ r.count = 1) ∧ r.count ≠ 0 ∧ r.first + r.count ≤ o.elems ∧ r.count * o.size ≤ 4032 ∧ (src = .i3c → i3cIndex r.index = true)

/-- The response, of status 0, to a message, with its data (R263). -/
def answerWith (r : DictReq) (data : Bytes) : DictResp := { status := 0, req := { r with length := data.length, data } }

/-- The objects whose write does more than store a value: each has a row or a rule of its own. -/
def actedKeys : List Nat :=
  [Ob.txn_command, Ob.bringup_command, Ob.map_adopt, Ob.fuse_burn, Ob.commission, Ob.settings_erase, Ob.alert_cause, Ob.fm_root_hash, Ob.reset_request, Ob.dump_command,
    Ob.dump_unprotect, Ob.job_command, Ob.upd_command, Ob.upd_chunk, Ob.rec_length, Ob.rec_chunk, Ob.rec_command, Ob.module_state_request, Ob.meadow_power_cmd,
    Ob.fence_role, Ob.port_fence]

/-- Element `e` may be written with `v` by a source (R254, R257, R259): it exists, `v` lies in the object's range and width, and a BAR0 slot holds a scalar object. -/
def ObjInfo.takes (o : ObjInfo) (src : Source) (e v : Nat) : Prop :=
  o.lo ≤ v ∧ v ≤ o.hi ∧ v < 2 ^ (8 * o.size) ∧ (o.ty % 128 = 1 → v ≤ 1) ∧ e < o.elems ∧ (o.count = 0 → e = 0) ∧ (src = .bar0 → e = 0 ∧ o.scalar = true)

/-- A peer's packet has its reply on record and on its way (R212, R217): the operation and sequence it answers, the status and the payload. -/
def State.answered (t : State) (i : Nat) (f : Frame) (status : Nat) (payload : Bytes) : Prop :=
  ∃ o ∈ (t.peer f.die i).outcomes, o.space = f.space.val ∧ o.seq = f.seq ∧
    ∃ r, o.reply = some r ∧ r.op = 0x80 + f.op % 128 ∧ r.status = status ∧ r.answered = f.seq ∧ r.payload = payload

/-! Continuous test (R315 to R332). -/

/-- The time that a tile has lost to holds and other background work in the second of fabric time has gone up by `n` ns; a new second starts at 0 (R332). -/
def State.lostTime (s t : State) (p n : Nat) : Prop :=
  (t.tile p).shadow.holdWindow = s.now / 1000000000 ∧
    (t.tile p).shadow.holdTotal = (if (s.tile p).shadow.holdWindow = s.now / 1000000000 then (s.tile p).shadow.holdTotal else 0) + n

/-- No operation of the tile is shadowed any more; its assignment stands (R321). -/
def Tile.ShadowOver (x y : Tile) : Prop :=
  y.shadow.assigned = x.shadow.assigned ∧ y.shadow.outstanding = none ∧ y.shadow.sig = none ∧ y.shadow.sig2 = none ∧
    (∀ u, ∀ o ∈ (y.unit u).exec.toList ++ (y.unit u).waiting.toList, o.shadowed = false) ∧ { y with shadow := x.shadow, tensor := x.tensor, vector := x.vector } = x

/-- A report of a tile's signature mismatch is on its way (R323, R325). -/
def State.mismatchTold (t : State) (p : Nat) (x : Shadow) : Prop :=
  ∃ r ∈ t.errs.queue, r.kind = 0x0101 ∧ r.phys = p ∧ r.opValid = true ∧ r.tag = x.tag ∧ r.detail2 = (x.sig.getD 0).toNat

/-! The packet plane (R124 to R129, R162 to R175). -/

/-- The packets of the plane are kept in their canonical form. -/
def State.netWf (s : State) : Prop := Tbl.wf none s.net = true

/-- A packet stands at the head of its channel (R162). -/
def State.atHead (s : State) (r n : Nat) : Prop := ∃ y ∈ s.routerHeads r, y.1 = n

/-- No other head goes before a packet at its output (R129, R168). -/
def State.turn (s : State) (r n : Nat) (k : Packet) : Prop :=
  ∀ y ∈ s.routerHeads r, y.1 ≠ n → s.hop r y.2 ≠ .wait → s.wants r y.2 = s.wants r k → s.before (s.router r).due (s.wants r k) y (n, k) = false

/-- Packet `n` stands as `k` at a place now; how long it has been blocked there is aside. -/
def State.standsAt (t : State) (n : Nat) (k : Packet) (loc : Loc) : Prop :=
  ∃ z, t.pkt n = some z ∧ z.loc = loc ∧ z.h = k.h ∧ z.data = k.data ∧ z.issuer = k.issuer ∧ z.want = k.want ∧ z.landing = k.landing

/-- A report has been sent to the steward, unless it restarts (R324, R326). -/
def State.told (s t : State) (f : Report → Prop) : Prop := s.boot.steward ≠ .restarting → ∃ r ∈ t.errs.queue, f r

/-- A request has its reply under way, with a status: of its flow, sequence and tag (R165). -/
def State.replied (t : State) (n : Nat) (k : Packet) (status : Nat) : Prop :=
  ∃ z, t.pkt n = some z ∧ z.h.cls = 2 ∧ z.h.op = replyOp k.h.op k.h.cls ∧ z.h.status = status ∧ z.h.seq = k.h.seq ∧ z.h.tag = k.h.tag ∧ z.h.flow = k.h.flow

/-- A tile's cistern holds the bytes at an offset, and elsewhere what it held. -/
def State.cisternGot (s t : State) (p off : Nat) (bs : Bytes) : Prop :=
  ∀ a, (t.tile p).cistern.read a = if off ≤ a ∧ a < off + bs.length then bs.getD (a - off) 0 else (s.tile p).cistern.read a

/-- A write into a tile's cistern makes no duplicate (R345). -/
def State.noDuplicates (s : State) (p off : Nat) (bs : Bytes) : Prop :=
  ∀ g l, (s.tile p).meadow = some g → (s.tile p).logical = some l → s.duplicates g l off bs = []

/-! Ports, peers and frames (R203 to R237). -/

/-- Field `i` of element `e` of a RECORD of U64 counts has gone up by one. -/
def State.countedAt (s t : State) (key e i : Nat) : Prop :=
  bits (t.obe key e) (64 * i + 63) (64 * i) = (bits (s.obe key e) (64 * i + 63) (64 * i) + 1) % 2 ^ 64

/-- A frame of another protocol has left a sub-port (R206). -/
def State.sentOther (s t : State) (sp : Nat) (bs : Bytes) : Prop :=
  (t.die (dieOfSub sp)).others = (s.die (dieOfSub sp)).others ++ [bs] ∧ s.countedAt t Ob.port_counts sp 1

/-- A frame has left a port die, with its bytes (R211). -/
def State.frameSent (s t : State) (d : Nat) (f : Frame → Prop) : Prop :=
  ∃ x, (t.die d).frames = (s.die d).frames ++ [x] ∧ (t.die d).wires.length = (s.die d).wires.length + 1 ∧ f x

/-- The states of every sub-port but one. -/
def State.otherPorts (s t : State) (sp : Nat) : Prop := ∀ i < 256, i ≠ sp → t.obe Ob.port_state i = s.obe Ob.port_state i

/-- A message of a peer is for the module (R209 to R213): the header is well formed, and the checks before its own meaning leave `s1`, from peer `i`. -/
def State.arrives (s : State) (f : Frame) (kind : Nat) (s1 : State) (i : Nat) : Prop := f.wf = true ∧ s.inbound f kind = .taken s1 i

/-- A request of a peer has passed the checks before its own (R209, R223, R335): `s1` is the state once it has been received from peer `i`, `g` the meadow that it is for. -/
def State.requests (s : State) (f : Frame) (s1 : State) (i g : Nat) : Prop :=
  s.arrives f 0 s1 i ∧ s.commissioned = true ∧ s1.dstMeadow f = some g ∧ (s.job g).resetUntil ≤ s.now ∧ f.payloadLen = f.payload.length ∧ f.payload.length ≤ 4096

/-- A port die has taken up a work with `left` packets to be answered, under the next key. -/
def State.undertakes (s t : State) (d left : Nat) (work : DieWork) : Prop :=
  (t.die d).nextJob = (s.die d).nextJob + 1 ∧ ∃ j, t.dieJob d (s.die d).nextJob = some j ∧ j.work = work ∧ j.left = left ∧ j.reason = 0

/-- Nothing but the conversation with peers has changed: tiles, packets, groups and works stand. -/
def State.onlyAnswered (s t : State) (d : Nat) : Prop :=
  t.tiles = s.tiles ∧ t.net = s.net ∧ (t.die d).jobs = (s.die d).jobs ∧ (t.die d).inGroups = (s.die d).inGroups

/-- A request has its reply under way, with a status and a detail (R222, R250). -/
def State.nacked (t : State) (n : Nat) (k : Packet) (status detail : Nat) : Prop :=
  ∃ z, t.pkt n = some z ∧ z.h.cls = 2 ∧ z.h.op = replyOp k.h.op k.h.cls ∧ z.h.status = status ∧ z.h.detail = detail ∧ z.h.seq = k.h.seq ∧ z.h.tag = k.h.tag

/-- A packet has been consumed and is answered later: it stands at its unit, which owes the reply. -/
def State.owed (t : State) (n : Nat) (k : Packet) : Prop := ∃ z, t.pkt n = some z ∧ z.loc = .owed ∧ z.h = k.h

/-- A data packet goes to a peer in a space: on the wire and kept until it is acknowledged, or behind those held (R213, R218). -/
def State.sentData (s t : State) (d peer sp : Nat) (f : Frame → Prop) : Prop :=
  let x := (s.peer d peer).space sp
  let y := (t.peer d peer).space sp
  ∃ z, f z ∧ z.kind = 0 ∧ ((y.held = x.held ++ [z] ∧ y.unacked = x.unacked) ∨ (x.held = [] ∧ y.held = [] ∧ ∃ u, y.unacked = x.unacked ++ [u] ∧ u.frame = z ∧ z.seq = x.txNext ∧ y.txNext = (x.txNext + 1) % 2 ^ 32))

/-- A port die keeps one more request, with the sequence that it takes (R216). -/
def State.keepsRequest (s t : State) (d : Nat) (r : OutReq) : Prop :=
  let x := (s.peer d r.peer).space r.space
  (t.die d).outReqs = (s.die d).outReqs ++ [{ r with seq := (x.txNext + x.held.length) % 2 ^ 32 }]

/-- A peer's request of sequence `seq` in space 0 has been answered: the outcome is kept (R217). -/
def State.toldPeer (t : State) (d i seq op status : Nat) (payload : Bytes) : Prop :=
  ∃ o ∈ (t.peer d i).outcomes, o.space = 0 ∧ o.seq = seq ∧ ∃ r, o.reply = some r ∧ r.op = 0x80 + op ∧ r.status = status ∧ r.payload = payload

/-- A frame has been allocated to a peer with its flags (R242, R243). -/
def State.allocates (s t : State) (d peer flags gen : Nat) (x : Nat × Nat) : Prop :=
  t.frame d (frameKey x.1 x.2) = { state := .allocated, gen, peer, evictable := bit flags 0, allocAt := s.now, lastUse := s.now }

/-- The packet that answers the other port die's page request (R244). -/
def State.toldDie (t : State) (n : Nat) (k : Packet) (reason handle : Nat) (payload : Bytes) : Prop :=
  ∃ z, t.pkt n = some z ∧ z.h.cls = 2 ∧ z.h.status = (if reason = 0 then 0 else 9) ∧ z.h.detail = reason ∧ z.h.arg0 = handle ∧ z.data = payload ∧ z.h.tag = k.h.tag

/-- What a request with a handle does at the die that holds the frame (R242, R244, R246): `did` says that the command answers a next state, `ans` that its client has been answered with a reason and a payload. -/
def State.PageTaken (s : State) (d g : Nat) (r : PageReq) (c : PageClient) (ans : State → Nat → Bytes → Prop) (did : (State → Prop) → Prop) : Prop :=
  let key := frameKey r.tile r.frame
  let fr := s.frame d key
  (fr.gen ≠ bits r.handle 47 24 ∨ fr.state = .free ∨ fr.freeing = true → did fun t => ans t 0x15 [] ∧ t.frame d key = fr) ∧
  (fr.gen = bits r.handle 47 24 → fr.state ≠ .free → fr.freeing = false →
    (r.isFree = true → did fun t => ans t 0 [] ∧ t.frame d key = if fr.pendingOps = 0 then fr.freed else { fr with freeing := true }) ∧
    (r.isWrite = true →
      (fr.state = .sealed ∨ fr.chunks.contains (r.chunk / 4096) = true → did fun t => ans t 0x17 [] ∧ t.frame d key = fr) ∧
      (fr.state ≠ .sealed → fr.chunks.contains (r.chunk / 4096) = false → did fun t =>
        s.undertakes t d 1 (.pageWrite c g r.tile r.frame (r.chunk / 4096) fr.gen) ∧ t.frame d key = { fr with chunks := fr.chunks ++ [r.chunk / 4096] })) ∧
    (r.op = 7 → fr.state ≠ .sealed → did fun t => ans t 0x16 [] ∧ t.frame d key = fr) ∧
    (r.isRead = true → fr.state = .sealed → did fun t =>
      s.undertakes t d 1 (.pageRead c g r.tile r.frame) ∧ t.frame d key = { fr with pendingOps := fr.pendingOps + 1, lastUse := s.now }) ∧
    (r.op = 7 → r.subop = 1 → fr.state = .sealed →
      let q : AttendQ := Tbl.get {} (s.die d).attends r.tile
      let a : AttendReq := { client := c, tile := r.tile, frame := r.frame, tokens := r.tokens, head := r.head, queries := r.queries, scale := r.scale, query := r.payload }
      let joins (y : AttendQ) : Prop := did fun t => Tbl.get {} (t.die d).attends r.tile = y ∧ t.frame d key = { fr with pendingOps := fr.pendingOps + 1, lastUse := s.now }
      (q.held.length < 2 → joins { q with held := q.held ++ [a] }) ∧
      (2 ≤ q.held.length → q.queued.length < 8 → joins { q with queued := q.queued ++ [a] }) ∧
      (2 ≤ q.held.length → 8 ≤ q.queued.length → did fun t => ans t 6 [] ∧ Tbl.get {} (t.die d).attends r.tile = q ∧ t.frame d key = fr)))

/-- A refusal of an entry into a power state (R366): the tile stays in T1, the refuser and the count show it. -/
def Tile.RefusedEntry (x y : Tile) (r : Nat) : Prop :=
  y.power.state = .t1 ∧ y.power.refused = true ∧ y.power.lastRefuser = r ∧ y.power.refusals = (x.power.refusals + 1) % 256 ∧ y.power.entering = none ∧ y.cistern = x.cistern

/-- The state in which the ROM checks a recovery image: no image is on trial (R386). -/
def State.untried (s : State) : State :=
  { s with fw := { s.fw with recA := { s.fw.recA with trial := false }, recB := { s.fw.recB with trial := false } } }

end Sys2Proof.Machine
end

