-- ==== Sys2Proof/Certificates/Slice0/Obligations.lean ====
section
/-! DEFINITION. The statements for the provers. -/

open Sys2Proof Sys2Proof.Machine

/-- Register arithmetic (R60): a task that issues one of these writes the result to g_d, goes on at the next word, and leaves every other
register, task, tile and everything else in the module as it was. -/
def Obligations.RegisterArithmeticResults : Prop :=
  ∀ (s : State) (p : Phys) (k : Nat) (d a b : Reg), s.issues p k → s.pcInside p k →
    ∀ c v, (c, v) ∈ (fun (x y : Word) => ([
      (.add p d a b, x + y),
      (.sub p d a b, x - y),
      (.and p d a b, x &&& y),
      (.or p d a b, x ||| y),
      (.xor p d a b, x ^^^ y),
      (.sll p d a b, x <<< (y.toNat % 64)),
      (.srl p d a b, x >>> (y.toNat % 64)),
      (.sra p d a b, x.sshiftRight (y.toNat % 64)),
      (.slt p d a b, if x.toInt < y.toInt then 1 else 0),
      (.sltu p d a b, if x.toNat < y.toNat then 1 else 0),
      (.mul p d a b, x * y),
      (.mulh p d a b, BitVec.ofInt 64 (x.toInt * y.toInt / 2 ^ 64)),
      (.mulhu p d a b, BitVec.ofNat 64 (x.toNat * y.toNat / 2 ^ 64))] : List (Instr × Word))) (s.reg p k a) (s.reg p k b) →
    ∃ t, exec c s = .next t ∧ s.Wrote t p k d v (s.nextPc p k)

/-- Division (R60, R61): the quotient of a division by zero is all ones and the remainder the dividend; an unsigned quotient and remainder
are those of the numbers; −2^63 by −1 gives −2^63 and 0. That every other signed quotient is rounded toward zero and its remainder has
the dividend's sign is the model's choice (log entry 16). The frame is that of register arithmetic. -/
def Obligations.DivisionResults : Prop :=
  ∀ (s : State) (p : Phys) (k : Nat) (d a b : Reg), s.issues p k → s.pcInside p k →
    ∀ c v, (c, v) ∈ (fun (x y : Word) => ([
      (.div p d a b, if y = 0 then BitVec.allOnes 64 else BitVec.ofInt 64 (x.toInt.tdiv y.toInt)),
      (.divu p d a b, if y = 0 then BitVec.allOnes 64 else BitVec.ofNat 64 (x.toNat / y.toNat)),
      (.rem p d a b, if y = 0 then x else BitVec.ofInt 64 (x.toInt.tmod y.toInt)),
      (.remu p d a b, if y = 0 then x else BitVec.ofNat 64 (x.toNat % y.toNat))] : List (Instr × Word))) (s.reg p k a) (s.reg p k b) →
    ∃ t, exec c s = .next t ∧ s.Wrote t p k d v (s.nextPc p k)

/-- Arithmetic with an immediate (R60): the immediate is sign-extended by ADDI, SLTI and SLTIU and zero-extended by ANDI, ORI and XORI;
SHI shifts by imm[5:0] in the kind imm[7:6]; LUI gives sext(imm21) × 2^16. The frame is that of register arithmetic. -/
def Obligations.ImmediateArithmeticResults : Prop :=
  ∀ (s : State) (p : Phys) (k : Nat) (d a : Reg) (imm : Imm16) (imm21 : Imm21), s.issues p k → s.pcInside p k →
    (∀ c v, (c, v) ∈ (fun (x : Word) => ([
      (.addi p d a imm, x + imm.signExtend 64),
      (.andi p d a imm, x &&& imm.zeroExtend 64),
      (.ori p d a imm, x ||| imm.zeroExtend 64),
      (.xori p d a imm, x ^^^ imm.zeroExtend 64),
      (.slti p d a imm, if x.toInt < imm.toInt then 1 else 0),
      (.sltiu p d a imm, if x.toNat < (imm.signExtend 64).toNat then 1 else 0),
      (.lui p d imm21, imm21.signExtend 64 * 65536)] : List (Instr × Word))) (s.reg p k a) →
      ∃ t, exec c s = .next t ∧ s.Wrote t p k d v (s.nextPc p k)) ∧
    (∀ n < 64, ∀ kind v, (kind, v) ∈ (fun (x : Word) => ([(0, x <<< n), (1, x >>> n), (2, x.sshiftRight n)] : List (Nat × Word))) (s.reg p k a) →
      imm = BitVec.ofNat 16 (kind * 64 + n) →
      ∃ t, exec (.shi p d a imm) s = .next t ∧ s.Wrote t p k d v (s.nextPc p k))

/-- Jumps and branches (R60, R61): a taken one goes to its target and writes its link; one not taken goes on at the next word; a taken one
whose target is not 4 B aligned faults with 0x02, and an aligned one at or beyond 0x1_0000 with 0x13, the detail word being the target. -/
def Obligations.JumpsAndBranches : Prop :=
  ∀ (s : State) (p : Phys) (k : Nat) (d a b : Reg) (imm : Imm16) (off : Imm21), s.issues p k →
    ∀ c taken r v target, (c, taken, r, v, target) ∈ (fun (x y pc : Word) => ([
      (.jal p d off, true, d, pc + 4, pc + off.signExtend 64 * 4),
      (.jalr p d a imm, true, d, pc + 4, x + imm.signExtend 64),
      (.beq p a b imm, x == y, 0, 0, pc + imm.signExtend 64 * 4),
      (.bne p a b imm, x != y, 0, 0, pc + imm.signExtend 64 * 4),
      (.blt p a b imm, decide (x.toInt < y.toInt), 0, 0, pc + imm.signExtend 64 * 4),
      (.bge p a b imm, decide (y.toInt ≤ x.toInt), 0, 0, pc + imm.signExtend 64 * 4),
      (.bltu p a b imm, decide (x.toNat < y.toNat), 0, 0, pc + imm.signExtend 64 * 4),
      (.bgeu p a b imm, decide (y.toNat ≤ x.toNat), 0, 0, pc + imm.signExtend 64 * 4)] :
        List (Instr × Bool × Reg × Word × Word))) (s.reg p k a) (s.reg p k b) (((s.tile p).task k).pc.zeroExtend 64) →
    (taken = true → target.toNat % 4 = 0 → target.toNat < 0x10000 →
      ∃ t, exec c s = .next t ∧ s.Wrote t p k r v (target.setWidth 16)) ∧
    (taken = false → s.pcInside p k → ∃ t, exec c s = .next t ∧ s.Wrote t p k 0 0 (s.nextPc p k)) ∧
    (taken = true → target.toNat % 4 ≠ 0 → ∃ t word, exec c s = .next t ∧ s.Faulted t p k 0x02 word target) ∧
    (taken = true → target.toNat % 4 = 0 → 0x10000 ≤ target.toNat →
      ∃ t word, exec c s = .next t ∧ s.Faulted t p k 0x13 word target)

/-- Loads (R60, R62, R76, R77, R110): an aligned load of a named local offset gives the bytes that stand there, little-endian, sign-extended
or zero-extended; a load that meets a Filling range stalls with reason 1; a misaligned one faults with 0x02, one of a Void range with 0x07,
one of a reserved offset with 0x06, one of a t_ object of other than 8 B with 0x02. (t_perf counts the load itself, so its words are left out.) The frame is that of register arithmetic. -/
def Obligations.LoadResults : Prop :=
  ∀ (s : State) (p : Phys) (k : Nat) (d a : Reg) (imm : Imm16) (addr : Word) (off : Nat), s.issues p k → s.pcInside p k →
    addr = s.reg p k a + imm.signExtend 64 → s.names p addr off →
    ∀ c n sgn, (c, n, sgn) ∈ ([
      (.lb p d a imm, 1, true), (.lh p d a imm, 2, true), (.lw p d a imm, 4, true), (.ld p d a imm, 8, true),
      (.lbu p d a imm, 1, false), (.lhu p d a imm, 2, false), (.lwu p d a imm, 4, false)] : List (Instr × Nat × Bool)) →
    let ext (v : Nat) : Word := if sgn then (BitVec.ofNat (8 * n) v).signExtend 64 else BitVec.ofNat 64 v
    let gives (v : Nat) : Prop := ∃ t, exec c s = .next t ∧ s.Wrote t p k d (ext v) (s.nextPc p k)
    let faults (code : Nat) : Prop := ∃ t word, exec c s = .next t ∧ s.Faulted t p k code word addr
    (off % n = 0 → s.cisternClean p off n → (s.tile p).anyRange off n .void = false → (s.tile p).anyRange off n .filling = false →
      gives (s.cisternNat p off n)) ∧
    (off % n = 0 → s.cisternClean p off n → (s.tile p).anyRange off n .void = false → (s.tile p).anyRange off n .filling = true →
      ∃ t, exec c s = .next t ∧ s.Stalled t p k (.load off n)) ∧
    (off % n = 0 → s.cisternClean p off n → (s.tile p).anyRange off n .void = true → faults 0x07) ∧
    (off % n = 0 → 0x700000 ≤ off → off < 0x710000 → s.loadPoison p off n = 0 →
      gives (leNat ((s.tile p).imem.readBytes (off - 0x700000) n))) ∧
    (off % n = 0 → 0x710000 ≤ off → off < 0x718000 → gives (leNat ((s.tile p).slots.readBytes (off - 0x710000) n))) ∧
    (off % n = 0 → 0x720000 ≤ off → off < 0x721000 →
      gives (leNat (((s.tile p).task ((off - 0x720000) / 256)).msgBuf.readBytes ((off - 0x720000) % 256) n))) ∧
    (off % n = 0 → 0x721000 ≤ off → off < 0x721200 →
      gives (((s.tile p).well ((off - 0x721000) / 64)).statusWord (off / 8 % 8) / 256 ^ (off % 8) % 256 ^ n)) ∧
    (n = 8 → off % 8 = 0 → 0x600000 ≤ off → off < 0x700000 → (off < 0x600340 ∨ 0x600400 ≤ off) →
      ∀ v, s.tWord p off = some v → gives v) ∧
    (off % n ≠ 0 → faults 0x02) ∧
    (off % n = 0 → n ≠ 8 → 0x600000 ≤ off → off < 0x700000 → faults 0x02) ∧
    (off % n = 0 → (cisternBytes s.variant ≤ off ∧ off < 0x600000 ∨ 0x718000 ≤ off ∧ off < 0x720000 ∨ 0x721200 ≤ off) → faults 0x06)

/-- Stores (R60, R62, R76, R110, R345): an aligned store to the cistern puts the low bytes of g_b there, little-endian, and leaves every other
byte of it, every register, every other task and tile as they were; one that meets a Draining range stalls with reason 2; one to a
read-only offset faults with 0x0B, a misaligned one with 0x02, one to a reserved offset with 0x06. -/
def Obligations.StoreResults : Prop :=
  ∀ (s : State) (p : Phys) (k : Nat) (b a : Reg) (imm : Imm16) (addr : Word) (off : Nat), s.issues p k → s.pcInside p k →
    addr = s.reg p k a + imm.signExtend 64 → s.names p addr off →
    ∀ c n, (c, n) ∈ ([(.sb p b a imm, 1), (.sh p b a imm, 2), (.sw p b a imm, 4), (.sd p b a imm, 8)] : List (Instr × Nat)) →
    let faults (code : Nat) : Prop := ∃ t word, exec c s = .next t ∧ s.Faulted t p k code word addr
    (off % n = 0 → s.cisternClean p off n → s.inBuddyCopy (s.tile p) off n = false → (s.tile p).anyRange off n .draining = false →
      ∃ t, exec c s = .next t ∧
        (∀ i < n, (t.tile p).cistern.read (off + i) = BitVec.ofNat 8 ((s.reg p k b).toNat / 256 ^ i)) ∧
        (∀ x, x < off ∨ off + n ≤ x → (t.tile p).cistern.read x = (s.tile p).cistern.read x) ∧
        (∀ j r, t.reg p j r = s.reg p j r) ∧ ((t.tile p).task k).pc = s.nextPc p k ∧
        (∀ j, j ≠ k → ((t.tile p).task j).work = ((s.tile p).task j).work) ∧
        (t.tile p).seq.controls = (s.tile p).seq.controls ∧
        { (t.tile p).besides with cistern := [], ecc := {}, dirty := [], ni := {} } =
          { (s.tile p).besides with cistern := [], ecc := {}, dirty := [], ni := {} } ∧
        (∀ q, q ≠ (p : Nat) → t.tile q = s.tile q)) ∧
    (off % n = 0 → s.cisternClean p off n → s.inBuddyCopy (s.tile p) off n = false → (s.tile p).anyRange off n .draining = true →
      ∃ t, exec c s = .next t ∧ s.Stalled t p k (.store off n)) ∧
    (off % n = 0 → s.cisternClean p off n → s.inBuddyCopy (s.tile p) off n = true → faults 0x0B) ∧
    (off % n = 0 → (0x700000 ≤ off ∧ off < 0x718000 ∨ 0x720000 ≤ off ∧ off < 0x721200) → faults 0x0B) ∧
    (off % n ≠ 0 → faults 0x02) ∧
    (off % n = 0 → n ≠ 8 → 0x600000 ≤ off → off < 0x700000 → faults 0x02) ∧
    (off % n = 0 → (cisternBytes s.variant ≤ off ∧ off < 0x600000 ∨ 0x718000 ≤ off ∧ off < 0x720000 ∨ 0x721200 ≤ off) → faults 0x06)

/-- Address forms (R62): a load or store whose address is a local form naming another tile, has a fabric code of 0x1 to 0x4, or is a
malformed 0x0 or 0xF form faults with 0x03; one with a code of 0x5 to 0xE faults with 0x04, aligned or not. -/
def Obligations.RefusedAddressForms : Prop :=
  ∀ (s : State) (p : Phys) (k : Nat) (r a : Reg) (imm : Imm16) (addr : Word), s.issues p k →
    addr = s.reg p k a + imm.signExtend 64 →
    ∀ c, c ∈ ([.lb p r a imm, .lh p r a imm, .lw p r a imm, .ld p r a imm, .lbu p r a imm, .lhu p r a imm, .lwu p r a imm,
      .sb p r a imm, .sh p r a imm, .sw p r a imm, .sd p r a imm] : List Instr) →
    let code := addr.toNat / 2 ^ 60
    let faults (code : Nat) : Prop := ∃ t word, exec c s = .next t ∧ s.Faulted t p k code word addr
    (1 ≤ code → code ≤ 4 → faults 0x03) ∧
    (5 ≤ code → code ≤ 0xE → faults 0x04) ∧
    (code = 0xF → 0xF * 2 ^ 60 + 2 ^ 23 ≤ addr.toNat → faults 0x03) ∧
    (code = 0 → ∀ l, (s.tile p).logical = some l → (∀ off, off < 2 ^ 23 → addr.toNat ≠ l * 2 ^ 36 + off) → l < 4096 → faults 0x03)

/-- Instruction faults (R59, R61, R75): a word whose major opcode or func is reserved, an instruction with a nonzero unused field, and SHI of the
reserved kind, fault with 0x01 and detail 0; a word with an uncorrectable error faults with 0x09 and its pc; an instruction that reads a register
with a parity error faults with 0x15 and that register's number; an instruction at the last word of instruction memory keeps its
effect and its task then faults with 0x13 and detail 0x1_0000. -/
def Obligations.InstructionFaults : Prop :=
  ∀ (s : State) (p : Phys) (k : Nat) (d a b : Reg) (func : Func) (imm : Imm16) (imm21 : Imm21), (s.tile p).runner = some k → k < 16 →
    let plain := (s.tile p).fetchPoison k = 0 ∧ reservedWord ((s.tile p).wordAt k) = false
    (plain → ((s.tile p).task k).parity = [] → ∀ c, c ∈ ([(.shi p d a imm, 192 ≤ imm.toNat),
        (.claim p d a b func, 2 ≤ func.toNat),
        (.release p d a b func, d ≠ 0 ∨ b ≠ 0 ∨ func ≠ 0),
        (.pump p d a b func, func ≠ 0),
        (.swap p d a b func, d ≠ 0 ∨ b ≠ 0 ∨ func ≠ 0),
        (.send p d a b func, d ≠ 0 ∨ 4 ≤ func.toNat),
        (.waitany p d a b func, b ≠ 0 ∨ 2 ≤ func.toNat),
        (.fold p d a b func, b ≠ 0 ∨ 2 ≤ func.toNat),
        (.token p d a b func, func.toNat / 4 % 2 = 0 ∧ (d ≠ 0 ∨ b ≠ 0 ∨ 8 ≤ func.toNat)),
        (.tokenEndWord p d a b func, func.toNat / 4 % 2 = 1 ∧ (d ≠ 0 ∨ b ≠ 0 ∨ 8 ≤ func.toNat)),
        (.wait p d a b func, b ≠ 0 ∨ func ≠ 0),
        (.credit p d a b func, b ≠ 0 ∨ func ≠ 0),
        (.barrier p d a b func, b ≠ 0 ∨ func ≠ 0),
        (.yield p d a b func, d ≠ 0 ∨ a ≠ 0 ∨ b ≠ 0 ∨ func ≠ 0),
        (.heartbeat p d a b func, d ≠ 0 ∨ a ≠ 0 ∨ b ≠ 0 ∨ func ≠ 0)] : List (Instr × Prop)) → c.2 →
      ∃ t word, exec c.1 s = .next t ∧ s.Faulted t p k 0x01 word 0) ∧
    (2 ≤ (s.tile p).fetchPoison k → ∀ c, c ∈ ([.add p d a b, .div p d a b, .addi p d a imm, .shi p d a imm, .lui p d imm21, .jal p d imm21,
        .jalr p d a imm, .beq p a b imm, .ld p d a imm, .sd p d a imm, .claim p d a b func, .release p d a b func, .pump p d a b func,
        .swap p d a b func, .send p d a b func, .sendt p d a b func, .waitany p d a b func, .fold p d a b func, .wait p d a b func,
        .credit p d a b func, .barrier p d a b func, .yield p d a b func, .heartbeat p d a b func] : List Instr) →
      ∃ t word, exec c s = .next t ∧ s.Faulted t p k 0x09 word (((s.tile p).task k).pc.zeroExtend 64)) ∧
    ((s.tile p).fetchPoison k = 0 → reservedWord ((s.tile p).wordAt k) = true → ∀ c, c ∈ ([.add p d a b, .addi p d a imm, .shi p d a imm,
        .lui p d imm21, .jal p d imm21, .beq p a b imm, .ld p d a imm, .sd p d a imm, .claim p d a b func, .heartbeat p d a b func] : List Instr) →
      ∃ t, exec c s = .next t ∧ s.Faulted t p k 0x01 ((s.tile p).wordAt k) 0) ∧
    (plain → ∀ r : Reg, r ≠ 0 → (s.tile p |>.task k).parity = [r.toNat] → ∀ c, c ∈ ([.add p d r b, .sub p d b r, .addi p d r imm, .shi p d r imm,
        .jalr p d r imm, .beq p r b imm, .bne p b r imm, .ld p d r imm, .sd p r a imm, .claim p d r b func] : List Instr) →
      ∃ t word, exec c s = .next t ∧ s.Faulted t p k 0x15 word (r.zeroExtend 64)) ∧
    (plain → ((s.tile p).task k).parity = [] → ((s.tile p).task k).pc = 0xFFFC#16 →
      ∃ t, exec (.add p d a b) s = .next t ∧ ((t.tile p).task k).state = .faulted ∧ ((t.tile p).task k).faultCode = 0x13 ∧
        ((t.tile p).task k).faultPc = 0xFFFC#16 ∧ ((t.tile p).task k).faultDetail = 0x10000#64 ∧
        t.reg p k d = (if d = 0 then 0 else s.reg p k a + s.reg p k b))

/-- Scoreboard ranges (R60, R64): CLAIM of an aligned, non-empty range inside the cistern that overlaps no claimed range takes a free entry, in
the state func names, and writes its id; on an overlap it writes −2, else with no entry free −1, claiming nothing; a misaligned range faults
with 0x02, an aligned one that is empty or leaves the cistern with 0x06. RELEASE frees a claimed entry whose range is neither Filling nor
Draining, stalls with reason 7 on one that is, and faults with 0x0C on an id that is not claimed. -/
def Obligations.ClaimAndRelease : Prop :=
  ∀ (s : State) (p : Phys) (k : Nat) (d a b : Reg) (func : Func), s.issues p k → s.pcInside p k →
    let start := (s.reg p k a).toNat
    let len := (s.reg p k b).toNat
    let id := (s.reg p k a).toNat
    let aligned := start % 256 = 0 ∧ len % 256 = 0
    let inside := 0 < len ∧ start + len ≤ cisternBytes s.variant
    let claims (v : Word) : Prop := ∃ t, exec (.claim p d a b func) s = .next t ∧ s.Wrote t p k d v (s.nextPc p k)
    (func.toNat < 2 → aligned → inside → (∀ r < 64, ((s.tile p).range r).overlaps start len = false) →
      (∃ r < 64, ((s.tile p).range r).claimed = false) →
      ∃ t r, exec (.claim p d a b func) s = .next t ∧ r < 64 ∧ ((s.tile p).range r).claimed = false ∧
        s.Retired t p k d (BitVec.ofNat 64 r) ∧ ((t.tile p).range r).claimed = true ∧
        ((t.tile p).range r).start * 256 = start ∧ ((t.tile p).range r).len * 256 = len ∧
        ((t.tile p).range r).state = (if func = 0 then .empty else .full) ∧
        (∀ q, q ≠ r → (t.tile p).range q = (s.tile p).range q) ∧
        { (t.tile p).besides with ranges := [], stamp := 0 } = { (s.tile p).besides with ranges := [], stamp := 0 } ∧
        { t.besidesTiles with free := 0 } = { s.besidesTiles with free := 0 } ∧ s.sameTask t p k) ∧
    (func.toNat < 2 → aligned → inside → (∃ r < 64, ((s.tile p).range r).overlaps start len = true) → claims (BitVec.ofInt 64 (-2))) ∧
    (func.toNat < 2 → aligned → inside → (∀ r < 64, ((s.tile p).range r).overlaps start len = false) →
      (∀ r < 64, ((s.tile p).range r).claimed = true) → claims (BitVec.ofInt 64 (-1))) ∧
    (func.toNat < 2 → ¬ aligned → ∃ t word, exec (.claim p d a b func) s = .next t ∧ s.Faulted t p k 0x02 word (s.reg p k a)) ∧
    (func.toNat < 2 → aligned → ¬ inside → ∃ t word, exec (.claim p d a b func) s = .next t ∧ s.Faulted t p k 0x06 word (s.reg p k a)) ∧
    (id < 64 → ((s.tile p).range id).claimed = true → ((s.tile p).range id).state ≠ .filling → ((s.tile p).range id).state ≠ .draining →
      ∃ t, exec (.release p 0 a 0 0) s = .next t ∧ s.Retired t p k 0 0 ∧ ((t.tile p).range id).state = .free ∧
        (∀ q, q ≠ id → (t.tile p).range q = (s.tile p).range q) ∧
        { (t.tile p).besides with ranges := [], troughs := [] } = { (s.tile p).besides with ranges := [], troughs := [] } ∧
        t.besidesTiles = s.besidesTiles ∧ s.sameTask t p k) ∧
    (id < 64 → ((s.tile p).range id).claimed = true → (((s.tile p).range id).state = .filling ∨ ((s.tile p).range id).state = .draining) →
      ∃ t, exec (.release p 0 a 0 0) s = .next t ∧ s.Stalled t p k (.release id)) ∧
    ((64 ≤ id ∨ ((s.tile p).range id).claimed = false) →
      ∃ t word, exec (.release p 0 a 0 0) s = .next t ∧ s.Faulted t p k 0x0C word (s.reg p k a))

/-- Pumps and troughs (R60, R65, R117, R280): PUMP of descriptors that all pass the first pass posts them in ring order, puts one fill mark on
each destination range and one drain mark on each source range they name, advances the tail and writes it to g_d; with too little room in
the ring it stalls with reason 3; a refused descriptor, a count of 0 or one above the ring length faults and posts and marks nothing, and so
does, with 0x0A and the bad word's offset, a descriptor that an uncorrectable error meets after descriptors that pass. SWAP
flips the role of a configured pair neither half of which is Filling or Draining, stalls with reason 8 while one is, and faults with 0x0C
on a pair that is not configured or is a state pair. -/
def Obligations.PumpAndSwap : Prop :=
  ∀ (s : State) (p : Phys) (k : Nat) (d a b : Reg), s.issues p k → s.pcInside p k →
    let n := (s.reg p k a).toNat
    let count := (s.reg p k b).toNat
    let u := (s.tile p).pump n
    let ds := (s.tile p).tailDescs n count
    let room := u.ringLen - u.ringUsed
    let slotAt (i : Nat) : Nat := u.ringBase + 64 * ((u.tail + i) % u.ringLen)
    let cleanTo (i : Nat) : Prop := ∀ j < i, (s.tile p).poison (slotAt j) 64 = 0
    (n < 8 → 0 < count → count ≤ u.ringLen → count ≤ room → cleanTo count → s.firstPass (s.tile p) ds 0 [] [] = none →
      ∃ t, exec (.pump p d a b 0) s = .next t ∧ s.Retired t p k d (BitVec.ofNat 64 ((u.tail + count) % u.ringLen)) ∧
        ((t.tile p).pump n).tail = (u.tail + count) % u.ringLen ∧
        ((t.tile p).pump n).jobs.map (fun j => (j.desc, j.slot)) =
          u.jobs.map (fun j => (j.desc, j.slot)) ++ ds.zipIdx.map (fun x => (x.1, (u.tail + x.2) % u.ringLen)) ∧
        (∀ r, ((t.tile p).range r).fills.length =
          ((s.tile p).range r).fills.length + (ds.filter fun x => (s.tile p).fillRange x = some r).length) ∧
        (∀ r, ((t.tile p).range r).drains.length = ((s.tile p).range r).drains.length + (ds.filter fun x => drainRange x = some r).length) ∧
        (∀ m, m ≠ n → (t.tile p).pump m = (s.tile p).pump m) ∧
        { (t.tile p).besides with ranges := [], stamp := 0, pumps := [] } = { (s.tile p).besides with ranges := [], stamp := 0, pumps := [] } ∧
        t.besidesTiles = s.besidesTiles ∧ s.sameTask t p k) ∧
    (n < 8 → 0 < count → count ≤ u.ringLen → room < count →
      ∃ t, exec (.pump p d a b 0) s = .next t ∧ s.Stalled t p k (.pump n count)) ∧
    (n < 8 → (count = 0 ∨ u.ringLen < count) →
      ∃ t word, exec (.pump p d a b 0) s = .next t ∧ s.Faulted t p k 0x0D word (BitVec.ofNat 64 u.tail)) ∧
    (n < 8 → 0 < count → count ≤ u.ringLen → count ≤ room → cleanTo count → ∀ i code det, s.firstPass (s.tile p) ds 0 [] [] = some (i, code, det) →
      ∃ t word, exec (.pump p d a b 0) s = .next t ∧
        s.Faulted t p k code word (BitVec.ofNat 64 (if code = 0x0D then (u.tail + i) % u.ringLen else det))) ∧
    (n < 8 → count ≤ u.ringLen → count ≤ room → ∀ i < count, cleanTo i → 2 ≤ (s.tile p).poison (slotAt i) 64 →
      s.firstPass (s.tile p) (ds.take i) 0 [] [] = none →
      ∃ t word, exec (.pump p d a b 0) s = .next t ∧ s.Faulted t p k 0x0A word (BitVec.ofNat 64 ((s.tile p).badWord (slotAt i) 64))) ∧
    (8 ≤ n → ∃ t word, exec (.pump p d a b 0) s = .next t ∧ s.Faulted t p k 0x16 word (s.reg p k a)) ∧
    (n < 16 → ((s.tile p).trough n).configured = true → ((s.tile p).trough n).statePair = false →
      let halves := [((s.tile p).trough n).rangeA, ((s.tile p).trough n).rangeB]
      ((∀ r ∈ halves, ((s.tile p).range r).state ≠ .filling ∧ ((s.tile p).range r).state ≠ .draining) →
        ∃ t, exec (.swap p 0 a 0 0) s = .next t ∧ s.Retired t p k 0 0 ∧
          ((t.tile p).trough n).role = (!((s.tile p).trough n).role) ∧
          ((t.tile p).trough n).swaps = (((s.tile p).trough n).swaps + 1) % 65536 ∧
          { (t.tile p).trough n with role := false, swaps := 0, lastSwap := none } =
            { (s.tile p).trough n with role := false, swaps := 0, lastSwap := none } ∧
          (∀ m, m ≠ n → (t.tile p).trough m = (s.tile p).trough m) ∧
          { (t.tile p).besides with troughs := [] } = { (s.tile p).besides with troughs := [] } ∧
          t.besidesTiles = s.besidesTiles ∧ s.sameTask t p k) ∧
      ((∃ r ∈ halves, ((s.tile p).range r).state = .filling ∨ ((s.tile p).range r).state = .draining) →
        ∃ t, exec (.swap p 0 a 0 0) s = .next t ∧ s.Stalled t p k (.swap n))) ∧
    ((16 ≤ n ∨ ((s.tile p).trough n).configured = false ∨ ((s.tile p).trough n).statePair = true) →
      ∃ t word, exec (.swap p 0 a 0 0) s = .next t ∧ s.Faulted t p k 0x0C word (s.reg p k a))

/-- Sending (R66, R67, R176, R177): SEND and SENDT of a readable, aligned message to a well of the hedge stall their task with reason 4 and put
one C4 SEND packet before the network interface, which carries the well's operand, the expiry (none for SEND; for SENDT func[10:2] × 4 µs
from now, a zero field giving the default of t_seq_ctrl) and the message's bytes. A reserved operand bit faults with 0x16, a misaligned
offset with 0x02, one outside the readable memories with 0x06, a well outside the hedge with 0x05. -/
def Obligations.SendIssue : Prop :=
  ∀ (s : State) (p : Phys) (k : Nat) (d a b : Reg) (func : Func) (c : Instr) (r : Option Reg) (expiry : Nat), s.issues p k →
    let well := (s.reg p k a).toNat
    let off := (s.reg p k b).toNat
    let count := func.toNat % 4 + 1
    let timeout := if func.toNat / 4 = 0 then (s.tile p).seq.sendDefault * 1000 else func.toNat / 4 * 4 * 1000
    let inHedge := s.inHedge (s.tile p).meadow ((s.tile p).logical.getD 0xFFF) (.loc (well % 4096) 0) = true
    let readable := localReadable s.variant off (64 * count) = true
    let faults (code : Nat) (detail : Word) : Prop := ∃ t word, exec c s = .next t ∧ s.Faulted t p k code word detail
    ((c = .send p 0 a b func ∧ func.toNat < 4 ∧ r = none ∧ expiry = 2 ^ 64 - 1) ∨
      (c = .sendt p d a b func ∧ r = some d ∧ expiry = (s.now + timeout) % 2 ^ 64)) →
    (wellOperandOk well = true → off % 64 = 0 → readable → inHedge → s.loadPoison p off (64 * count) = 0 →
      ∃ t m, exec c s = .next t ∧ s.Begun t p k (.send (Tbl.get 0 (s.tile p).ni.seqs (0x10 + k)) r) ∧
        t.pkt s.nextPkt = some m ∧ (∀ n, n ≠ s.nextPkt → t.pkt n = s.pkt n) ∧ t.nextPkt = s.nextPkt + 1 ∧
        m.h.cls = 4 ∧ m.h.op = 0x03 ∧ m.h.dst = well % 4096 ∧ m.h.arg0 = well ∧ m.h.arg1 = expiry ∧ m.h.flow = 0x10 + k ∧
        m.h.tag = s.nextPkt ∧ m.data = s.localBytes p off (64 * count) ∧ m.loc = .ni ∧
        { (t.tile p).beside with ni := {} } = { (s.tile p).beside with ni := {} } ∧
        { t.besideTiles with net := [], nextPkt := 0 } = { s.besideTiles with net := [], nextPkt := 0 }) ∧
    (wellOperandOk well = false → faults 0x16 (s.reg p k a)) ∧
    (wellOperandOk well = true → off % 64 ≠ 0 → faults 0x02 (s.reg p k b)) ∧
    (wellOperandOk well = true → off % 64 = 0 → ¬ readable → faults 0x06 (s.reg p k b)) ∧
    (wellOperandOk well = true → off % 64 = 0 → readable → ¬ inHedge → faults 0x05 (s.reg p k a))

/-- WAITANY (R68, R199): of the wells its mask names that are Open and hold a whole message it takes the oldest message of the lowest-numbered
(func 0) or of the first after the well this task took from last (func 1): the message goes to the task's message buffer, leaves the well,
and its message word to g_d. With none holding a message it stalls with reason 5, with none Open it writes 2^63; an empty mask or a well bound to
another port faults with 0x0E, a mask above 255 with 0x16. -/
def Obligations.WaitanyResults : Prop :=
  ∀ (s : State) (p : Phys) (k : Nat) (d a : Reg) (func : Func), s.issues p k → s.pcInside p k → func.toNat < 2 →
    let mask := (s.reg p k a).toNat
    let named (w : Nat) : Prop := w < 8 ∧ mask.testBit w = true
    let holds (w : Nat) : Prop := mask.testBit w = true ∧ ((s.tile p).well w).state = .opened ∧ ((s.tile p).well w).msgs ≠ []
    let last := ((s.tile p).task k).lastWell.getD 7
    let first (w : Nat) : Prop :=
      (func = 0 ∧ w < 8 ∧ ∀ v < w, ¬ holds v) ∨ (func = 1 ∧ ∃ i < 8, w = (last + 1 + i) % 8 ∧ ∀ j < i, ¬ holds ((last + 1 + j) % 8))
    let ours := mask < 256 ∧ mask ≠ 0 ∧ ∀ w, named w → ((s.tile p).well w).binding = 0
    (ours → ∀ w m rest, first w → holds w → ((s.tile p).well w).msgs = m :: rest →
      ∃ t, exec (.waitany p d a 0 func) s = .next t ∧
        s.Retired t p k d (BitVec.ofNat 64 (w + (m.descs.length - 1) * 2 ^ 3 + ((s.tile p).well w).gen * 2 ^ 8 + m.sender * 2 ^ 16)) ∧
        ((t.tile p).task k).msgBuf = Mem.writeBytes [] 0 (m.descs.flatMap (toLE 64)) ∧ ((t.tile p).task k).lastWell = some w ∧
        (t.tile p).well w = { (s.tile p).well w with msgs := rest, lastTaken := s.now } ∧
        (∀ v, v ≠ w → (t.tile p).well v = (s.tile p).well v) ∧
        { (t.tile p).besides with wells := [] } = { (s.tile p).besides with wells := [] } ∧ t.besidesTiles = s.besidesTiles) ∧
    (ours → (∀ w, named w → ((s.tile p).well w).state ≠ .opened) →
      ∃ t, exec (.waitany p d a 0 func) s = .next t ∧ s.Wrote t p k d (BitVec.ofNat 64 (2 ^ 63)) (s.nextPc p k)) ∧
    (ours → (∃ w, named w ∧ ((s.tile p).well w).state = .opened) → (∀ w < 8, ¬ holds w) →
      ∃ t, exec (.waitany p d a 0 func) s = .next t ∧ s.Stalled t p k (.waitany mask)) ∧
    (mask < 256 → (mask = 0 ∨ ∃ w, named w ∧ ((s.tile p).well w).binding ≠ 0) →
      ∃ t word, exec (.waitany p d a 0 func) s = .next t ∧ s.Faulted t p k 0x0E word (s.reg p k a)) ∧
    (256 ≤ mask → ∃ t word, exec (.waitany p d a 0 func) s = .next t ∧ s.Faulted t p k 0x16 word (s.reg p k a))

/-- Waiting (R55, R71, R72, R74): WAIT returns at once the pending events that its mask names and event 13 whatever the mask, clearing the
latched ones it returns, and with none its task waits with that mask; CREDIT takes its credits from the balance and writes what is left, or
stalls with reason 8, in issue order, a CREDIT that issues again keeping its place, while the balance is short; YIELD gives way to another Ready task of at least its priority and goes on
where there is none; HEARTBEAT restarts the watchdog period. Their faults: WAIT with a mask above 13 bits and CREDIT of 0 fault with 0x16, CREDIT
above 65,535 or the credit capacity with 0x11. -/
def Obligations.WaitingInstructions : Prop :=
  ∀ (s : State) (p : Phys) (k : Nat) (d a : Reg), s.issues p k → s.pcInside p k →
    let x := s.reg p k a
    let now' := ((s.tile p).pendingOf k) &&& (x.toNat ||| 0x2000)
    let faults (c : Instr) (code : Nat) : Prop := ∃ t word, exec c s = .next t ∧ s.Faulted t p k code word x
    (x.toNat < 2 ^ 14 → now' ≠ 0 →
      ∃ t, exec (.wait p d a 0 0) s = .next t ∧ s.Retired t p k d (BitVec.ofNat 64 now') ∧
        ((t.tile p).task k).pend = ((s.tile p).task k).pend - (((s.tile p).task k).pend &&& now') ∧
        (t.tile p).power = { (s.tile p).power with wokeDark := false } ∧ (t.tile p).beside = (s.tile p).beside ∧
        t.besidesTiles = s.besidesTiles) ∧
    (x.toNat < 2 ^ 14 → now' = 0 →
      ∃ t, exec (.wait p d a 0 0) s = .next t ∧ ((t.tile p).task k).state = .waiting ∧ ((t.tile p).task k).waitMask = x ∧
        ((t.tile p).task k).waitD = d ∧ ((t.tile p).task k).regs = ((s.tile p).task k).regs ∧
        ((t.tile p).task k).pc = ((s.tile p).task k).pc ∧ (∀ j, j ≠ k → ((t.tile p).task j).work = ((s.tile p).task j).work) ∧
        (∀ q, q ≠ (p : Nat) → t.tile q = s.tile q)) ∧
    (2 ^ 14 ≤ x.toNat → faults (.wait p d a 0 0) 0x16) ∧
    (0 < x.toNat → x.toNat ≤ 65535 → x.toNat ≤ s.creditCapacity (s.tile p) → x.toNat ≤ (s.tile p).power.balance →
      ∃ t, exec (.credit p d a 0 0) s = .next t ∧ s.Retired t p k d (BitVec.ofNat 64 ((s.tile p).power.balance - x.toNat)) ∧
        (t.tile p).power = { (s.tile p).power with balance := (s.tile p).power.balance - x.toNat } ∧
        (t.tile p).beside = (s.tile p).beside ∧ t.besidesTiles = s.besidesTiles ∧ ((t.tile p).task k).credit = none ∧
        { ((t.tile p).task k).work with regs := [], pc := 0, credit := none } = { ((s.tile p).task k).work with regs := [], pc := 0, credit := none }) ∧
    (0 < x.toNat → x.toNat ≤ 65535 → x.toNat ≤ s.creditCapacity (s.tile p) → (s.tile p).power.balance < x.toNat →
      let order := match ((s.tile p).task k).credit with
        | some c => c.2
        | none => (s.tile p).seq.creditOrder
      ∃ t, exec (.credit p d a 0 0) s = .next t ∧ ((t.tile p).task k).state = .stalled ∧
        ((t.tile p).task k).stall = some (.credit x.toNat order) ∧ ((t.tile p).task k).credit = some (x.toNat, order) ∧
        { ((t.tile p).task k).work with stall := none, credit := none } = { ((s.tile p).task k).work with stall := none, credit := none } ∧
        (∀ j, j ≠ k → ((t.tile p).task j).work = ((s.tile p).task j).work) ∧ (∀ q, q ≠ (p : Nat) → t.tile q = s.tile q) ∧
        (t.tile p).seq.creditOrder = max (s.tile p).seq.creditOrder (order + 1) ∧ (t.tile p).beside = (s.tile p).beside ∧
        t.besideTiles = s.besideTiles) ∧
    (x.toNat = 0 → faults (.credit p d a 0 0) 0x16) ∧
    (65535 < x.toNat ∨ 0 < x.toNat ∧ s.creditCapacity (s.tile p) < x.toNat → faults (.credit p d a 0 0) 0x11) ∧
    (∃ t, exec (.yield p 0 0 0 0) s = .next t ∧ s.Retired t p k 0 0 ∧ (t.tile p).besides = (s.tile p).besides ∧
      t.besidesTiles = s.besidesTiles ∧ s.sameTask t p k ∧
      ((∃ j < 16, j ≠ k ∧ ((s.tile p).task j).state = .ready ∧ ((s.tile p).task k).prio ≤ ((s.tile p).task j).prio) →
        ((t.tile p).task k).state = .ready) ∧
      ((∀ j < 16, j ≠ k → ((s.tile p).task j).state = .ready → ((s.tile p).task j).prio < ((s.tile p).task k).prio) →
        ((t.tile p).task k).state = .running)) ∧
    (∃ t, exec (.heartbeat p 0 0 0 0) s = .next t ∧ s.Retired t p k 0 0 ∧ ((t.tile p).task k).wdSince = s.now ∧
      { ((t.tile p).task k).work with regs := [], pc := 0, wdSince := 0 } =
        { ((s.tile p).task k).work with regs := [], pc := 0, wdSince := 0 } ∧
      (t.tile p).besides = (s.tile p).besides ∧ t.besidesTiles = s.besidesTiles)

/-- Folds, tokens and barriers (R69, R70, R73, R141, R278): FOLD of a loaded slot stalls its task with reason 6 and joins the folds pending, to
begin at a FOLD token or at quiet; TOKEN on an output with credit emits its token, or an end word with the count of the lane's data words since
the last, on the next lane of the output's gang, where no other word waits to move, END_STEP and DRAIN requesting a drain and stopping the output if it is a
graph source (R152); without credit it stalls with reason 7; BARRIER of an enabled barrier
stalls with reason 9 and contributes one arrival, an exact count reduction of the barrier's generation and expected count. -/
def Obligations.FoldTokenBarrier : Prop :=
  ∀ (s : State) (p : Phys) (k : Nat) (d a : Reg) (func : Func), s.issues p k → s.pcInside p k →
    let x := s.reg p k a
    let n := x.toNat
    let out := func.toNat % 4
    let pos := Tbl.get 0 (s.tile p).stream.sourcePos (4 + out) % (s.tile p).sourceGang (4 + out)
    let lane := inKey 5 (4 + out) + 256 * pos
    let faults (c : Instr) (code : Nat) : Prop := ∃ t word, exec c s = .next t ∧ s.Faulted t p k code word x
    let still := (s.tile p).stream.slackQ = [] ∧ (s.tile p).stream.sinkQ = [] ∧ (s.tile p).stream.pipeOut = [] ∧ s.relaysIdle
    let emits (c : Instr) (w : StreamWord) (count : Nat) (drain : Option (Nat × Nat)) (stop : List Nat) : Prop :=
      ∃ t, exec c s = .next t ∧ s.Retired t p k 0 0 ∧ (t.tile p).inQueue lane = (s.tile p).inQueue lane ++ [w] ∧
        (∀ key, key ≠ lane → (t.tile p).inQueue key = (s.tile p).inQueue key) ∧
        Tbl.get 0 (t.tile p).stream.sourcePos (4 + out) = (pos + 1) % (s.tile p).sourceGang (4 + out) ∧
        Tbl.get 0 (t.tile p).stream.laneCount lane = count ∧ (t.tile p).stream.drainTok = drain ∧ (t.tile p).stream.stopped = stop ∧
        { (t.tile p).besides with stream := {} } = { (s.tile p).besides with stream := {} } ∧ t.besidesTiles = s.besidesTiles ∧
        s.sameTask t p k
    (func.toNat < 2 → n < 8 → (s.tile p).slotLoaded n = true →
      ∃ t, exec (.fold p d a 0 func) s = .next t ∧ s.Begun t p k (.fold d) ∧
        (t.tile p).stream = { (s.tile p).stream with
          folds := (s.tile p).stream.folds ++ [{ slot := n, atQuiet := func.toNat == 1, task := some (k, d) }] } ∧
        { (t.tile p).beside with stream := {} } = { (s.tile p).beside with stream := {} } ∧ t.besideTiles = s.besideTiles) ∧
    (func.toNat < 2 → 8 ≤ n → faults (.fold p d a 0 func) 0x16) ∧
    (func.toNat < 2 → n < 8 → (s.tile p).slotLoaded n = false → faults (.fold p d a 0 func) 0x0F) ∧
    (func.toNat < 4 → n < 2 ^ 24 → tokenReserved (n % 256) = false → (s.tile p).tokenReady out = true → still →
      emits (.token p 0 a 0 func) (.token (n % 256) (n / 256)) (Tbl.get 0 (s.tile p).stream.laneCount lane)
        (if n % 256 = 3 ∨ n % 256 = 5 then some (n % 256, n / 256) else (s.tile p).stream.drainTok)
        (if (n % 256 = 3 ∨ n % 256 = 5) ∧ (s.tile p).graphSource (4 + out) = true then (s.tile p).stream.stopped ++ [4 + out]
          else (s.tile p).stream.stopped)) ∧
    (4 ≤ func.toNat → func.toNat < 8 → n = 0 → (s.tile p).tokenReady out = true → still →
      emits (.tokenEndWord p 0 a 0 func) (.endWord (Tbl.get 0 (s.tile p).stream.laneCount lane % 2 ^ 32)) 0
        (s.tile p).stream.drainTok (s.tile p).stream.stopped) ∧
    (func.toNat < 4 → n < 2 ^ 24 → tokenReserved (n % 256) = false → (s.tile p).tokenReady out = false →
      ∃ t, exec (.token p 0 a 0 func) s = .next t ∧ s.Stalled t p k (.token out)) ∧
    (4 ≤ func.toNat → func.toNat < 8 → n = 0 → (s.tile p).tokenReady out = false →
      ∃ t, exec (.tokenEndWord p 0 a 0 func) s = .next t ∧ s.Stalled t p k (.token out)) ∧
    (func.toNat < 4 → n < 2 ^ 24 → tokenReserved (n % 256) = true → faults (.token p 0 a 0 func) 0x10) ∧
    (func.toNat < 4 → 2 ^ 24 ≤ n → faults (.token p 0 a 0 func) 0x16) ∧
    (4 ≤ func.toNat → func.toNat < 8 → n ≠ 0 → faults (.tokenEndWord p 0 a 0 func) 0x16) ∧
    (n < 16 → ((s.tile p).barrier n).enable = true →
      ∃ t m, exec (.barrier p d a 0 0) s = .next t ∧ s.Begun t p k (.barrier n d) ∧
        (t.tile p).barrier n = { (s.tile p).barrier n with arrivals := (((s.tile p).barrier n).arrivals + 1) % 65536 } ∧
        (∀ j, j ≠ n → (t.tile p).barrier j = (s.tile p).barrier j) ∧
        t.pkt s.nextPkt = some m ∧ (∀ j, j ≠ s.nextPkt → t.pkt j = s.pkt j) ∧ t.nextPkt = s.nextPkt + 1 ∧
        m.h.cls = 3 ∧ m.h.op = 0x04 ∧ m.h.arg1 = ((s.tile p).barrier n).expected + ((s.tile p).barrier n).gen * 2 ^ 16 ∧ m.data = toLE 8 1 ∧
        { (t.tile p).beside with barriers := [], ni := {} } = { (s.tile p).beside with barriers := [], ni := {} } ∧
        { t.besideTiles with net := [], nextPkt := 0 } = { s.besideTiles with net := [], nextPkt := 0 }) ∧
    (16 ≤ n → faults (.barrier p d a 0 0) 0x16) ∧
    (n < 16 → ((s.tile p).barrier n).enable = false → faults (.barrier p d a 0 0) 0x12)

/-- Stores to t_ objects (R77, R118, R120, R123, R144, R145, R191 to R194): what the store that a row of its own names leaves when the steward makes it:
a task started with its registers and pending events at zero, its pc, priority and watchdog enable as stored; stopped, its fold withdrawn; its fault cleared; a
ring placed on an empty ring; a trough pair configured over claimed ranges; a counter's halves, after the terminals that the tile's counters
have reached have taken effect; a well opened into its next generation, and one closing or resetting, which discards its messages. The same
store by the running task is its SD. -/
def Obligations.TObjectStores : Prop :=
  ∀ (s : State) (p : Phys) (v : Word),
    let n := v.toNat
    let field (hi lo : Nat) := bits n hi lo
    let t0 := s.tile p
    let ended (m : Nat) : Counter := if (t0.counter m).reached then (t0.counter m).terminate else t0.counter m
    let counted (t : State) : Prop := (∀ q, q ≠ (p : Nat) → t.tile q = s.tile q) ∧
      (∀ j < 16, (t0.task j).state ≠ .waiting → { ((t.tile p).task j).work with pend := 0 } = { (t0.task j).work with pend := 0 }) ∧
      ({ (t.tile p).beside with counters := [] } = { t0.beside with counters := [] }) ∧
      ((∀ m < 16, (t0.counter m).reached = false) → storeFrame s t p fun x => { x with counters := [] })
    (∀ k : Task16, let x := t0.task k
      let same := BitVec.ofNat 16 n = x.pc
      let others (t : State) : Prop := (∀ q, q ≠ (p : Nat) → t.tile q = s.tile q) ∧
        (∀ j, j ≠ (k : Nat) → (t0.task j).state ≠ .waiting → ((t.tile p).task j).work = (t0.task j).work) ∧
        ((t.tile p).beside = t0.beside)
      (field 31 28 = 1 → x.state = .idle → (same ∨ field 1 0 = 0) →
        ∃ t, exec (.taskStart p k (.steward v)) s = .next t ∧ (∀ r, t.reg p k r = 0) ∧ ((t.tile p).task k).pc = BitVec.ofNat 16 n ∧
          ((t.tile p).task k).prio = field 21 20 ∧ ((t.tile p).task k).wdEnable = bit n 22 ∧ ((t.tile p).task k).pend = 0 ∧
          ((t.tile p).task k).wdSince = s.now ∧ others t) ∧
      (field 31 28 = 2 → (x.state = .ready ∨ x.state = .running ∨ x.state = .stalled ∨ x.state = .waiting) → same →
        ∃ t, exec (.taskStop p k (.steward v)) s = .next t ∧ ((t.tile p).task k).state = .idle ∧
          ((t.tile p).task k).regs = x.regs ∧ ((t.tile p).task k).pc = x.pc ∧ (∀ q, q ≠ (p : Nat) → t.tile q = s.tile q) ∧
          (∀ j, j ≠ (k : Nat) → (t0.task j).state ≠ .waiting → ((t.tile p).task j).work = (t0.task j).work) ∧
          (t.tile p).beside = { t0 with stream := { t0.stream with folds := t0.stream.dropFolds k } }.beside) ∧
      (field 31 28 = 3 → x.state = .faulted → same →
        ∃ t, exec (.taskClearFault p k (.steward v)) s = .next t ∧ ((t.tile p).task k).state = .idle ∧
          ((t.tile p).task k).regs = x.regs ∧ ((t.tile p).task k).pc = x.pc ∧ others t)) ∧
    (∀ i : Fin 8, (t0.pump i).ringEmpty = true → field 22 0 % 64 = 0 → field 22 0 + 64 * field 39 24 ≤ cisternBytes s.variant →
      (field 22 0 ≠ (t0.pump i).ringBase ∨ field 39 24 ≠ (t0.pump i).ringLen) →
      ∃ t, exec (.pumpRingStore p i (.steward v)) s = .next t ∧
        ((t.tile p).pump i = { t0.pump i with ringBase := field 22 0, ringLen := field 39 24, head := 0, tail := 0 } ∧
          ∀ m, m ≠ (i : Nat) → (t.tile p).pump m = t0.pump m) ∧
        storeFrame s t p fun x => { x with pumps := [] }) ∧
    (∀ i : Fin 16, bit n 0 = true → (t0.trough i).configured = false → (t0.range (field 9 4)).claimed = true →
      (t0.range (field 15 10)).claimed = true →
      ∃ t, exec (.troughConfigure p i (.steward v)) s = .next t ∧
        ((t.tile p).trough i = { t0.trough i with
            configured := true, statePair := bit n 2, rangeA := field 9 4, rangeB := field 15 10
            regionBase := field 26 16, regionLen := field 37 27 } ∧ ∀ m, m ≠ (i : Nat) → (t.tile p).trough m = t0.trough m) ∧
        storeFrame s t p fun x => { x with troughs := [] }) ∧
    (∀ i : Fin 16, ∃ t, exec (.counterStore p i false (.steward v)) s = .next t ∧
        ((t.tile p).counter i = { ended i with count := field 31 0, terminal := field 63 32, pending := 0, stopped := false } ∧
          ∀ m < 16, m ≠ (i : Nat) → (t.tile p).counter m = ended m) ∧ counted t) ∧
    (∀ i : Fin 16, (field 7 0 < 0x08 ∨ 0xBF < field 7 0) →
      ∃ t, exec (.counterStore p i true (.steward v)) s = .next t ∧
        ((t.tile p).counter i = { ended i with
            opcode := field 7 0, arg := field 23 8, tapMode := field 25 24, reload := bit n 26
            wake := bit n 27, matchOp := field 39 32, tapClass := field 42 40, tapIndex := field 47 43, pending := 0
            overflow := (ended i).overflow && !bit n 56, stopped := false } ∧
          ∀ m < 16, m ≠ (i : Nat) → (t.tile p).counter m = ended m) ∧ counted t) ∧
    (∀ w : Fin 8, let x := t0.well w
      let left (c : Instr) (y : Well) : Prop := ∃ t, exec c s = .next t ∧
        ((t.tile p).well w = y ∧ ∀ m, m ≠ (w : Nat) → (t.tile p).well m = t0.well m) ∧
        storeFrame s t p fun x => { x with wells := [] }
      (field 7 4 = 1 → x.state = .closed → (s.variant = 2 → field 3 2 ≠ 1) →
        left (.wellOpen p w (.steward v)) { x with binding := field 3 2, state := .opened, gen := (x.gen + 1) % 256 }) ∧
      (field 7 4 = 2 → x.state = .opened → field 3 2 = x.binding → (s.variant = 2 → field 3 2 ≠ 1) →
        left (.wellClose p w (.steward v)) { x with state := .resetting, discarded := (x.discarded + x.msgs.length) % 65536, msgs := [], reopen := false }) ∧
      (field 7 4 = 3 → x.state = .opened → field 3 2 = x.binding → (s.variant = 2 → field 3 2 ≠ 1) →
        left (.wellReset p w (.steward v)) { x with state := .resetting, discarded := (x.discarded + x.msgs.length) % 65536, msgs := [], reopen := true })) ∧
    (∀ (k : Nat) (b a : Reg) (imm : Imm16) (off : Nat), t0.runner = some k → s.reg p k b = v →
      s.names p (s.reg p k a + imm.signExtend 64) off →
      (∀ i : Task16, off = 0x600100 + 8 * i →
        (field 31 28 = 1 → exec (.taskStart p i (.sd b a imm)) s = exec (.sd p b a imm) s) ∧
        (field 31 28 = 2 → exec (.taskStop p i (.sd b a imm)) s = exec (.sd p b a imm) s) ∧
        (field 31 28 = 3 → exec (.taskClearFault p i (.sd b a imm)) s = exec (.sd p b a imm) s)) ∧
      (∀ i : Fin 8, off = 0x600800 + 64 * i → exec (.pumpRingStore p i (.sd b a imm)) s = exec (.sd p b a imm) s) ∧
      (∀ i : Fin 16, off = 0x600A00 + 8 * i → bit n 0 = true → exec (.troughConfigure p i (.sd b a imm)) s = exec (.sd p b a imm) s) ∧
      (∀ i : Fin 16, ∀ upper : Bool, off = 0x600C00 + 16 * i + (if upper then 8 else 0) →
        exec (.counterStore p i upper (.sd b a imm)) s = exec (.sd p b a imm) s) ∧
      (∀ w : Fin 8, off = 0x600B00 + 16 * w →
        (field 7 4 = 1 → exec (.wellOpen p w (.sd b a imm)) s = exec (.sd p b a imm) s) ∧
        (field 7 4 = 2 → exec (.wellClose p w (.sd b a imm)) s = exec (.sd p b a imm) s) ∧
        (field 7 4 = 3 → exec (.wellReset p w (.sd b a imm)) s = exec (.sd p b a imm) s)))

/-- Releases and wakes (R57, R71, R74, R77, R191 to R194, R337, R367 to R369): a stalled task whose condition has cleared becomes Ready; a timer that
has come, and a maintenance request, latch their event in the tile's tasks and end the waits for it, a tile in T3 waking from the dark where a task of it
waits for the event; an expired watchdog sets the hang bit, restarts its period and is reported while the task goes on; the tile's clock follows the source
asked for; a well that has finished Resetting closes, or opens into its next generation, and the SEND that waited for it at the tile's head is
refused and counted (R196). -/
def Obligations.ReleasesAndWakes : Prop :=
  ∀ (s : State) (p : Phys),
    let t0 := s.tile p
    let apart (t : State) : Prop := (∀ q, q ≠ (p : Nat) → t.tile q = s.tile q) ∧
      ((t.tile p).beside = t0.beside)
    let wakes (c : Instr) (e : Nat) (f : State → Prop) : Prop :=
      (t0.power.state ≠ .t3 → ∃ t, exec c s = .next t ∧ (∀ j < 16, s.wokenBy t p e j) ∧ f t ∧ apart t) ∧
      (t0.power.state = .t3 → t0.meadow.isSome = true →
        (∃ j < 16, (t0.task j).state = .waiting ∧
          ((((t0.task j).pend ||| e) &&& 0x3F00 ||| t0.wellLevels) &&& ((t0.task j).waitMask.toNat &&& 0x2400 ||| 0x2000)) ≠ 0) →
        ∃ t, exec c s = .next t ∧ (t.tile p).power.state ≠ .t3 ∧ (t.tile p).power.wokeDark = true)
    (∀ (k : Task16) (r : Stall) (cleared : Prop), (t0.task k).state = .stalled → (t0.task k).stall = some r →
      t0.power.state ≠ .t2 → t0.power.state ≠ .t3 → t0.frozen = false →
      ((∃ off n, r = .load off n ∧ (cleared ↔ t0.anyRange off n .filling = false)) ∨
        (∃ off n, r = .store off n ∧ (cleared ↔ t0.anyRange off n .draining = false)) ∨
        (∃ n count, r = .pump n count ∧ (cleared ↔ count ≤ (t0.pump n).ringLen - (t0.pump n).ringUsed)) ∨
        (∃ mask, r = .waitany mask ∧ (cleared ↔ ∃ w < 8, mask.testBit w = true ∧ (t0.well w).state = .opened ∧ (t0.well w).msgs ≠ [])) ∨
        (∃ out, r = .token out ∧ (cleared ↔ t0.tokenReady out = true)) ∨
        (∃ amount order, r = .credit amount order ∧ (cleared ↔ t0.creditBefore k order + amount ≤ t0.power.balance)) ∨
        (∃ id, r = .release id ∧ (cleared ↔ (t0.range id).state ≠ .filling ∧ (t0.range id).state ≠ .draining)) ∨
        (∃ n, r = .swap n ∧ (cleared ↔ t0.troughBusy n = false))) → cleared →
      ∃ t, exec (.stallRelease p k) s = .next t ∧ (((t.tile p).task k).state = .ready ∨ ((t.tile p).task k).state = .running) ∧
        (∀ j, ((t.tile p).task j).work = (t0.task j).work) ∧ (t.tile p).seq.controls = t0.seq.controls ∧ apart t) ∧
    (t0.seq.timerArmed = true → t0.seq.timer ≤ s.now →
      wakes (.timerWake p) 0x400 fun t => (t.tile p).seq.timerArmed = false) ∧
    wakes (.maintenanceRequest p) 0x2000 (fun _ => True) ∧
    (∀ k : Task16, (t0.task k).wdEnable = true → 0 < t0.seq.wdPeriod →
      ((t0.task k).state = .ready ∨ (t0.task k).state = .running ∨ (t0.task k).state = .stalled) → t0.power.state ≠ .t3 →
      t0.seq.wdPeriod * 1000 ≤ s.now - (t0.task k).wdSince →
      (∀ g, t0.meadow = some g → s.obe Ob.job_state g = 2 → bit (s.obe Ob.hang_action g) 0 = false) →
      ∃ t, exec (.watchdogExpiry p k) s = .next t ∧ (t.tile p).seq.hang = true ∧
        (t.tile p).task k = { t0.task k with wdSince := s.now } ∧ (∀ j, j ≠ (k : Nat) → (t.tile p).task j = t0.task j) ∧
        (t.tile p).besides = t0.besides ∧ (∀ q, q ≠ (p : Nat) → t.tile q = s.tile q) ∧
        (s.boot.steward ≠ .restarting → ∃ r, t.errs.queue = s.errs.queue ++ [r] ∧ r.kind = 0x0400 ∧ r.phys = (p : Nat) ∧ r.task = (k : Nat))) ∧
    (t0.power.source ≠ t0.power.sourceNow → (t0.power.state = .t0 ∨ t0.power.state = .t1) →
      exec (.clockSourceSwitch p) s = .next (s.modTile p fun x => { x with power := { x.power with sourceNow := x.power.source } })) ∧
    (∀ w : Fin 8, (t0.well w).state = .resetting →
      let left (x : Well) : Well := if x.reopen then { x with state := .opened, gen := (x.gen + 1) % 256 } else { x with state := .closed }
      ((∀ x, s.headSend p = some x → bits x.2.h.arg0 14 12 ≠ w) →
        ∃ t, exec (.wellResettingDone p w) s = .next t ∧
          ((t.tile p).well w = left (t0.well w) ∧ ∀ m, m ≠ (w : Nat) → (t.tile p).well m = t0.well m) ∧
          storeFrame s t p fun x => { x with wells := [] }) ∧
      (∀ x, s.headSend p = some x → bits x.2.h.arg0 14 12 = w →
        ∃ t, exec (.wellResettingDone p w) s = .next t ∧ (t.tile p).well w = left (if x.2.h.arg1 ≤ s.now then
          { t0.well w with expired := ((t0.well w).expired + 1) % 65536 } else { t0.well w with refused := ((t0.well w).refused + 1) % 65536 })))

/-- Vector operations (R80, R81, R93, R96, R98, R99): an operation that its unit accepts and runs at once, over clean operands that its
results do not touch before they are read, writes each row of C, the result of the opcode on the row's operands element by element, in
the operation's output conversion (and D of VEXPSUB, one sum per row); it is finished with the outcome and the counts of its status record, and the
unit has freed its message. Nothing else changes. -/
def Obligations.VectorResults : Prop :=
  ∀ (s : State) (p : Phys) (w : Nat) (m : WellMsg) (rest : List WellMsg) (c : Instr) (val : Nat → Nat → Machine.Num),
    let o := UnitOp.ofMsg m
    let a (i j : Nat) := (s.aValues p o i).getD j .nan
    let b (i j : Nat) := (s.bValues p o i).getD j .nan
    let d (i j : Nat) := (s.dValues p o i).getD j .nan
    let y (i : Nat) := s.bElem p o i
    let x := decodeFloat b32 o.scalar
    let row (i : Nat) := (List.range o.cLen).map (val i)
    let writes (i : Nat) := (o.writeRow i 0 (row i) true).writes ++
      (if o.op = 0x5A then [(o.dAddr + i * (fmtWidth o.fmtC / 8), toLE (fmtWidth o.fmtC / 8) (convElem o.fmtC o.ieee (o.rnd i) (laneSum (row i)).v).raw)] else [])
    ((c = .vadd p ∧ o.op = 0x40 ∧ val = fun i j => (fadd (a i j) (b i j)).v) ∨
      (c = .vsub p ∧ o.op = 0x41 ∧ val = fun i j => (fadd (a i j) (b i j).neg).v) ∨
      (c = .vmul p ∧ o.op = 0x42 ∧ val = fun i j => (fmul (a i j) (b i j)).v) ∨
      (c = .vfma p ∧ o.op = 0x43 ∧ val = fun i j => (ffma (a i j) (b i j) (d i j)).v) ∨
      (c = .vmax p ∧ o.op = 0x44 ∧ val = fun i j => fmax (a i j) (b i j)) ∨
      (c = .vmin p ∧ o.op = 0x45 ∧ val = fun i j => fmin (a i j) (b i j)) ∨
      (c = .vscale p ∧ o.op = 0x46 ∧ val = fun i j => (fmul (a i j) x).v) ∨
      (c = .vadds p ∧ o.op = 0x47 ∧ val = fun i j => (fadd (a i j) x).v) ∨
      (c = .vabs p ∧ o.op = 0x48 ∧ val = fun i j => (a i j).abs) ∨
      (c = .vneg p ∧ o.op = 0x49 ∧ val = fun i j => (a i j).neg) ∨
      (c = .vexp2 p ∧ o.op = 0x50 ∧ val = fun i j => (fexp2 (a i j)).v) ∨
      (c = .vexp p ∧ o.op = 0x51 ∧ val = fun i j => (fexp (a i j)).v) ∨
      (c = .vlog2 p ∧ o.op = 0x52 ∧ val = fun i j => (flog2 (a i j)).v) ∨
      (c = .vlog p ∧ o.op = 0x53 ∧ val = fun i j => (flog (a i j)).v) ∨
      (c = .vrcp p ∧ o.op = 0x54 ∧ val = fun i j => (frcp (a i j)).v) ∨
      (c = .vrsqrt p ∧ o.op = 0x55 ∧ val = fun i j => (frsqrt (a i j)).v) ∨
      (c = .rsum p ∧ o.op = 0x58 ∧ val = fun i _ => (laneSum (s.aValues p o i)).v) ∨
      (c = .rmax p ∧ o.op = 0x59 ∧ val = fun i _ => laneMax (s.aValues p o i)) ∨
      (c = .vexpsub p ∧ o.op = 0x5A ∧ val = fun i j => (fexp (fadd (a i j) (y i).neg).v).v) ∨
      (c = .vmulrow p ∧ o.op = 0x5B ∧ val = fun i j => (fmul (a i j) (y i)).v) ∨
      (c = .cvt p ∧ o.op = 0x60 ∧ val = a) ∨
      (c = .vdot p ∧ o.op = 0x61 ∧ val = fun i j => (laneSum ((List.range o.k).map fun k => (fmul (a i k) (b j k)).v)).v)) →
    s.TakesNext p false w m rest → s.RunsAtOnce p false o →
    (∀ i < o.m, (∀ e ∈ o.rowReads i, s.readAbort p e = 0 ∧ (s.tile p).poison e.1 e.2 = 0) ∧
      ∀ x ∈ writes i, s.strictFault (s.tile p) x.1 x.2.length = false) →
    (∀ i j, i < j → j < o.m → ∀ x ∈ writes i, apartFrom x (o.rowNeeds j)) →
    ∃ t, exec c s = .next t ∧ s.Computed t p false w rest
      (o.finished s.now ((List.range o.m).foldl (fun st i => st.plus (o.rowChunk p i s).stats) {}) o.m) ((List.range o.m).flatMap writes)

/-- Tensor operations (R80, R81, R88, R90, R91, R93): an operation that its unit accepts and runs at once, over clean operands that its results
do not touch, writes C block by block: for MATMUL the exact sum of the products of row i of A and row j of B from zero or from the
seed record, for LACVT each record, both through the block-end checks and the output stage. It is finished with the outcome and the counts of
its status record, and the unit has freed its message. Nothing else changes. -/
def Obligations.TensorResults : Prop :=
  ∀ (s : State) (p : Phys) (w : Nat) (m : WellMsg) (rest : List WellMsg) (c : Instr) (sum : Nat → Nat → Acc),
    let o := UnitOp.ofMsg m
    let seed (i j : Nat) := s.seedRecord p o i j
    let cell (i j : Nat) : Acc × BlockEnd := if o.op = 1 then (sum i j, (sum i j).blockEnd o.w) else o.lacvtCell (seed i j)
    let reads (rows cols : Nat × Nat) := if o.op = 1 then o.matmulReads rows cols else o.lacvtReads rows cols
    let block (b : (Nat × Nat) × List (Nat × Nat)) := o.blockChunk (reads b.1) b.1 b.2 cell
    ((c = .matmul p ∧ o.op = 1 ∧ sum = fun i j => ((s.aValues p o i).zip (s.bValues p o j)).foldl (fun z ab => z.product o.w ab.1 ab.2)
        (if o.start = 1 then Acc.seed o.w (seed i j) else Acc.zero)) ∨
      (c = .lacvt p ∧ o.op = 2)) →
    s.TakesNext p true w m rest → s.RunsAtOnce p true o →
    (∀ b ∈ o.blocks, s.chunkClean p (block b)) →
    (∀ b ∈ o.blocks, ∀ x ∈ (block b).writes, apartFrom x o.readExtents) →
    ∃ t, exec c s = .next t ∧ s.Computed t p true w rest
      (o.finished s.now (o.blocks.foldl (fun st b => st.plus (block b).stats) {}) (o.blocks.foldl (fun n b => n + b.2.length) 0))
      (o.blocks.flatMap fun b => (block b).writes)

/-- Taking operations (R80, R82, R86, R87, R93): a unit that works and holds no waiting operation and no completion takes the next message of
its wells: an operation that it refuses is finished with outcome 3, its reason the lowest that applies, its status record made, and
reported; an accepted one waits behind the executing one, and one whose first block or row meets a Filling range with its reads or a Draining one
with its writes stalls there. No operand is read and no result written. -/
def Obligations.UnitTaking : Prop :=
  ∀ (s : State) (p : Phys) (tensor : Bool) (w : Nat) (m : WellMsg) (rest : List WellMsg) (c : Instr),
    let o := UnitOp.ofMsg m
    let u := (s.tile p).unit tensor
    let reason := o.refusal s p tensor
    let refused := { o with phase := .finished, outcome := 3, reason, status := statusRecord 3 reason 0 o.tag {}, writeStatus := !o.badStatus s p, finishedAt := s.now }
    takesOp c p tensor o.op → s.TakesNext p tensor w m rest → s.PlaneIdle p → (s.tile p).shadow.assigned = none →
    (∀ n, o.writePort = some n → (s.tile p).stream.stopped.contains n = false) →
    let took (u' : OpUnit) : Prop := ∃ t, exec c s = .next t ∧ (t.tile p).unit tensor = { u' with lastWell := w } ∧
      (t.tile p).unit (!tensor) = (s.tile p).unit (!tensor) ∧ (t.tile p).well w = { (s.tile p).well w with msgs := rest, lastTaken := s.now } ∧
      (∀ v, v ≠ w → (t.tile p).well v = (s.tile p).well v) ∧ (t.tile p).besidesUnit = (s.tile p).besidesUnit ∧
      (t.tile p).cistern = (s.tile p).cistern ∧ (∀ q, q ≠ (p : Nat) → t.tile q = s.tile q) ∧
      (reason = 0 → t.besidesTiles = s.besidesTiles) ∧
      (reason ≠ 0 → s.Reported t fun r => r.kind = 0x0201 ∧ r.phys = p ∧ r.detail = reason)
    (reason ≠ 0 → u.exec = none → took { u with exec := some refused }) ∧
    (reason ≠ 0 → u.exec ≠ none → took { u with waiting := some refused }) ∧
    (reason = 0 → u.exec ≠ none → took { u with waiting := some o }) ∧
    (∀ ch chs, s.opChunks p tensor o = ch :: chs → reason = 0 → u.exec = none → o.streams = false → s.chunkStalls p ch = true →
      took { u with exec := some { o with phase := .stalled } })

/-- The end of operations (R81, R82, R93, R94): a waiting operation starts once the executing one is finished and none of its results is an operand of
it, and a stalled one goes on; either does its blocks or rows in order until one meets a Filling range with its reads or a Draining one with its writes,
where it stalls with what it has done, or runs and is finished as R93 says. A finished operation ends, once its status record can be written: that
record is written, unless strict mode refuses the write, which aborts the operation with reason 0x22 (R114), the waiting one takes its place, its completion is counted, and placed in its well with the status record and the tile's own id, held while
that well is full, or counted lost and reported where the well is not Open or is another port's. A held completion is placed once its well has
room. -/
def Obligations.UnitEnds : Prop :=
  ∀ (s : State) (p : Phys) (x : UnitSel),
    let t0 := s.tile p
    let tensor := x == .tensor
    let u := t0.unit tensor
    let received (w : Well) (msg : Nat) : Well :=
      { w with msgs := w.msgs ++ [{ sender := t0.logical.getD 0xFFF, descs := [msg] }], placed := (w.placed + 1) % 65536, lastPlaced := s.now }
    s.PlaneIdle p →
    (∀ (c : Instr) (first : Bool) (o : UnitOp),
      ((c = .waitingOperationStart p x ∧ t0.works = true ∧ u.held = none ∧ o.phase = .waiting ∧ (if first then u.exec = some o else
          u.waiting = some o ∧ ∃ e, u.exec = some e ∧ e.phase = .finished ∧ o.dependsOn e = false)) ∨
        (c = .unitStallRelease p x ∧ t0.works = true ∧ o.phase = .stalled ∧ (if first then u.exec = some o else
          u.waiting = some o ∧ ∃ e, u.exec = some e ∧ e.phase ≠ .stalled))) →
      s.CleanOp p tensor o → o.reason = 0 → o.shadowed = false →
      let cs := s.opChunks p tensor o
      let done := s.doneChunks p tensor o
      let written := done.flatMap (·.writes)
      ∃ t o', exec c s = .next t ∧ (done = cs → o' = o.ran s.now cs) ∧ (done ≠ cs → ∃ rows, o' = o.paused done rows) ∧ (t.tile p).unit tensor = (if first then { u with exec := some o' } else { u with waiting := some o' }) ∧
        (t.tile p).unit (!tensor) = t0.unit (!tensor) ∧ (t.tile p).cistern = written.foldl (fun m w => m.writeBytes w.1 w.2) t0.cistern ∧
        { (t.tile p).besidesUnit with wells := t0.wells } = { t0.besidesUnit with wells := t0.wells } ∧ (t.tile p).wells = t0.wells ∧
        (∀ q, q ≠ (p : Nat) → t.tile q = s.tile q) ∧ t.besidesTiles = s.besidesTiles) ∧
    (∀ o, u.exec = some o → o.phase = .finished → t0.shadowHolds o = false → t0.statusStalls o = false → u.held = none →
      (∀ g, t0.meadow = some g → s.regions g = []) →
      (bit o.desc 132 = true → (t0.counter (bits o.desc 131 128)).stopped = false ∧ (t0.counter (bits o.desc 131 128)).reached = false) →
      let w := bits o.desc 136 134
      let refused := o.writeStatus && s.strictFault t0 o.statusAddr 32
      let status := if refused ∧ o.outcome ≠ 3 then setBits (setBits o.status 7 0 4) 15 8 0x22 else o.status
      let posts := bit o.desc 133 = true ∧ (t0.well w).state = .opened ∧ (t0.well w).binding = 0
      let ends (held : Option Completion) (f : State → Prop) : Prop := ∃ t, exec (.unitCompletion p x) s = .next t ∧
        ((t.tile p).unit tensor = { u with exec := u.waiting, waiting := none, held := held, heldStreams := false } ∧
          (t.tile p).cistern = (if o.writeStatus ∧ ¬ refused then t0.cistern.writeBytes o.statusAddr (toLE 32 o.status) else t0.cistern) ∧
          (held = none → bit o.desc 132 = true → ((t.tile p).counter (bits o.desc 131 128)).count =
            ((t0.counter (bits o.desc 131 128)).count + 1) % 2 ^ 32)) ∧
        f t ∧ (∀ q, q ≠ (p : Nat) → t.tile q = s.tile q)
      (bit o.desc 133 = false → ends none fun t => (t.tile p).wells = t0.wells) ∧
      (posts → (t0.well w).entries < 16 → ends none fun t => (t.tile p).well w = received (t0.well w) status) ∧
      (posts → 16 ≤ (t0.well w).entries → ends (some { msg := status, counter := if bit o.desc 132 then some (bits o.desc 131 128) else none, well := some w })
        fun t => (t.tile p).wells = t0.wells) ∧
      (bit o.desc 133 = true → ((t0.well w).state ≠ .opened ∨ (t0.well w).binding ≠ 0) → ends none fun t =>
        ((t.tile p).well w = { t0.well w with lost := ((t0.well w).lost + 1) % 65536 }) ∧
        ((refused → o.outcome = 3) → s.Reported t fun r => r.kind = 0x0204 ∧ r.phys = p ∧ r.detail = w)) ∧
      (bit o.desc 133 = false → bit o.desc 132 = false → refused → o.outcome ≠ 3 → ends none fun t =>
        s.Reported t fun r => r.kind = 0x0202 ∧ r.phys = p ∧ r.opValid = true ∧ r.tag = o.tag ∧ r.detail = 0x22)) ∧
    (∀ c w, u.held = some c → c.well = some w → (t0.well w).state = .opened → (t0.well w).binding = 0 → (t0.well w).entries < 16 →
      ∃ t, exec (.unitCompletionPlaced p x) s = .next t ∧ (∀ q, q ≠ (p : Nat) → t.tile q = s.tile q) ∧
        ((t.tile p).unit tensor = { u with held := none, heldStreams := false } ∧
          (t.tile p).well w = received (t0.well w) c.msg ∧
          (∀ v, v ≠ w → (t.tile p).well v = t0.well v)))

/-- Pumps at work (R109, R110, R115, R116, R118 to R121): the pump's next descriptor starts unless marks posted before it hold it back: a local copy
or fill moves its runs in the order of R116, and a remote one gives its packets to the network interface, which refuses a target that is the meadow's no
more and thereby ends the descriptor with error 0x03 (log entry 48). A started descriptor whose packets are all done
with completes: its fill mark ends in Full, or Void with an error, its drain mark goes, the pump counts it and records its error, which is
reported. Held completions are placed once there is room. Pump 7 posts the descriptors of its well's message that pass validation, and refuses the others. -/
def Obligations.PumpEvents : Prop :=
  ∀ (s : State) (p : Phys) (n : Fin 8),
    let t0 := s.tile p
    let u := t0.pump n
    let others (t : State) : Prop := ∀ q, q ≠ (p : Nat) → t.tile q = s.tile q
    (∀ j, s.nextJob p n = some j → t0.works = true → t0.marksHold s.variant j = true →
      ∃ t, exec (.pumpDescriptorStart p n) s = .next t ∧
        (t.tile p).pump n = { u with jobs := u.jobs.map fun k => if k.stamp = j.stamp then { k with blockedAt := some (k.blockedAt.getD s.now) } else k } ∧
        (∀ m, m ≠ (n : Nat) → (t.tile p).pump m = t0.pump m) ∧ { t.tile p with pumps := [] } = { t0 with pumps := [] } ∧ others t) ∧
    (∀ j dst, s.nextJob p n = some j → t0.works = true → t0.marksHold s.variant j = false → (∀ g, t0.meadow = some g → s.regions g = []) →
      (t0.dstOffset s.variant j.desc).isSome = true → dst = (j.dst : Int) →
      let moved (f : Mem → Int → Bytes) := (dRuns j.desc).foldl (fun (m : Mem) r => m.writeBytes (dst + r.2).toNat (f m r.1)) t0.cistern
      let started (drained : Bool) (k : PumpJob) : PumpJob :=
        { k with started := true, startTime := s.now, drained, err := k.err, okBytes := (dRuns j.desc).length * dRun j.desc, stopped := false, outstanding := [], blockedAt := none }
      let runs (cistern : Mem) (drained : Bool) : Prop := ∃ t, exec (.pumpDescriptorStart p n) s = .next t ∧ (t.tile p).cistern = cistern ∧
        ((t.tile p).pump n).jobs = u.jobs.map (fun k => if k.stamp = j.stamp then started drained k else k) ∧
        (∀ r, (t.tile p).range r = if drained ∧ j.srcRange = some r then (t0.range r).endDrain j.stamp else t0.range r) ∧
        { t.tile p with cistern := [], ecc := {}, dirty := [], pumps := [], ranges := [] } = { t0 with cistern := [], ecc := {}, dirty := [], pumps := [], ranges := [] } ∧
        others t ∧ t.besidesTiles = s.besidesTiles
      (∀ src : Nat, t0.srcOffset s.variant j.desc = some src →
        (∀ r ∈ dRuns j.desc, t0.poison ((src : Int) + r.1).toNat (dRun j.desc) = 0 ∧ t0.anyRange ((src : Int) + r.1).toNat (dRun j.desc) .void = false) →
        runs (moved fun m x => m.readBytes ((src : Int) + x).toNat (dRun j.desc)) true) ∧
      (dMode j.desc = 1 → runs (moved fun _ _ => List.replicate (dRun j.desc) 0) false)) ∧
    (∀ j a, s.nextJob p n = some j → t0.works = true → t0.marksHold s.variant j = false → dRuns j.desc = [(0, 0)] →
      remotePieces a 0 (dRun j.desc) = [(0, dRun j.desc)] →
      let out (x : Target) (off : Option Nat) (k : Packet) : Prop :=
        ∃ t, exec (.pumpDescriptorStart p n) s = .next t ∧ t.pkt s.nextPkt = some k ∧ (∀ m, m ≠ s.nextPkt → t.pkt m = s.pkt m) ∧
          k.h.cls = x.cls ∧ k.h.dst = x.dst ∧ k.h.dstKind = x.dstKind ∧ k.h.addr = x.addr ∧ k.h.flow = n ∧ k.h.tag = s.nextPkt ∧ k.loc = .ni ∧ k.issuer = (p : Nat) ∧
          ((t.tile p).pump n).jobs = u.jobs.map (fun k => if k.stamp = j.stamp then { k with started := true, startTime := s.now, drained := off.isSome, err := k.err, okBytes := (if off.isSome ∧ x.cls = 3 then dRun j.desc else 0), stopped := false, outstanding := [s.nextPkt], blockedAt := none } else k) ∧
          (t.tile p).cistern = t0.cistern ∧ others t
      (dMode j.desc = 0 → t0.srcOffset s.variant j.desc = none → (t0.dstOffset s.variant j.desc).isSome = true →
        parseFab s.variant (dSrc j.desc) = some a → ∀ x, s.target t0 a 0 = some x → x.reduce = false →
        ∃ k, out x none k ∧ k.h.op = 0x01 ∧ k.h.arg0 = dRun j.desc ∧ k.data = [] ∧ k.landing = j.dst ∧ k.want = dRun j.desc) ∧
      (∀ off, t0.srcOffset s.variant j.desc = some off → t0.dstOffset s.variant j.desc = none → parseFab s.variant (dDst j.desc) = some a →
        t0.poison off (dRun j.desc) = 0 → t0.anyRange off (dRun j.desc) .void = false → ∀ x, s.target t0 a 0 = some x →
        ∃ k, out x (some off) k ∧ k.h.op = (if x.reduce then 0x04 else 0x02) ∧ k.data = s.cisternRead p off (dRun j.desc)))

/-- Ends of descriptors and scrubbing (R103, R104, R109, R113, R118 to R121): a started descriptor whose packets are all done with completes: its fill mark
ends in Full, or Void with an error, its drain mark goes and leaves the range Empty where it consumes, the pump counts its bytes, records and
reports its error, and its ring head passes over it. A held completion is placed once its well has room. Pump 7 posts a descriptor of its well's message
that passes validation, and refuses another with error 0x03. A corrected word is written back; the patrol scrub corrects a line and goes on to the next. -/
def Obligations.PumpCompletions : Prop :=
  ∀ (s : State) (p : Phys),
    let t0 := s.tile p
    let others (t : State) : Prop := ∀ q, q ≠ (p : Nat) → t.tile q = s.tile q
    (∀ (n : Fin 8) (i : Nat) (j : PumpJob), (t0.pump n).jobs[i]? = some j → j.started = true → (∀ k ∈ j.outstanding, s.packetDone k = true) →
      let u := t0.pump n
      let ended (r : Nat) (x : Range) : Range := if j.dstRange = some r then x.endFill j.stamp j.err else x
      let drained (r : Nat) (x : Range) : Range := if j.srcRange = some r then
        (if j.err = 0 ∧ dConsume j.desc = true then (x.endDrain j.stamp).consumed j.stamp else x.endDrain j.stamp) else x
      ∃ t, exec (.pumpDescriptorComplete p n i) s = .next t ∧ others t ∧
        ((∀ r, (t.tile p).range r = drained r (ended r (t0.range r))) ∧
          ((t.tile p).pump n).jobs = u.jobs.filter (fun k => k.stamp != j.stamp) ∧ ((t.tile p).pump n).bytesMoved = (u.bytesMoved + j.okBytes) % 2 ^ 64 ∧
          ((t.tile p).pump n).error = (u.error || j.err != 0) ∧ ((t.tile p).pump n).lastErr = (if j.err = 0 then u.lastErr else j.err) ∧
          ((t.tile p).pump n).lastErrSlot = (if j.err = 0 then u.lastErrSlot else j.slot) ∧ ((t.tile p).pump n).tail = u.tail ∧
          (j.slot = u.head → u.doneSlots = [] → 0 < u.ringLen → j.slot ≠ 0xFFFF → ((t.tile p).pump n).head = (u.head + 1) % u.ringLen) ∧
          (∀ m, m ≠ (n : Nat) → (t.tile p).pump m = t0.pump m)) ∧
        (j.err ≠ 0 → j.dstRange = none → bit j.desc 386 = false → bit j.desc 390 = false →
          s.Reported t fun r => r.kind = 0x0203 ∧ r.phys = p ∧ r.detail = j.err)) ∧
    (∀ (n : Fin 8) c w, (t0.pump n).held = [c] → c.well = some w → (t0.well w).state = .opened → (t0.well w).binding = 0 → (t0.well w).entries < 16 →
      ∃ t, exec (.pumpCompletionPlaced p n) s = .next t ∧ others t ∧
        (((t.tile p).pump n).held = [] ∧ ((t.tile p).pump n).jobs = (t0.pump n).jobs ∧
          ((t.tile p).well w).msgs = (t0.well w).msgs ++ [{ sender := t0.logical.getD 0xFFF, descs := [c.msg] }] ∧
          (∀ v, v ≠ w → (t.tile p).well v = t0.well v))) ∧
    (∀ w m rest d, t0.pumpWell = some w → t0.works = true → (t0.well w).msgs = m :: rest → m.descs = [d] →
      (s.descFault t0 d [] [] = none →
        ∃ t, exec (.wellFedDescriptor p) s = .next t ∧ others t ∧
          ((t.tile p).well w = { t0.well w with msgs := rest, lastTaken := s.now } ∧
            ((t.tile p).pump 7).jobs.map (fun j => (j.desc, j.slot)) = (t0.pump 7).jobs.map (fun j => (j.desc, j.slot)) ++ [(d, 0xFFFF)] ∧
            (∀ r, ((t.tile p).range r).fills.length = (t0.range r).fills.length + (if t0.fillRange d = some r then 1 else 0)) ∧
            (∀ r, ((t.tile p).range r).drains.length = (t0.range r).drains.length + (if drainRange d = some r then 1 else 0)))) ∧
      (s.descFault t0 d [] [] ≠ none → bit d 390 = false →
        ∃ t, exec (.wellFedDescriptor p) s = .next t ∧ others t ∧
          ((t.tile p).well w = { t0.well w with msgs := rest, lastTaken := s.now } ∧
            ((t.tile p).pump 7).jobs = (t0.pump 7).jobs ∧ ((t.tile p).pump 7).error = true ∧ ((t.tile p).pump 7).lastErr = 0x03 ∧
            ((t.tile p).pump 7).lastErrSlot = 0xFFFF ∧ (t.tile p).ranges = t0.ranges) ∧
          (s.Reported t fun r => r.kind = 0x0203 ∧ r.phys = p ∧ r.detail = 0x03))) ∧
    (∀ word, word ∈ t0.ecc.writeBack →
      ∃ t, exec (.scrubWriteBack p word) s = .next t ∧ others t ∧
        Tbl.get 0 (t.tile p).ecc.cistern word = (if Tbl.get 0 t0.ecc.cistern word = 1 then 0 else Tbl.get 0 t0.ecc.cistern word) ∧
        (∀ v, v ≠ word → Tbl.get 0 (t.tile p).ecc.cistern v = Tbl.get 0 t0.ecc.cistern v) ∧
        (t.tile p).ecc.writeBack = t0.ecc.writeBack.filter (fun v => v != word) ∧ { t.tile p with ecc := {} } = { t0 with ecc := {} } ∧
        t.besidesTiles = s.besidesTiles) ∧
    (t0.power.state ≠ .t3 → t0.ecc.lastScrub + 160000000 ≤ s.now →
      let line := t0.ecc.scrubRow
      ∃ t, exec (.patrolScrub p) s = .next t ∧ others t ∧ (t.tile p).ecc.lastScrub = s.now ∧
        (t.tile p).ecc.scrubRow = (line + 1) % cisternLines s.variant ∧ (t.tile p).cistern = t0.cistern ∧
        (∀ i < 8, Tbl.get 0 (t.tile p).ecc.cistern (8 * line + i) =
          (if Tbl.get 0 t0.ecc.cistern (8 * line + i) = 1 then 0 else Tbl.get 0 t0.ecc.cistern (8 * line + i))) ∧
        (∀ v, v / 8 ≠ line → Tbl.get 0 (t.tile p).ecc.cistern v = Tbl.get 0 t0.ecc.cistern v))

/-- Words on the stream switch (R133, R140 to R143, R145, R150, R152, R158): the word at the head of an input goes on to the one entry that the
input feeds, and leaves the input; the counters that tap it count it. Through an output entry it enters the neighbouring tile's input. At the fold sink or the
barrier sink a data word is counted; END_STEP, DRAIN and an end word are recorded as the sink's, an argument that is not the step number, or a count that is not
the words', reported; an end word's count starts again; FOLD takes up the pending FOLD or the slot it names, which must be loaded; BARRIER sends the tile's
contribution where the barrier is enabled; every other token only leaves. -/
def Obligations.StreamTokens : Prop :=
  ∀ (s : State) (c : Instr) (p : Phys) (i : StreamInput) (w : StreamWord) (rest : List StreamWord) (e k : Nat), passesOn c p i w → s.WordAt p i w rest e k →
    let t0 := s.tile p
    let key := inKey i.cls i.idx
    let left (x : Stream) : Stream := { x with inQ := x.inQ.put [] key rest }
    let goes (x : Stream) (f : State → Prop) : Prop := ∃ t, exec c s = .next t ∧ f t ∧
      ((t.tile p).stream = x ∧
        (∀ n, ((t.tile p).counter n).count = if n ∈ t0.tapped key w then ((t0.counter n).count + 1) % 2 ^ 32 else (t0.counter n).count) ∧
        (t.tile p).cistern = t0.cistern ∧ (t.tile p).wells = t0.wells ∧ (t.tile p).ranges = t0.ranges ∧ (t.tile p).pumps = t0.pumps)
    (∀ q dkey, s.destOf p e k = .lane q dkey → q ≠ p → s.destRoom p (.lane q dkey) = true → t0.slackQueue (8 * e + k) = [] →
      goes (left t0.stream) fun t => t.tile q = (s.tile q).setIn dkey ((s.tile q).inQueue dkey ++ [w]) ∧
        (∀ r, r ≠ (p : Nat) → r ≠ q → t.tile r = s.tile r) ∧ t.errs = s.errs ∧ t.net = s.net) ∧
    (∀ sink, (sink = 16 ∨ sink = 17) → s.destOf p e k = .sink (8 * sink) → t0.sinkClosed sink = false →
      let took (x : Stream) (f : State → Prop) : Prop := goes (left x) fun t => f t ∧ ∀ r, r ≠ (p : Nat) → t.tile r = s.tile r
      let silent (t : State) : Prop := t.errs = s.errs ∧ t.net = s.net
      let reports (kind detail : Nat) (t : State) : Prop := (s.Reported t fun r => r.kind = kind ∧ r.phys = p ∧ r.detail = detail) ∧ t.net = s.net
      let ended (how : Nat) : Stream := { t0.stream with sinkEnd := t0.stream.sinkEnd.put 0 sink how }
      (∀ v, w = .data v → took { t0.stream with sinkCount := t0.stream.sinkCount.put 0 (8 * sink) ((Tbl.get 0 t0.stream.sinkCount (8 * sink) + 1) % 2 ^ 32) } silent) ∧
      (∀ arg, w = .token 3 arg → took (ended 1) (if arg = s.stepOf p % 65536 then silent else reports 0x0209 arg)) ∧
      (∀ arg, w = .token 5 arg → took (ended 2) silent) ∧
      (∀ n, w = .endWord n → took { ended 3 with sinkCount := t0.stream.sinkCount.put 0 (8 * sink) 0 }
        (if bit (t0.entry (40 + sink)) 18 = true ∧ n ≠ Tbl.get 0 t0.stream.sinkCount (8 * sink) % 2 ^ 32 then reports 0x0206 n else silent)) ∧
      (∀ op arg, w = .token op arg → op ≠ 3 → op ≠ 5 → ¬ (sink = 16 ∧ op = 6) → ¬ (sink = 17 ∧ op = 7 ∧ (t0.barrier (arg % 16)).enable = true) →
        took t0.stream silent) ∧
      (∀ arg, w = .token 6 arg → sink = 16 →
        (t0.stream.folds ≠ [] → took { t0.stream with folding := true } silent) ∧
        (t0.stream.folds = [] → t0.slotLoaded (arg % 8) = true →
          took { t0.stream with folds := [{ slot := arg % 8, atQuiet := false, task := none }], folding := true } silent) ∧
        (t0.stream.folds = [] → t0.slotLoaded (arg % 8) = false → took t0.stream (reports 0x0208 (arg % 8)))) ∧
      (∀ arg b g, w = .token 7 arg → sink = 17 → b = arg % 16 → (t0.barrier b).enable = true → t0.meadow = some g →
        took t0.stream fun t => t.errs = s.errs ∧
          ((t.tile p).barrier b = { t0.barrier b with arrivals := ((t0.barrier b).arrivals + 1) % 65536 }) ∧
          ∃ x, t.pkt s.nextPkt = some x ∧ (∀ m, m ≠ s.nextPkt → t.pkt m = s.pkt m) ∧ x.h.cls = 3 ∧ x.h.op = 0x04 ∧ x.h.dstKind = 1 ∧ x.h.dst = 0 ∧
            x.h.addr = 4 * 2 ^ 60 + 4 * 2 ^ 44 + (0xFFFFFF00 + g) * 2 ^ 12 + 8 * (1 + b) ∧ x.h.arg0 = 1 + 8 * 2 ^ 32 ∧
            x.h.arg1 = (t0.barrier b).expected + (t0.barrier b).gen * 2 ^ 16 ∧ x.data = toLE 8 1 ∧ x.issuer = (p : Nat)))

/-- Steering units, counters and folds (R145, R147 to R150): a firing takes the word at its data input, its control word with it unless
that is fixed, and emits it as its kind says; where it works on rows, the item goes on until its end. At structural words on all its inputs the unit consumes them and
emits one on each output it uses; unlike ones are reported. A counter at its end emits, wakes, reloads or stops; an emission goes out as its token. A fold
switches to its slot at quiet, its counters begin anew, and the FOLD's task receives the previous slot. -/
def Obligations.StreamUnits : Prop :=
  ∀ (s : State) (p : Phys),
    let t0 := s.tile p
    let others (t : State) : Prop := ∀ q, q ≠ (p : Nat) → t.tile q = s.tile q
    let sent (t : Tile) (n : Nat) : List StreamWord := t.inQueue (inKey 5 n)
    (∀ (u : Fin 4) w q k o n, s.PlaneStill p →
      let c := t0.steer u
      1 ≤ steerKind c → steerKind c ≤ 4 → w.isStructural = false → (∀ x, o = some x → t0.sourceReady (8 + 2 * u + x) = true ∧ t0.sourceGang (8 + 2 * u + x) = 1) →
      let emitted (t : State) : Prop := (∀ x, o = some x → sent (t.tile p) (8 + 2 * u + x) = sent t0 (8 + 2 * u + x) ++ List.replicate n w) ∧
        (∀ key, (∀ x, o = some x → key ≠ inKey 5 (8 + 2 * u + x)) → (t.tile p).inQueue key = t0.inQueue key)
      (∀ sink, Tbl.get none t0.stream.rows u = some ⟨sink, o⟩ → t0.sinkQueue (8 * sink) = w :: q → n = 1 → 4 ≤ sink →
        ∃ t, exec (.steerFire p u) s = .next t ∧ others t ∧ (emitted t ∧ (t.tile p).sinkQueue (8 * sink) = q ∧
          (∀ key, key ≠ 8 * sink → (t.tile p).sinkQueue key = t0.sinkQueue key) ∧
          Tbl.get none (t.tile p).stream.rows u = if w.endsRow then none else some ⟨sink, o⟩)) ∧
      (∀ v, Tbl.get none t0.stream.rows u = none → t0.steerValue u = some v → steerAction (steerKind c) v = (k, o, n) → t0.sinkQueue (steerKey u k) = w :: q →
        ∃ t, exec (.steerFire p u) s = .next t ∧ others t ∧ (emitted t ∧ (t.tile p).sinkQueue (steerKey u k) = q ∧
          (steerFixed c = false → (t.tile p).sinkQueue (steerKey u 2) = (t0.sinkQueue (steerKey u 2)).drop 1) ∧
          (∀ key, key ≠ steerKey u k → key ≠ steerKey u 2 → (t.tile p).sinkQueue key = t0.sinkQueue key) ∧
          Tbl.get none (t.tile p).stream.rows u = if steerRow c = true ∧ w.endsRow = false then some ⟨4 + 3 * u + k, o⟩ else none))) ∧
    (∀ (u : Fin 4) (f : Nat → StreamWord), s.PlaneStill p → 1 ≤ steerKind (t0.steer u) → steerKind (t0.steer u) ≤ 4 →
      (∀ k ∈ steerInputs (t0.steer u), ((t0.sinkQueue (steerKey u k)).head? = some (f k)) ∧ (f k).isStructural = true) →
      ((∃ k ∈ steerInputs (t0.steer u), (f k).sameKind (f 0) = false) →
        ∃ t, exec (.steerStructural p u) s = .next t ∧ (∀ q, t.tile q = s.tile q) ∧ s.Reported t fun r => r.kind = 0x0207 ∧ r.phys = p ∧ r.detail = u) ∧
      (∀ op arg, f 0 = .token op arg → (∀ k ∈ steerInputs (t0.steer u), (f k).sameKind (f 0) = true) →
        (∀ o ∈ [0, 1], t0.sourceUsed (8 + 2 * u + o) = true → t0.sourceReady (8 + 2 * u + o) = true ∧ t0.sourceGang (8 + 2 * u + o) = 1) →
        ∃ t, exec (.steerStructural p u) s = .next t ∧ others t ∧ ((∀ k ∈ steerInputs (t0.steer u), (t.tile p).sinkQueue (steerKey u k) = (t0.sinkQueue (steerKey u k)).drop 1) ∧
          ∀ o ∈ [0, 1], sent (t.tile p) (8 + 2 * u + o) = sent t0 (8 + 2 * u + o) ++ (if t0.sourceUsed (8 + 2 * u + o) = true then [f 0] else [])))) ∧
    (∀ n : Fin 16, (t0.counter n).reached = true →
      let c := t0.counter n
      ∃ t, exec (.counterTerminal p n) s = .next t ∧ others t ∧
        ((t.tile p).counter n = { c with
            reached := false, pending := (if c.opcode = 0 ∨ c.pending = 255 then c.pending else c.pending + 1)
            overflow := (c.overflow || (c.opcode != 0 && c.pending == 255)), count := (if c.reload then 0 else c.count), stopped := !c.reload } ∧
          (∀ m, m ≠ (n : Nat) → (t.tile p).counter m = t0.counter m)) ∧
        (c.wake = true → ∀ j < 16, (t0.task j).state ≠ .idle → (t0.task j).state ≠ .waiting → ((t.tile p).task j).pend = (t0.task j).pend ||| 0x200) ∧
        (c.opcode ≠ 0 → c.pending = 255 → c.wake = false → s.Reported t fun r => r.kind = 0x0205 ∧ r.phys = p ∧ r.detail = n)) ∧
    (∀ n : Fin 16, s.PlaneStill p → (t0.counter n).pending ≠ 0 → t0.sourceReady (16 + n) = true → t0.sourceGang (16 + n) = 1 →
      ∃ t, exec (.counterEmission p n) s = .next t ∧ others t ∧ t.errs = s.errs ∧
        ((t.tile p).counter n = { t0.counter n with pending := (t0.counter n).pending - 1 } ∧
          sent (t.tile p) (16 + n) = sent t0 (16 + n) ++ [.token (t0.counter n).opcode (t0.counter n).arg])) ∧
    (∀ f fs, s.PlaneStill p → t0.stream.sinkQ = [] → t0.stream.folds = f :: fs → t0.folding = true → t0.quiet = true → t0.allStopped = true →
      ∃ t, exec (.foldSwitch p) s = .next t ∧ others t ∧
        ((t.tile p).stream.slot = f.slot ∧ (t.tile p).stream.folds = fs ∧ (t.tile p).stream.folding = false ∧
          (∀ n < 16, (t.tile p).counter n = t0.initialCounter f.slot n)) ∧
        (∀ k d, f.task = some (k, d) → k < 16 → (t0.task k).state = .stalled → (t0.task k).stall = some (.fold d) → (t0.task k).pc ≠ 0xFFFC#16 →
          (∀ n < 16, (t0.counter n).reached = true → (t0.counter n).wake = false) →
          ((t.tile p).task k).work = { ((t0.task k).setReg d (BitVec.ofNat 64 t0.stream.slot)).work with pc := (t0.task k).pc + 4 }))

/-- A step takes the command at the front of the queue: it is that command carried out on the state with the queue's rest. -/
def Obligations.StepRunsFront : Prop :=
  ∀ (s : State) (c : Instr) (rest : List Instr), s.pending = c :: rest → step s = exec c { s with pending := rest }

/-- On an empty queue the block idles, where no tile is entering a power state, for one nanosecond of fabric time (R10; that it does so is the model's choice, log entry 3): the time goes on by one,
or by two or none in the 5,000th nanosecond of a slew, which is 200 ppm (R237); nothing else changes. -/
def Obligations.IdleStepPassesTime : Prop :=
  ∀ (s : State), s.pending = [] → s.now + 2 < 2 ^ 64 → s.slewPhase < 5000 → (∀ x ∈ s.tiles, x.2.power.entering = none) →
    ∃ t, step s = .next t ∧ { t with now := 0, slew := 0, slewPhase := 0 } = { s with now := 0, slew := 0, slewPhase := 0 } ∧ s.now ≤ t.now ∧
      (s.slew = 0 → t.now = s.now + 1 ∧ t.slew = 0) ∧ (s.slewPhase < 4999 → t.now = s.now + 1 ∧ t.slew = s.slew) ∧
      (s.slew ≠ 0 → s.slewPhase = 4999 → t.slewPhase = 0 ∧ (t.now : Int) - s.now + t.slew = 1 + s.slew ∧ t.slew.natAbs + 1 = s.slew.natAbs)

/-- What reset leaves, where the spec says it (R53 to R55, R76 to R79, R144, R206, R210, R236, R237, R255, R269, R274, R373, R374, R394): tasks are Idle, no sequencer runs, its
watchdog period is 1,000 and its SENDT default 500; objects read the reset values of their tables; the TAP is in Test-Logic-Reset; no transaction is open.
The rest of the state after reset is the model's choice (log entry 5). -/
def Obligations.ResetState : Prop :=
  let s := State.reset
  s.pending = [] ∧
  (∀ p < 4608, (∀ k < 16, ((s.tile p).task k).state = .idle ∧ ((s.tile p).task k).pc = 0 ∧ ∀ r : Reg, ((s.tile p).task k).reg r = 0) ∧
    (s.tile p).seq.run = false ∧ (s.tile p).seq.wdPeriod = 1000 ∧ (s.tile p).seq.sendDefault = 500 ∧ (s.tile p).logical = none ∧
    (∀ n < 64, ((s.tile p).range n).claimed = false) ∧ (∀ n < 8, ((s.tile p).pump n).ringLen = 0 ∧ ((s.tile p).well n).msgs = []) ∧
    (∀ n < 16, ((s.tile p).counter n).tapMode = 0 ∧ ((s.tile p).barrier n).enable = false)) ∧
  (∀ e < 32, s.obe Ob.role_id e = 0xFFFF ∧ s.obe Ob.port_state e = 0) ∧ (∀ e < 4096, s.obe Ob.peer_endpoint e = 0xFFFFFFFF ∧ s.obe Ob.peer_state e = 0) ∧
  (∀ e < 256, s.obe Ob.step_number e = 0) ∧ s.ob Ob.alert_mask = 0x1F ∧ s.ob Ob.alert_cause = 0 ∧ s.ob Ob.drain_timeout = 200 ∧ s.ob Ob.epoch_retire_limit = 10000 ∧
  s.ob Ob.rto_base = 20 ∧ s.ob Ob.retry_limit = 8 ∧ s.ob Ob.port_fence = 0 ∧ s.ob Ob.fm_session_idle = 60000 ∧ s.ob Ob.txn_idle = 10000 ∧ s.ob Ob.route_epoch = 0 ∧
  s.ob Ob.bringup_stage = 0 ∧ s.ob Ob.power_limit = 1250 ∧ s.ob Ob.temp_target = 90 ∧ s.ob Ob.module_state = 0 ∧ s.ob Ob.upd_state = 0 ∧
  s.pins.tap.instr = .reset ∧ s.errs.queue = [] ∧ (∀ n, s.pkt n = none)

/-- Every well-formed command completes: whatever the state, it is neither refused nor does it fault, and the commands that wait behind it stay as they are. -/
def Obligations.WellFormedCommandsComplete : Prop :=
  ∀ (c : Instr) (s : State), c.wf = true → ∃ t, exec c s = .next t ∧ t.pending = s.pending

/-- Fuses only burn (R269, R299, R383): from every state whose fused values fit their fuses, a step keeps the variant, does not lower the security version nor raise
a die's repair budget, and leaves fused values that fit. -/
def Obligations.FusesOnlyBurn : Prop :=
  ∀ (s t : State), s.FusesFit → step s = .next t →
    t.FusesFit ∧ t.fused.variant = s.fused.variant ∧ s.fused.security ≤ t.fused.security ∧
    ∀ d, Tbl.get 2048 t.fused.budget d ≤ Tbl.get 2048 s.fused.budget d

/-- After reset the fused values fit their fuses. -/
def Obligations.FusesFitAtReset : Prop := State.reset.FusesFit

/-- The corners of division (R61): the quotient of a division by zero is all ones and its remainder the dividend, signed or unsigned, and the task goes
on at the next word without a fault; signed division of −2^63 by −1 gives the quotient −2^63 and the remainder 0. The frame is that of register arithmetic. -/
def Obligations.DivisionCorners : Prop :=
  ∀ (s : State) (p : Phys) (k : Nat) (d a b : Reg), s.issues p k → s.pcInside p k →
    let writes (c : Instr) (v : Word) : Prop := ∃ t, exec c s = .next t ∧ s.Wrote t p k d v (s.nextPc p k)
    (s.reg p k b = 0 →
      writes (.div p d a b) (BitVec.allOnes 64) ∧ writes (.divu p d a b) (BitVec.allOnes 64) ∧
      writes (.rem p d a b) (s.reg p k a) ∧ writes (.remu p d a b) (s.reg p k a)) ∧
    ((s.reg p k a).toInt = -2 ^ 63 → (s.reg p k b).toInt = -1 →
      writes (.div p d a b) (BitVec.ofInt 64 (-2 ^ 63)) ∧ writes (.rem p d a b) 0)

/-- Words at a steering unit's control input (R148): a SELECT token and a data word join its queue, and at the head of it give the token's argument or bits
[15:0] of the word as the control value, unless control is fixed; END_ROW, END_BLOCK and user tokens are consumed and counted in steer_discard, and nothing
fires: no input, output or row item of a steering unit changes. -/
def Obligations.ControlInputWords : Prop :=
  ∀ (s : State) (c : Instr) (p : Phys) (i : StreamInput) (w : StreamWord) (rest : List StreamWord) (e k : Nat) (u : Fin 4),
    passesOn c p i w → s.WordAt p i w rest e k → s.destOf p e k = .sink (steerKey u 2) → (s.tile p).sinkClosed (6 + 3 * u) = false →
    let t0 := s.tile p
    let key := inKey i.cls i.idx
    (∀ v, (∃ x, w = .data x ∧ v = x.toNat % 65536) ∨ w = .token 4 v →
      ∃ t, exec c s = .next t ∧ (∀ q, q ≠ (p : Nat) → t.tile q = s.tile q) ∧ t.errs = s.errs ∧ t.net = s.net ∧
        ((t.tile p).inQueue key = rest ∧ (t.tile p).sinkQueue (steerKey u 2) = [w] ∧
          (∀ n, n ≠ steerKey u 2 → (t.tile p).sinkQueue n = t0.sinkQueue n) ∧ (t.tile p).stream.rows = t0.stream.rows ∧
          (steerFixed (t0.steer u) = false → (t.tile p).steerValue u = some v))) ∧
    (∀ op arg l, w = .token op arg → op = 1 ∨ op = 2 ∨ 0xC0 ≤ op → t0.logical = some l → l < 4096 →
      ∃ t, exec c s = .next t ∧ (∀ q, q ≠ (p : Nat) → t.tile q = s.tile q) ∧ t.errs = s.errs ∧ t.net = s.net ∧
        (∀ n < 4096, t.obe Ob.steer_discard n = if n = l then (s.obe Ob.steer_discard n + 1) % 2 ^ 32 else s.obe Ob.steer_discard n) ∧
        ((t.tile p).stream = { t0.stream with inQ := t0.stream.inQ.put [] key rest }))

/-- Supplies, resets and clocks (R23, R288, R291, R333, R336, R384, R385, R388, R389, R391 to R393): AUX power and the edge of AUX_RESET_N sample the straps and boot
the active slot where it verifies, or enter recovery mode; AUX_RESET_N low, a lost 12 V, an undervoltage of AUX and MOD_RESET_N leave the module dark; the
regulators start stage 1, PCIe trains once PERST_N is high, and a PERST_N assertion takes the link down and nothing else. A lost clock is recorded, that of the steward
turns it off and REFCLK100 takes the units; a boot that runs too long counts as failed. -/
def Obligations.SupplyEvents : Prop :=
  ∀ (s : State) (st : Straps) (high : Bool),
    let good := s.slotGood s.fw.record.active = true ∧ s.fw.record.seq + 1 < 2 ^ 32
    let edge (t : State) : Prop := t.boot.strict = st.strict ∧ t.boot.slotId = st.slotId.toNat ∧
      (st.recoveryLow = true → t.boot.steward = .recovery ∧ t.tiles = []) ∧
      (st.recoveryLow = false → good → t.boot.steward = .booting ∧ t.boot.bootAt = s.now ∧ t.ob Ob.bringup_stage = 0)
    let next (c : Instr) (f : State → Prop) : Prop := ∃ t, exec c s = .next t ∧ t.lasting = s.lasting ∧ f t
    let dark (t : State) : Prop := t.Dark ∧ t.ob Ob.module_state = 4
    (s.pins.auxGood = false → next (.auxPowerGood st high) fun t =>
      t.pins = { s.pins with auxGood := true, auxResetN := high } ∧ (high = true → edge t) ∧ (high = false → t.boot.steward = s.boot.steward)) ∧
    (s.pins.auxGood = true → s.pins.auxResetN = false → next (.auxResetNDeassert st) fun t => t.pins = { s.pins with auxResetN := true } ∧ edge t) ∧
    (s.pins.auxGood = true → s.pins.auxResetN = true → next .auxResetNAssert fun t => dark t ∧ t.boot.steward = .off ∧ t.errs.queue = [] ∧
      t.pins = { s.pins with loadsOn := false, mainPg := false, auxResetN := false }) ∧
    (s.boot.steward = .booting → s.boot.bootAt + 1500000000 ≤ s.now → s.fw.record.seq + 1 < 2 ^ 32 → s.fw.record.trial = false →
      (s.fw.record.failed = 0 → s.slotGood s.fw.record.active = true →
        next .bootTimeout fun t => t.boot = { s.boot with bootAt := s.now } ∧ t.fw.record = { s.fw.record with seq := s.fw.record.seq + 1, failed := 1 }) ∧
      (1 ≤ s.fw.record.failed → next .bootTimeout fun t => t.boot.steward = .recovery ∧ t.tiles = [] ∧ t.pins = s.pins)) ∧
    (¬ (s.pins.mainGood = true ∧ s.pins.modResetN = true) → next .mainPowerApplied fun t => t.pins = { s.pins with mainGood := true, modResetN := true } ∧
      t.tiles = s.tiles ∧ t.boot.steward = s.boot.steward) ∧
    (s.serving = true → s.pins.mainGood = true → s.pins.modResetN = true → s.pins.loadsOn = false → s.ob Ob.module_state ≠ 4 →
      next .regulatorStart fun t => t.pins = { s.pins with loadsOn := true, mainPg := true } ∧ t.tiles = s.tiles ∧
        (s.pins.perstN = true → RefClk.refclk100 ∉ s.pins.lostClks → t.host = { s.host with linkUp := true } ∧ t.stageNow = (2, 1)) ∧
        (s.pins.perstN = false → t.host = s.host ∧ t.stageNow = (1, 1))) ∧
    (s.pins.perstN = false → next .perstDeassert fun t => t.pins = { s.pins with perstN := true } ∧
      (s.pins.loadsOn = true → RefClk.refclk100 ∉ s.pins.lostClks → t.host = { s.host with linkUp := true }) ∧
      { t with pins := s.pins, host := s.host, dict := s.dict, boot := s.boot } = s ∧ t.boot.steward = s.boot.steward) ∧
    (s.pins.perstN = true → next .perstAssert fun t => t = { s with pins := { s.pins with perstN := false }, host := { s.host with linkUp := false } }) ∧
    (s.pins.modResetN = true → s.pins.auxGood = true → s.pins.auxResetN = true → RefClk.xtal25 ∉ s.pins.lostClks →
      next .modResetNAssert fun t => t.Dark ∧ t.boot.steward = s.boot.steward ∧ t.stageNow = (0, 1) ∧
        t.pins = { s.pins with modResetN := false, loadsOn := false, mainPg := false, lostClks := [] }) ∧
    (s.pins.modResetN = true → (s.pins.auxGood = false ∨ s.pins.auxResetN = false) →
      next .modResetNAssert fun t => t = { s with pins := { s.pins with modResetN := false } }) ∧
    (s.pins.mainGood = true → next .mainSupplyFault fun t => dark t ∧ t.boot.steward = s.boot.steward ∧ t.ob Ob.bringup_stage = 0 ∧
      bits (t.ob Ob.bringup_status) 15 0 = 0x0121 ∧ t.pins = { s.pins with loadsOn := false, mainPg := false, mainGood := false }) ∧
    (s.pins.auxGood = true → next .auxUndervoltage fun t => dark t ∧ t.boot.steward = .off ∧ t.errs.queue = [] ∧
      t.pins = { s.pins with loadsOn := false, mainPg := false, auxGood := false, shutdownAt := none }) ∧
    (∀ clk, clk ∉ s.pins.lostClks → next (.refclkLoss clk) fun t => t.pins = { s.pins with lostClks := s.pins.lostClks ++ [clk] } ∧
      (clk = .refclk100 → t.tiles = [] ∧ t.net = [] ∧ t.host.linkUp = false) ∧ (clk ≠ .refclk100 → t.tiles = s.tiles ∧ t.net = s.net ∧ t.host.linkUp = s.host.linkUp) ∧
      t.boot.steward = if clk = .xtal25 then .off else s.boot.steward)

/-- The test access port (R394): each instruction is the port's from then on and shifts out what R394 says: BYPASS one bit of 0, IDCODE the code, the instructions of the
boundary register the levels at the lands while they take the new ones. Test-Logic-Reset shifts nothing. An instruction that drives lands does so with MOD_RESET_N low and
both supplies in range; else it acts as SAMPLE/PRELOAD. Nothing else in the module changes. -/
def Obligations.TestPort : Prop :=
  ∀ (s : State) (lands scan : Nat),
    let after (c : Instr) (x : TapState) : Prop := exec c s = .next { s with pins := { s.pins with tap := x } }
    let drives := s.pins.modResetN = false ∧ s.pins.auxGood = true ∧ s.pins.mainGood = true
    let p := s.pins.tap
    after .tapReset { p with instr := .reset } ∧
    after .bypass { p with instr := .bypass, shifted := 0 } ∧
    after .idcode { p with instr := .idcode, shifted := 0x19409B47 } ∧
    after (.samplePreload lands scan) { instr := .sample, shifted := lands, update := scan } ∧
    (∀ c i, (c = .extest lands scan ∧ i = TapInstr.extest) ∨ (c = .extestPulse lands scan ∧ i = TapInstr.extestPulse) ∨ (c = .extestTrain lands scan ∧ i = TapInstr.extestTrain) →
      (drives → after c { instr := i, shifted := lands, update := scan }) ∧
      (¬ drives → after c { instr := .sample, shifted := lands, update := scan }))

/-- Firmware updates (R376, R379, R380, R383): where the update stands as the command needs, and where begin, apply and activate meet nothing under way, BEGIN drops what was staged and
waits for a package; FETCH starts the transfer; VERIFY checks the package and shows the outcome; APPLY leaves the inactive slot unusable until it is done; ACTIVATE makes that slot
active in trial and restarts the steward; CONFIRM raises the security counter and ends the trial; REVERT goes back to the other slot; CANCEL drops the package. The transfer's bytes and
the images of an apply arrive with their own events. -/
def Obligations.Updates : Prop :=
  ∀ (s : State) (src : Source), s.Writes src Ob.upd_command →
    let st := s.ob Ob.upd_state
    let m := s.asked src
    let n := 1 - s.fw.record.active
    let status (k reason : Nat) : List (Nat × Nat) := [(Ob.upd_state, k), (Ob.upd_status, reason)]
    let did (c : Instr) (f : State → Prop) : Prop := s.served c src Ob.upd_command 0 f
    let restarts (x : State) : Prop := x.boot.steward = .restarting ∧ x.boot.bootAt = s.now ∧ x.boot.activatedSince = true ∧ x.fw.fetching = false ∧
      ((∀ y ∈ s.migs, y.2.step = 0) → x.tiles = s.tiles ∧ x.net = s.net)
    let recorded := s.fw.record.seq + 1 < 2 ^ 32
    (st = 0 ∨ st = 6 → s.updBusy = false → did (.updateBegin src) fun x =>
      x.Shows { m with fw := { m.fw with staged := [], recvLen := s.ob Ob.upd_length, fetching := false } } (status 1 0)) ∧
    (st = 1 → s.fw.fetching = false → s.host.linkUp = true → did (.updateFetch src) fun x => x = { m with fw := { m.fw with fetching := true } }) ∧
    (st = 1 → s.fw.fetching = false →
      (s.pkgCheck s.staged (s.fw.slot s.fw.record.active) = none → did (.updateVerify src) fun x => x.Shows m (status 2 0)) ∧
      (∀ reason comp, s.pkgCheck s.staged (s.fw.slot s.fw.record.active) = some (reason, comp) → did (.updateVerify src) fun x =>
        ∃ r, x.Shows (m.sentReport r) (status 6 (reason + fld comp 8)) ∧ r.kind = 0x0A00 ∧ r.detail = reason)) ∧
    (st = 2 → s.updBusy = false → did (.updateApply src) fun x =>
      x.Shows { m with fw := { m.fw with journal := 0, slots := m.fw.slots.put {} n { s.fw.slot n with bad := true } } } (status 3 0)) ∧
    (st = 4 → s.updBusy = false → recorded → s.slotGood n = true → did (.updateActivate src) fun x =>
      restarts x ∧ x.fw.record = { s.fw.record with seq := s.fw.record.seq + 1, active := n, trial := true } ∧ x.ob Ob.upd_state = 5 ∧ x.ob Ob.upd_status = 0) ∧
    (st = 5 → recorded → did (.updateConfirm src) fun x =>
      x.fused = { s.fused with security := min 64 (max s.fused.security (s.fw.slot s.fw.record.active).security) } ∧
      x.fw.record = { s.fw.record with seq := s.fw.record.seq + 1, trial := false } ∧ x.fw.confirmDue = true ∧ x.defects = { s.defects with norDue := some (s.defects.norDue.getD s.now) } ∧
      x.ob Ob.upd_state = 0 ∧ x.ob Ob.upd_status = 0 ∧ (∃ r, x.errs.queue = s.errs.queue ++ [r] ∧ r.kind = 0x0A04 ∧ r.detail = x.fused.security) ∧
      x.tiles = s.tiles ∧ x.net = s.net ∧ x.boot = s.boot) ∧
    (st = 5 → recorded → s.slotGood n = true → did (.updateRevert src) fun x =>
      restarts x ∧ x.fw.record = { s.fw.record with seq := s.fw.record.seq + 1, active := n, trial := false } ∧ x.ob Ob.upd_state = 0 ∧
      ∃ r, x.errs.queue = s.errs.queue ++ [r] ∧ r.kind = 0x0A05 ∧ r.detail = n) ∧
    (st = 1 ∨ st = 2 ∨ st = 4 ∨ st = 6 → did (.updateCancel src) fun x =>
      x.Shows { m with fw := { m.fw with staged := [], recvLen := 0, fetching := false } } (status 0 0)) ∧
    (∀ bytes, s.fw.fetching = true → bytes.length = s.fw.recvLen →
      (s.host.linkUp = false → exec (.fetchComplete bytes) s = .next { s with fw := { s.fw with fetching := false } }) ∧
      (s.host.linkUp = true → ∃ t, exec (.fetchComplete bytes) s = .next t ∧ t.fw = { s.fw with fetching := false, staged := Mem.writeBytes s.fw.staged 0 bytes } ∧
        (∀ i < bytes.length, t.hostByte (s.ob Ob.upd_host_addr + i) = bytes.getD i 0) ∧ { t with fw := s.fw, host := { t.host with mem := s.host.mem } } = s)) ∧
    (st = 3 → ∀ images, pkgImages s.staged (s.fw.slot s.fw.record.active) = .inl images → ∃ t, exec .applyComplete s = .next t ∧
      (∀ k, k ≠ n → t.fw.slot k = s.fw.slot k) ∧ t.fw.journal = blocksOf images ∧ { t.fw with journal := s.fw.journal, slots := s.fw.slots } = s.fw ∧
      { t with fw := s.fw, dict := { t.dict with vals := s.dict.vals } } = s ∧ t.fw.slot n = { (s.fw.slot n).install s.staged images with bad := (pkgWrong s.staged images).isSome } ∧
      (pkgWrong s.staged images = none → t.ob Ob.upd_state = 4) ∧ (∀ c, pkgWrong s.staged images = some c → t.ob Ob.upd_state = 6)) ∧
    (st = 3 → ∀ c, pkgImages s.staged (s.fw.slot s.fw.record.active) = .inr c → ∃ t, exec .applyComplete s = .next t ∧ t.Shows s (status 6 (4 + fld c 8)))

/-- Bring-up commands (R288, R289, R298, R306, R312, R313, R393): a stage command in order begins its stage. Stage 3 fails at once where a reference clock is missing; a start-up test that
finds nothing passes, with reason 5 where no defect list can be read, and is held under BIST_STRICT where soft repairs stand; stage 5 merges the defect lists and leaves a proposal, complete or with tiles unplaced; stage 6 waits for the steward's commit, or fails when its checks
refuse it; stage 7 trains the ports that are not up, of an uncommissioned module port 0 alone. -/
def Obligations.BringUpCommands : Prop :=
  ∀ (s : State) (src : Source), s.Writes src Ob.bringup_command →
    let did (c : Instr) (f : State → Prop) : Prop := s.served c src Ob.bringup_command 0 f
    let kept (x : State) : Prop := x.tiles = s.tiles ∧ x.net = s.net ∧ x.host = s.host ∧ x.errs = s.errs
    let working (x : State) (n : Nat) : Prop := x.AtStage n 0 0 s.now ∧ x.ob Ob.bringup_stage = n ∧ x.boot = { s.boot with stageWork := true }
    (s.mayStart 3 →
      (s.pins.lostClks = [] → did (.bringupCommand3 src) fun x => working x 3 ∧ kept x) ∧
      (s.pins.lostClks ≠ [] → did (.bringupCommand3 src) fun x => x.AtStage 3 2 2 s.now ∧ x.ob Ob.bringup_stage = 3 ∧ x.boot = { s.boot with stageWork := false } ∧ kept x)) ∧
    (s.mayStart 4 → (∀ fs, fs.all Failure.wf = true → did (.bringupCommand4 src fs) fun x =>
        x.AtStage 4 0 0 s.now ∧ x.ob Ob.bringup_stage = 4 ∧ x.boot.stageWork = true ∧ x.tiles = s.tiles ∧ x.net = s.net) ∧
      (s.defectsReadable = true → did (.bringupCommand4 src []) fun x => x.defects = s.defects ∧ kept x ∧ bits x.boot.testResult 63 8 = 0 ∧
        (s.boot.strict = false ∨ s.softRepairs = 0 → x.boot.testOutcome = (1, 0)) ∧ (s.boot.strict = true → s.softRepairs ≠ 0 → x.boot.testOutcome = (3, 7)) ∧
        (s.ob Ob.start_test_mode ≠ 0 → x.boot.testResult = 0 ∧ ∀ p < 4608, darkRow s.variant p = false → x.obe Ob.tile_last_test p = s.now)) ∧
      (s.defectsReadable = false → did (.bringupCommand4 src []) fun x => x.defects.list = [] ∧ x.defects.norDue = some s.now ∧ x.boot.testOutcome = (1, 5))) ∧
    (s.mayStart 5 → did (.bringupCommand5 src) fun x =>
      x.AtStage 5 0 0 s.now ∧ x.ob Ob.bringup_stage = 5 ∧ x.boot.stageWork = true ∧ kept x ∧ x.boot.proposal.isSome = true ∧
      x.ob Ob.map_unplaced = ((List.range (logicalTiles s.variant)).filter fun l => x.proposedAt l == 0xFFFF).length ∧
      x.ob Ob.map_state = (if x.ob Ob.map_unplaced = 0 then 2 else 3) ∧ x.defects.listBad = false ∧ x.defects.norBad = false ∧
      (s.defects.listBad = false → s.defects.norBad = false → x.defects.list = unionDefects s.defects.list s.defects.nor)) ∧
    (s.mayStart 6 → s.txn.current = none → s.txn.queue = [] → s.txn.own = [] → s.txn.holder = [] → did (.bringupCommand6 src) fun x =>
      x.ob Ob.bringup_stage = 6 ∧ kept x ∧
      ((x.AtStage 6 0 0 s.now ∧ x.boot.stageWork = true ∧ ∃ c, x.txn.current = some c ∧ c.why = .stage 6 ∧ c.step = .preparing ∧ c.takenUp = s.now ∧
          c.values = s.dict.vals.filter fun y => meadowSetting (y.1 / 65536)) ∨
        (x.AtStage 6 2 8 s.now ∧ x.boot.stageWork = false ∧ x.txn.current = none))) ∧
    (s.mayStart 7 → did (.bringupCommand7 src) fun x =>
      working x 7 ∧ kept x ∧ ∀ p < 32, (∀ i < 8, s.subUp (p * 8 + i) = false) → x.portAs p fun i =>
        (s.commissioned = true ∨ p = 0) ∧ i ∈ (modeSubs (s.obe Ob.port_mode p)).map (·.1))

/-- What ends a stage (R288 to R290, R296, R297): the steward serves once it has booted, and stage 1 begins where 12 V and MOD_RESET_N allow; a finished stage 3 releases the routers at 600 MHz;
stage 4 shows the test's outcome and holds the module where it failed; stage 7 is done when no port trains any more, of an uncommissioned module with reason 9. A stage beyond its limit
fails with reason 10 and goes on working. -/
def Obligations.BringUpEnds : Prop :=
  ∀ (s : State),
    let since := bits (s.ob Ob.bringup_status) 127 64
    let did (reason : Nat) (f : State → Prop) : Prop := ∃ t, exec (.stageDone reason) s = .next t ∧ t.tiles = s.tiles ∧ t.net = s.net ∧ t.pins = s.pins ∧ f t
    let works (n : Nat) : Prop := s.boot.steward = .running ∧ s.boot.stageWork = true ∧ s.stageNow.1 = n
    let powered : Prop := s.pins.mainGood = true ∧ s.pins.modResetN = true ∧ s.pins.loadsOn = false ∧ s.ob Ob.module_state ≠ 4
    (s.boot.steward = .booting → s.stageNow.1 = 0 → did 0 fun t => t.boot.steward = .running ∧
      (powered → t.AtStage 1 0 0 s.now) ∧ (¬ powered → t.AtStage 0 1 0 since)) ∧
    (works 3 → did 0 fun t => t.AtStage 3 1 0 since ∧ t.boot = { s.boot with stageWork := false, routersUp := true, fusedApplied := true } ∧ ∀ d < 4, t.obe Ob.die_clock d = 600) ∧
    (works 3 → ∀ reason, reason = 2 ∨ reason = 3 → did reason fun t => t.AtStage 3 2 reason since ∧ t.boot = { s.boot with stageWork := false }) ∧
    (works 4 → s.boot.testOutcome.1 < 16 → s.boot.testOutcome.2 < 256 → did 0 fun t =>
      t.AtStage 4 s.boot.testOutcome.1 s.boot.testOutcome.2 since ∧ t.boot.stageWork = false ∧ (t.boot.held = true ↔ s.boot.testOutcome.1 ≠ 1) ∧
      (s.boot.testResult < 2 ^ 64 → bits (t.ob Ob.start_test_result) 63 0 = s.boot.testResult) ∧
      (bit s.boot.testResult 0 = false → t.boot.lastFull = some s.now ∧ t.boot.powerHeld = true)) ∧
    (works 7 → (∀ sp < 256, s.obe Ob.port_state sp ≠ 1) → did 0 fun t => t.AtStage 7 1 (if s.commissioned = true then 0 else 9) since ∧ t.boot = { s.boot with stageWork := false }) ∧
    (∀ n limit, (n, limit) ∈ [(1, 200), (2, 200), (3, 600),
        (4, if bit s.boot.testResult 0 = false then 40000 else if bits s.boot.testResult 15 8 = 0 then 1200 else 39700), (6, 500), (7, 1000)] → s.boot.steward = .running → s.stageNow = (n, 0) → limit * 1000000 < s.now - since →
      ∃ t, exec .stageLimitExceeded s = .next t ∧ t.AtStage n 2 10 since ∧ t.Shows { s with boot := { s.boot with stageWork := true } } [(Ob.bringup_status, t.ob Ob.bringup_status)])

/-- The map, the fuses and the commissioning (R299, R307, R314): MAP_ADOPT stages the whole proposal in the source's open transaction; FUSE_BURN, once stage 4 has passed and no meadow has a member,
turns every soft repair whose die has budget left into a fused one; COMMISSION binds the module to the slot it stands in, and DECOMMISSION frees it and leaves every port but port 0 idle.
Every such change of the defect list is due in the NOR copy. -/
def Obligations.MapFusesCommission : Prop :=
  ∀ (s : State) (src : Source),
    let m := s.asked src
    (s.Writes src Ob.map_adopt → ∀ n, srcTxn src = some n → (s.txnOf n).opened = true → (s.txnOf n).committing = false → s.ob Ob.map_state = 2 ∨ s.ob Ob.map_state = 3 →
      (∀ tb, tableOf Ob.map = some tb → Tbl.get 0 s.txn.holder tb = 0 ∨ Tbl.get 0 s.txn.holder tb = n + 1) → s.served (.mapAdopt src 1) src Ob.map_adopt 0 fun x =>
        (∀ l < 4096, Tbl.get none (x.txnOf n).staged (elemKey Ob.map l) = some (s.proposedAt l)) ∧
        (∀ k, k / 65536 ≠ Ob.map → Tbl.get none (x.txnOf n).staged k = Tbl.get none (s.txnOf n).staged k) ∧
        (x.txnOf n).opened = true ∧ (x.txnOf n).lastStage = s.now ∧ bits (x.obe Ob.txn_status n) 2 0 = 1 ∧
        (∀ i, i ≠ n → x.txnOf i = s.txnOf i) ∧ { x with txn := s.txn, dict := s.dict } = s) ∧
    (s.Writes src Ob.map_adopt → s.served (.mapAdopt src 0) src Ob.map_adopt 0 fun x => x = m) ∧
    (s.Writes src Ob.fuse_burn → s.stage4Passed = true → (∀ g < 256, s.members g = []) → s.pins.mainGood = true →
      (s.served (.fuseBurn src 1) src Ob.fuse_burn 0 fun x =>
        { x with fused := s.fused, defects := s.defects } = m ∧ { x.defects with list := s.defects.list, norDue := s.defects.norDue } = s.defects ∧
        { x.fused with budget := s.fused.budget } = s.fused ∧ x.defects.list.length = s.defects.list.length ∧
        (∀ i (h : i < s.defects.list.length), x.defects.list[i]? = some (s.defects.list[i]) ∨
          ((s.defects.list[i]).disposition = 0 ∧ x.defects.list[i]? = some ({ (s.defects.list[i]) with disposition := 1 } : Defect))) ∧
        (∀ d, Tbl.get 2048 x.fused.budget d + (x.defects.list.filter fun y => dieOf y.unit == d && y.disposition == 1).length =
          Tbl.get 2048 s.fused.budget d + (s.defects.list.filter fun y => dieOf y.unit == d && y.disposition == 1).length) ∧
        (∀ y ∈ x.defects.list, y.disposition = 0 → Tbl.get 2048 x.fused.budget (dieOf y.unit) = 0) ∧
        (x.defects.list ≠ s.defects.list → x.defects.norDue = some (s.defects.norDue.getD s.now)))) ∧
    (s.Writes src Ob.commission → s.boot.slotId < 64 → s.served (.commission src s.boot.slotId) src Ob.commission 0 fun x => x.Shows m [(Ob.commission_slot, s.boot.slotId)]) ∧
    (s.Writes src Ob.commission → s.served (.decommission src) src Ob.commission 0 fun x =>
      x.ob Ob.commission_slot = 0xFF ∧ (∀ p < 32, p ≠ 0 → x.portAs p fun _ => False) ∧ (∀ i < 8, x.obe Ob.port_state i = s.obe Ob.port_state i) ∧
      { x with dict := s.dict, dies := s.dies } = s)

/-- The governor (R23, R371 to R373): M1 is entered, with the clocks at 600 MHz, when no tile has been in T0 for 1 ms; an interval publishes the input power, leaves M1 where a tile runs, sets each
field die's clock within its limits (which step within them is a free value, log entry 51), and shares the budget out unless the input is over its limit at floor clocks, which is reported once;
while the steward restarts the last grants are repeated: every member tile not in T3 gains its credits up to its capacity. -/
def Obligations.GovernorIntervals : Prop :=
  ∀ (s : State),
    (s.boot.steward = .running → s.boot.routersUp = true → s.ob Ob.module_state = 0 → s.anyRunning = false → 1000000 ≤ s.now - s.power.idleSince →
      ∃ t, exec .m1IdleEntry s = .next t ∧ t.ob Ob.module_state = 1 ∧ (∀ d < 4, t.obe Ob.die_clock d = 600) ∧ { t with dict := s.dict } = s ∧
        ∀ k e, e < 65536 → k ≠ Ob.module_state → (k ≠ Ob.die_clock ∨ 4 ≤ e) → t.obe k e = s.obe k e) ∧
    (∀ x : PowerSample, x.input < 2 ^ 32 → s.boot.steward = .running → s.pins.loadsOn = true → s.boot.routersUp = true → 1000000 ≤ s.now - s.power.lastRepeat →
      let limit := s.ob Ob.power_limit
      let above := limit < x.input ∧ ((∀ d < 4, s.obe Ob.die_clock d = 600) ∨ s.power.overLimit = true)
      ∃ t, exec (.governorInterval x) s = .next t ∧ t.ob Ob.input_power = x.input ∧ t.power.lastRepeat = s.now ∧
        (s.ob Ob.module_state = 1 → t.ob Ob.module_state = if s.anyRunning = true then 0 else 1) ∧
        (∀ d < 4, let c := t.obe Ob.die_clock d
          let old := s.obe Ob.die_clock d
          600 ≤ c ∧ c % 25 = 0 ∧ c ≤ max 600 (s.obe Ob.clock_max d) ∧ c ≤ max 600 (old + 100) ∧ (s.clamped d = true → c ≤ max 600 old) ∧
          (limit < x.input ∨ s.tooHot d = true → c ≤ max 600 (old - 25)) ∧ (4 ≤ s.deadSensors d ∨ t.ob Ob.module_state = 1 → c = 600)) ∧
        (above → t.power.overLimit = true ∧ t.tiles = s.tiles ∧ t.power.lastGrant = s.power.lastGrant ∧
          (s.power.overLimit = false → s.Reported t fun r => r.kind = 0x0903 ∧ r.detail = x.input)) ∧
        (¬ above → t.power.overLimit = false ∧ ∀ g ∈ s.meadows, Tbl.get 0 t.power.lastGrant g = s.share (limit - x.other) g)) ∧
    (s.boot.steward = .restarting → 1000000 ≤ s.now - s.power.lastRepeat → ∃ t, exec .energyGrantRepeat s = .next t ∧ t.power.lastRepeat = s.now ∧ t.power.lastGrant = s.power.lastGrant ∧
      (∀ q, (∀ g, q ∉ s.memberTiles g) → t.tile q = s.tile q) ∧
      (∀ g n, s.power.lastGrant = [(g, n)] → (s.memberTiles g).Nodup → ∀ p ∈ s.memberTiles g, p < 4608 →
        ((s.tile p).power.state = .t3 → t.tile p = s.tile p) ∧
        ((s.tile p).power.state ≠ .t3 → (t.tile p).power.balance = min (s.obe Ob.credit_capacity g) ((s.tile p).power.balance + n) ∧
          (t.tile p).power.grants = ((s.tile p).power.grants + 1) % 256)))

/-- Thermal limits (R374): a sample shows the hottest good reading of each die, throttles a die from 95 °C on until ten samples below 93 °C, and clamps the clocks of the dies concerned; a reading of
115 °C turns every 12 V load off; a failed sensor is ignored from then on and reported once; after 60 s the lockout of a shutdown ends. -/
def Obligations.ThermalLimits : Prop :=
  ∀ (s : State), s.pins.loadsOn = true →
    let good (rs : List SensorReading) := rs.filter fun r => !s.power.badSensors.contains (r.die.val, r.sensor.val)
    (∀ rs, rs.all SensorReading.wf = true → (∀ r ∈ rs, SensorReading.failed r = false) → (∀ r ∈ good rs, r.value.getD 0 < 115 * 16) →
      ∃ t, exec (.thermalSample rs) s = .next t ∧ t.tiles = s.tiles ∧ t.net = s.net ∧ t.pins = s.pins ∧ t.boot = s.boot ∧ t.power.badSensors = s.power.badSensors ∧
        (∀ d < 6, ∀ v, hottest (good rs) d = some v → t.obe Ob.die_temp d = unsigned 16 v ∧
          (d ∈ t.power.throttled ↔ if d ∈ s.power.throttled then ¬ (v < 93 * 16 ∧ 10 ≤ Tbl.get 0 s.power.coolFor d + 1) else 95 * 16 ≤ v) ∧
          (d ∈ s.power.throttled → d ∈ t.power.throttled → Tbl.get 0 t.power.coolFor d = if v < 93 * 16 then Tbl.get 0 s.power.coolFor d + 1 else 0)) ∧
        (∀ d < 6, hottest (good rs) d = none → t.obe Ob.die_temp d = s.obe Ob.die_temp d ∧ (d ∈ t.power.throttled ↔ d ∈ s.power.throttled)) ∧
        (∀ d < 4, let old := s.obe Ob.die_clock d
          t.obe Ob.die_clock d = if old = 0 then 0 else if 4 ≤ s.deadSensors d then 600 else if t.clamped d = true then max 600 (old - 100) else old) ∧
        (∀ d < 6, t.obe Ob.throttle_state d = if d ∈ t.power.throttled ∨ (d < 4 ∧ t.clamped d = true) then 1 else if 4 ≤ s.deadSensors d then 2 else 0)) ∧
    (∀ rs, rs.all SensorReading.wf = true → (∀ r ∈ rs, SensorReading.failed r = false) → (∃ r ∈ good rs, 115 * 16 ≤ r.value.getD 0) →
      ∃ t, exec (.thermalSample rs) s = .next t ∧ t.Dark ∧ t.pins = { s.pins with loadsOn := false, mainPg := false, shutdownAt := some s.now } ∧
        t.ob Ob.module_state = 4 ∧ bit (t.ob Ob.alert_cause) 2 = true ∧ s.Reported t fun r => r.kind = 0x0902) ∧
    (∀ r : SensorReading, r.wf = true → SensorReading.failed r = true → ∃ t, exec (.thermalSample [r]) s = .next t ∧ t.tiles = s.tiles ∧ t.pins = s.pins ∧ t.power.throttled = s.power.throttled ∧
      ((r.die.val, r.sensor.val) ∈ s.power.badSensors → t.power.badSensors = s.power.badSensors ∧ t.errs = s.errs) ∧
      ((r.die.val, r.sensor.val) ∉ s.power.badSensors → t.power.badSensors = s.power.badSensors ++ [(r.die.val, r.sensor.val)] ∧
        s.Reported t fun x => x.kind = 0x0904 ∧ x.detail = r.die.val + fld r.sensor.val 8)) ∧
    (∀ at_, s.pins.shutdownAt = some at_ → 60000000000 ≤ s.now - at_ → exec .shutdownLockoutExpiry s = .next { s with pins := { s.pins with shutdownAt := none } })

/-- Resets on request (R79, R291, R333 to R335): D1 leaves a tile's sequencer and engines as new, with its cistern cleared if asked; D2 a router, whose packets are gone; D3 every member of a meadow, with its
power command dropped; D4 lets a port train again; D5 and D6, which the PCIe function alone may ask for, take every unit's state, D6 the 12 V loads too. The status shows the reset, and it is counted. -/
def Obligations.ResetRequests : Prop :=
  ∀ (s : State) (src : Source), s.Writes src Ob.reset_request →
    let did (c : Instr) (dom target : Nat) (f : State → Prop) : Prop := s.served c src Ob.reset_request 0 fun x => x.resetStands dom target s.now ∧ f x
    let counted (x : State) (dom : Nat) : Prop := x.obe Ob.reset_counts (dom - 1) = (s.obe Ob.reset_counts (dom - 1) + 1) % 2 ^ 64
    (∀ (p : Phys) clear, (clear = true → s.holdsRunning p = false) → did (.d1Reset src p clear) 1 p fun x =>
      counted x 1 ∧ (x.tile p).ResetState ∧ s.now ≤ (x.tile p).resetUntil ∧ (x.tile p).resetUntil ≤ s.now + 50000 ∧ (clear = true → (x.tile p).cistern = []) ∧
      (s.migrationsOf p = [] → (x.tile p).imem = (s.tile p).imem ∧ (x.tile p).slots = (s.tile p).slots ∧ (clear = false → (x.tile p).cistern = (s.tile p).cistern) ∧
        (Tbl.wf {} (s.tile p).wells = true → ∀ w < 8, ((x.tile p).well w).gen = ((s.tile p).well w).gen))) ∧
    (∀ p : Phys, s.routerInUse p = false → did (.d2Reset src p) 2 p fun x =>
      counted x 2 ∧ x.router p = {} ∧ (∀ r, r ≠ (p : Nat) → x.router r = s.router r) ∧ (∀ n k, x.pkt n = some k → ∀ port esc, k.loc ≠ .chan p port esc) ∧
      (Tbl.wf none s.net = true → ∀ n, (∀ k, s.pkt n = some k → ∀ port esc, k.loc ≠ .chan p port esc) → x.pkt n = s.pkt n) ∧
      (x.tile p).seq = (s.tile p).seq ∧ (x.tile p).cistern = (s.tile p).cistern) ∧
    (∀ (g : Meadow) clear, did (.d3Reset src g clear) 3 g fun x =>
      counted x 3 ∧ x.powerCmd g = { notEntered := if (s.powerCmd g).busy = true then (s.members g).length else 0 } ∧ x.obe Ob.meadow_power_status g = 0 ∧
      (x.job g).drained = false ∧ (x.job g).released = false ∧ ∀ p ∈ s.memberTiles g, (x.tile p).seq.tasks = [] ∧ (x.tile p).pumps = [] ∧
        (clear = true → s.obe Ob.role g ≠ 3 → (x.tile p).cistern = [])) ∧
    (∀ p : Port, did (.d4Reset src p) 4 p fun x =>
      counted x 4 ∧ (x.portAs p fun i => s.portServed p = true ∧ i ∈ (modeSubs (s.obe Ob.port_mode p)).map (·.1)) ∧ x.tiles = s.tiles ∧ x.net = s.net) ∧
    (srcPcie src = true → did (.d5Reset src) 5 0 fun x =>
      x.tiles = [] ∧ x.routers = [] ∧ x.net = [] ∧ x.dies = [] ∧ x.jobs = [] ∧ x.host.linkUp = s.host.linkUp ∧ x.pins = s.pins ∧ x.ob Ob.bringup_stage = 2 ∧
      (s.boot.held = false → x.AtStage 2 1 0 s.now) ∧ x.boot.held = s.boot.held) ∧
    (srcPcie src = true → s.pins.shutdownAt = none → did (.d6Reset src) 6 0 fun x =>
      x.Dark ∧ x.pins = { s.pins with loadsOn := false, mainPg := false, lostClks := [] } ∧ x.boot.held = false ∧
      (s.pins.mainGood = true ∧ s.pins.modResetN = true ∧ x.ob Ob.module_state ≠ 4 → x.AtStage 1 0 0 s.now) ∧
      (¬ (s.pins.mainGood = true ∧ s.pins.modResetN = true ∧ x.ob Ob.module_state ≠ 4) → x.AtStage 0 1 0 s.now))

/-- Dumps and stalls (R189, R337 to R341): a dump of a meadow, of the module or of a tile takes the first empty place, else the oldest that is not protected, and holds its units' state as it was; its
protection can be lifted; a unit that does not answer is recorded absent and reported. A packet whose head has not advanced for `stall_limit` is reported once, and the meadow's one automatic action follows where it
is asked for. -/
def Obligations.DumpsAndStalls : Prop :=
  ∀ (s : State),
    (∀ src (v : BitVec 64) n, s.Writes src Ob.dump_command → bits v.toNat 1 0 ≠ 3 → bits v.toNat 63 25 = 0 → (bits v.toNat 1 0 = 2 → bits v.toNat 22 10 < 4608) → s.dumpPlace = some n →
      let scope := bits v.toNat 1 0
      let units := if scope = 0 then s.meadowUnits (bits v.toNat 9 2) else if scope = 1 then List.range 4610 else [bits v.toNat 22 10]
      let cistern := decide (scope = 2) && bit v.toNat 23
      let d : Dump := { protect := bit v.toNat 24, cause := 0, start := s.now, left := units, cistern, done := true, layout := s.free, sections := units.map (s.dumpSection cistern) }
      let m := s.asked src
      let y := { m with free := s.free + 1, dumps := s.dumps.put none n (some d) }
      y.dumpsFit = true → s.served (.dumpCommand src v) src Ob.dump_command 0 fun x => x = y) ∧
    (∀ src n, n < 8 → s.Writes src Ob.dump_unprotect → s.served (.dumpUnprotect src n) src Ob.dump_unprotect 0 fun x =>
      (s.dump n = none → x = s.asked src) ∧ ∀ d, s.dump n = some d → x.dump n = some { d with protect := false } ∧ (∀ i, i ≠ n → x.dump i = s.dump i) ∧
        { x with dumps := s.dumps } = s.asked src) ∧
    (∀ unit n d, s.dumpOf unit = some (n, d) →
      let phys := if unit < 4608 then unit else unit - 4608
      let cls := if unit < 4608 then 0 else 4
      ∃ t, exec (.dumpUnitAbsent unit) s = .next t ∧ t.tiles = s.tiles ∧ t.net = s.net ∧ (∀ i, i ≠ n → t.dump i = s.dump i) ∧
        t.dump n = some { d with left := d.left.filter (· != unit), sections := d.sections.map fun x =>
          if x.phys = phys ∧ x.unitClass = cls then ({ phys, unitClass := cls } : DumpSection) else x } ∧
        s.Reported t fun r => r.kind = 0x0805 ∧ r.phys = phys ∧ r.unitClass = cls ∧ r.detail = n) ∧
    (∀ n k r port esc, s.pkt n = some k → k.loc = .chan r port esc → (∃ y ∈ s.routerHeads r, y.1 = n) → k.reported = false → s.ob Ob.stall_limit * 1000 ≤ s.now - k.since → k.h.cls < 65536 →
      let acts := k.h.meadow < 256 ∧ s.obe Ob.job_state k.h.meadow = 2 ∧ bit (s.obe Ob.hang_action k.h.meadow) 2 = true
      ∃ t, exec (.stallDetect n) s = .next t ∧ t.obe Ob.stall_reports k.h.cls = (s.obe Ob.stall_reports k.h.cls + 1) % 2 ^ 64 ∧
        (¬ acts → t.pkt n = some { k with reported := true } ∧ t.tiles = s.tiles ∧ t.dumps = s.dumps ∧ (∀ i, i ≠ n → t.pkt i = s.pkt i) ∧
          s.Reported t fun x => x.kind = 0x0301 ∧ x.phys = r ∧ x.unitClass = 1) ∧
        (acts → t.obe Ob.job_state k.h.meadow = 3 ∧ t.obe Ob.reset_counts 2 = (s.obe Ob.reset_counts 2 + 1) % 2 ^ 64 ∧
          (∀ p ∈ s.memberTiles k.h.meadow, (t.tile p).seq.tasks = []) ∧ (s.obe Ob.dump_auto k.h.meadow ≠ 1 → t.dumps = s.dumps)))

/-- Jobs (R79, R343, R344, R347 to R350): an image that the loader takes stands in its tiles, task 0 of each ready at the entry point, and the job runs; UNLOAD leaves a meadow without image, regions and cistern
contents; ISOLATE records its faulted units as defects and stops the meadow; RECOVER waits for the re-protection, or finishes at once; when its fills are made every copy is whole again. -/
def Obligations.JobCommands : Prop :=
  ∀ (s : State) (g : Meadow),
    (∀ src, s.Writes src Ob.job_command →
      let did (c : Instr) (f : State → Prop) : Prop := s.served c src Ob.job_command 0 f
      let state := s.obe Ob.job_state g
      let begun (x : State) (p entry : Nat) : Prop := (x.tile p).seq.run = true ∧ ((x.tile p).task 0).pc = BitVec.ofNat 16 entry ∧
        ((x.tile p).task 0).regs = [] ∧ (((x.tile p).task 0).state = .ready ∨ ((x.tile p).task 0).state = .running) ∧ (x.tile p).power.state ≠ .t3
      (∀ img, state = 0 → s.host.linkUp = true → (s.job g).resetUntil ≤ s.now → s.imageOk g img = true → did (.jobLoad src g img) fun x =>
        x.obe Ob.job_state g = 2 ∧ (x.job g).image = some img ∧ x.obe Ob.step_number g = s.obe Ob.step_base g ∧
        (∀ i < 64, x.obe Ob.region_table (g * 64 + i) = (match img.regions[i]? with
          | some r => regionRecord r
          | none => 0)) ∧
        ((img.tiles.map fun y => s.physOf y.tile).Nodup → ∀ y ∈ img.tiles, begun x (s.physOf y.tile) y.entry ∧
          (x.tile (s.physOf y.tile)).imem = Mem.writeBytes [] 0 (y.code.flatMap fun w => toLE 4 w.toNat))) ∧
      (state ≠ 4 → did (.jobUnload src g) fun x =>
        (x.job g).image = none ∧ (∀ i < 64, x.obe Ob.region_table (g * 64 + i) = 0) ∧ x.obe Ob.job_state g = 0 ∧
        ∀ p ∈ s.memberTiles g, (x.tile p).seq.tasks = [] ∧ (s.obe Ob.role g ≠ 3 → (x.tile p).cistern = [])) ∧
      (state = 2 ∨ state = 3 → (s.job g).faults ≠ [] → did (.jobIsolate src g) fun x =>
        (x.job g).faults = [] ∧ x.obe Ob.job_state g ≠ 2 ∧ (∀ p ∈ s.memberTiles g, (x.tile p).seq.tasks = []) ∧
        ∀ f ∈ (s.job g).faults, ∃ y ∈ x.allDefects, y.unit = f.phys ∧ y.kind = faultDefect f.kind) ∧
      (state = 3 → (s.job g).faults = [] → (s.job g).isolating = true ∨ (s.job g).fills ≠ [] → did (.jobRecover src g) fun x =>
        x.obe Ob.job_state g = 4 ∧ (x.job g).recovering = true ∧ (x.job g).recoverAt = s.now ∧ x.tiles = s.tiles ∧ x.net = s.net) ∧
      (∀ img, state = 3 → (s.job g).faults = [] → (s.job g).isolating = false → (s.job g).fills = [] → (s.job g).image = some img → did (.jobRecover src g) fun x =>
        x.obe Ob.job_state g = 2 ∧ (x.job g).recovering = false ∧ (x.job g).replaced = [] ∧ (∃ r ∈ x.errs.queue, r.kind = 0x0807 ∧ r.meadow = g) ∧
        ((img.tiles.map fun y => s.physOf y.tile).Nodup → ∀ y ∈ img.tiles, begun x (s.physOf y.tile) y.entry))) ∧
    (∀ f, (s.job g).fills = [f] → (s.job g).isolating = false → s.boot.steward = .running → (s.job g).recovering = false →
      ∃ t, exec (.reprotectionComplete g) s = .next t ∧ (t.job g).fills = [] ∧ t.obe Ob.job_state g = s.obe Ob.job_state g ∧ t.dict = s.dict ∧ t.net = s.net ∧
        (∀ q, q ≠ s.physOf f.toTile → t.tile q = s.tile q) ∧
        ∀ i < f.length, (t.tile (s.physOf f.toTile)).cistern.read (f.toBase + i) = (s.tile (s.physOf f.fromTile)).cistern.read (f.fromBase + i))

/-- Power by command (R370, R371, R374): a meadow of 1 to 512 tiles that no command holds drains for T2, or for T3 unless its job runs or it holds precious regions, and its tiles enter when the drain ends; a wake resumes
them. The module's states M2 and M3 take every meadow there, M4 turns the 12 V loads off, and request 0 leads back: from M4 as by a D6, from M1 at once, else by waking every meadow. -/
def Obligations.PowerCommands : Prop :=
  ∀ (s : State) (src : Source),
    let m := s.asked src
    (s.Writes src Ob.meadow_power_cmd → ∀ g : Meadow, s.members g ≠ [] → (s.members g).length ≤ 512 → (s.powerCmd g).busy = false →
      (∀ c depth, (c = .meadowPowerT2 src g ∧ depth = 1) ∨ (c = .meadowPowerT3 src g ∧ depth = 2 ∧ s.obe Ob.job_state g ≠ 2 ∧ s.anyPrecious g = false) →
        s.served c src Ob.meadow_power_cmd 0 fun x => x.powerCmd g = { depth, busy := true } ∧ x.obe Ob.meadow_power_status g = 1 ∧ x.noticeSent s.nextPkt g 0x22 ∧ x.tiles = s.tiles) ∧
      (s.served (.meadowPowerWake src g) src Ob.meadow_power_cmd 0 fun x => x.powerCmd g = {} ∧ x.obe Ob.meadow_power_status g = 0 ∧ (∃ n, x.noticeSent n g 0x23) ∧
        (s.noMigration → (s.memberTiles g).Nodup → ∀ p ∈ s.memberTiles g, p < 4608 → ((x.tile p).power.state = .t0 ∨ (x.tile p).power.state = .t1) ∧ (x.tile p).power.commanded = none ∧
          ((s.tile p).power.state ≠ .t3 → (x.tile p).seq.run = if (s.tile p).power.commanded.isSome = true then (s.tile p).power.runSaved else (s.tile p).seq.run)))) ∧
    (s.Writes src Ob.module_state_request → s.stateBusy = false →
      let state := s.ob Ob.module_state
      let did (c : Instr) (f : State → Prop) : Prop := s.served c src Ob.module_state_request 0 f
      (∀ c k depth, (c = .moduleStateRequestM2 src ∧ k = 2 ∧ depth = 1 ∧ (state = 0 ∨ state = 1) ∧ s.stage6Done = true) ∨
          (c = .moduleStateRequestM3 src ∧ k = 3 ∧ depth = 2 ∧ state < 3 ∧ ∀ g < 256, s.obe Ob.job_state g = 0) → did c fun x =>
        x.tiles = s.tiles ∧ (s.meadows = [] → x.ob Ob.module_state = k ∧ x.power.entering = none) ∧
        (s.meadows ≠ [] → x.ob Ob.module_state = state ∧ x.power.entering = some k ∧ ∀ g ∈ s.meadows, x.powerCmd g = { depth, busy := true } ∧ x.obe Ob.meadow_power_status g = 1)) ∧
      (state = 3 → did (.moduleStateRequestM4 src) fun x => x.Dark ∧ x.ob Ob.module_state = 4) ∧
      (s.pins.shutdownAt = none →
        (state = 4 → did (.moduleStateRequestM0 src) fun x => x.Dark ∧ x.pins.lostClks = []) ∧
        (state = 1 → did (.moduleStateRequestM0 src) fun x => x.Shows m [(Ob.module_state, 0), (Ob.module_state_request, 0)]) ∧
        (state = 2 ∨ state = 3 → did (.moduleStateRequestM0 src) fun x => x.ob Ob.module_state = 0 ∧ ∀ g ∈ s.meadows, x.powerCmd g = {} ∧ x.obe Ob.meadow_power_status g = 0)))

/-- Fences and settings (R236, R255, R269, R270): a fenced role makes the state of every bound peer under it 3, and one no longer fenced 1; a port whose fence bit changes goes to electrical idle or
takes its mode; an erase is remembered for the next cold start; alert causes are cleared bit by bit; a new root hash ends every session. Stored values are due in the journal. -/
def Obligations.FencesAndSettings : Prop :=
  ∀ (s : State) (src : Source),
    let m := s.asked src
    (∀ (e : Fin 256) (v : BitVec 32), src ≠ .bar0 → s.Writes src Ob.fence_role → s.served (.fenceRoleWrite src e v) src Ob.fence_role e fun x =>
      x.obe Ob.fence_role e = v.toNat ∧ (∀ i < 256, i ≠ (e : Nat) → x.obe Ob.fence_role i = s.obe Ob.fence_role i) ∧ x.dict.journalDue = true ∧
      ∀ i < 4096, (s.bound i = true → x.peerFenced i = true → x.obe Ob.peer_state i = 3) ∧
        (s.bound i = true → x.peerFenced i = false → x.obe Ob.peer_state i = if s.obe Ob.peer_state i = 3 then 1 else s.obe Ob.peer_state i) ∧
        (s.bound i = false → x.obe Ob.peer_state i = s.obe Ob.peer_state i)) ∧
    (∀ v : BitVec 32, s.Writes src Ob.port_fence → s.served (.portFenceWrite src v) src Ob.port_fence 0 fun x =>
      x.ob Ob.port_fence = v.toNat ∧ x.dict.journalDue = true ∧ x.tiles = s.tiles ∧ x.net = s.net ∧
      ∀ p < 32, (bit v.toNat p ≠ bit (s.ob Ob.port_fence) p → x.portAs p fun i => s.portServed p = true ∧ i ∈ (modeSubs (s.obe Ob.port_mode p)).map (·.1)) ∧
        (bit v.toNat p = bit (s.ob Ob.port_fence) p → ∀ i < 8, x.obe Ob.port_state (p * 8 + i) = s.obe Ob.port_state (p * 8 + i))) ∧
    (s.Writes src Ob.settings_erase → s.served (.settingsErase src 0xE5E5) src Ob.settings_erase 0 fun x => x = { m with dict := { m.dict with eraseNext := true } }) ∧
    (∀ mask : BitVec 32, s.Writes src Ob.alert_cause → s.served (.alertCauseClear src mask) src Ob.alert_cause 0 fun x =>
      x.Shows m [(Ob.alert_cause, x.ob Ob.alert_cause)] ∧ ∀ k < 32, bit (x.ob Ob.alert_cause) k = (bit (s.ob Ob.alert_cause) k && !mask.getLsbD k)) ∧
    (∀ hash : Bytes, hash.length = 48 → s.Writes .mailbox Ob.fm_root_hash → s.served (.fmRootHashWrite .mailbox hash) .mailbox Ob.fm_root_hash 0 fun x =>
      x.ob Ob.fm_root_hash = leNat hash ∧ x.dict.journalDue = true ∧ (∀ n < 4, (x.sess n).opened = false) ∧
      (∀ n < 4, (s.sess n).opened = true → s.commitSent (1 + n) = false → (s.txnOf (1 + n)).opened = true → x.txnEnded (1 + n) 4 9) ∧ x.tiles = s.tiles ∧ x.net = s.net)

/-- A source's transaction (R264, R271, R274, R277): it is opened, its commit is queued, or taken up at once where no other is under way and then prepared or refused with a reason, and it is aborted with
reason 10, or 7 when nothing has been staged for `txn_idle`. -/
def Obligations.TransactionCommands : Prop :=
  ∀ (s : State) (src : Source) (n : Nat), srcTxn src = some n →
    let t0 := s.txnOf n
    let status (x : State) : Nat := bits (x.obe Ob.txn_status n) 2 0
    (s.Writes src Ob.txn_command →
      let did (c : Instr) (f : State → Prop) : Prop := s.served c src Ob.txn_command 0 f
      (t0.opened = false → did (.txnOpen src) fun x => x.txnOf n = { opened := true, lastStage := s.now } ∧ status x = 1 ∧
        (∀ i, i ≠ n → x.txnOf i = s.txnOf i) ∧ x.txn.holder = s.txn.holder ∧ { x with txn := s.txn, dict := s.dict } = s) ∧
      (t0.opened = true → t0.committing = false →
        (∀ c, s.txn.current = some c → s.txn.own = [] → did (.txnCommit src) fun x => x.txn.current = some c ∧ x.txn.queue = s.txn.queue ++ [{ why := .source n, values := t0.staged }] ∧
          x.txnOf n = { t0 with committing := true } ∧ x.dict.vals = s.dict.vals ∧ { x with txn := s.txn, dict := s.dict } = s) ∧
        (s.txn.current = none → s.noCommitWaits → did (.txnCommit src) fun x =>
          (∃ c, x.txn.current = some c ∧ c.why = .source n ∧ c.values = t0.staged ∧ c.step = .preparing ∧ c.takenUp = s.now ∧ status x = 2 ∧
            x.txnOf n = { t0 with committing := true } ∧ t0.conflict = []) ∨
          (∃ reason, x.txn.current = none ∧ x.txnEnded n 5 reason ∧ (t0.conflict ≠ [] → reason = 4)))) ∧
      (t0.opened = true → s.commitSent n = false → status s ≠ 2 → s.txn.own = [] → did (.txnAbort src) fun x => x.txnEnded n 4 10)) ∧
    (t0.opened = true → s.boot.steward = .running → s.commitSent n = false → s.noCommitWaits → s.ob Ob.txn_idle * 1000000 ≤ s.now - t0.lastStage →
      ∃ t, exec (.txnIdleTimeout src) s = .next t ∧ t.txnEnded n 4 7 ∧ t.tiles = s.tiles)

/-- A commit under way (R187, R188, R274 to R277): when every unit has prepared it, its EPOCH notice is sent with the instant 50 µs on, unless it waits for retirement or for its migration; prepare and
retirement have their limits. At the instant it is in force everywhere: the count of commits is its number, its source is told, and a change of routes flips the epoch bit. The packets of the
previous epoch are counted every 10 µs until it is retired; one that is overdue is reported once. -/
def Obligations.CommitEvents : Prop :=
  ∀ (s : State) (c : Commit), s.txn.current = some c →
    let number := s.ob Ob.txn_count + 1
    let limit := s.ob Ob.epoch_retire_limit * 1000
    (s.boot.steward = .running → c.step = .preparing ∨ c.step = .prepared →
      ((∃ i, c.why = .migration i) ∨ (c.flip = true ∧ s.txn.oldLive = true) →
        exec .commitPrepared s = .next { s with txn := { s.txn with current := some { c with step := .prepared } } }) ∧
      ((∀ i, c.why ≠ .migration i) → c.flip = false ∨ s.txn.oldLive = false → ∃ t, exec .commitPrepared s = .next t ∧
        t.txn = { s.txn with current := some { c with step := .sent, number, instant := s.now + 50000 }, noticed := [], missed := [] } ∧ t.nextPkt = s.nextPkt + 2 ∧
        (∃ k, t.pkt s.nextPkt = some k ∧ k.h.cls = 5 ∧ k.h.op = 0x20 ∧ k.fan = some [] ∧ k.h.arg0 = s.now + 50000 ∧ bits k.h.arg1 63 32 = number % 2 ^ 32 ∧ bit k.h.arg1 0 = c.flip) ∧
        { t with txn := s.txn, net := s.net, nextPkt := s.nextPkt } = s)) ∧
    (s.boot.steward = .running → s.noCommitWaits →
      (c.step = .preparing → c.takenUp + 10000000 ≤ s.now → ∃ t, exec .commitPrepareTimeout s = .next t ∧ t.commitRefused c 6) ∧
      (c.step = .prepared → c.flip = true → s.txn.oldLive = true → c.takenUp + limit ≤ s.now → ∃ t, exec .commitRetireTimeout s = .next t ∧ t.commitRefused c 12)) ∧
    (c.step = .sent → c.instant ≤ s.now → s.noCommitWaits → ∃ t, exec .epochInstant s = .next t ∧
      t.txn.current = none ∧ t.txn.lastApplied = c.number ∧ t.txn.missedFlip = c.flip ∧ (s.txn.noticed = [] → t.txn.missed = []) ∧ t.ob Ob.txn_count = c.number ∧
      (∀ n < 5, c.why = .source n → t.txnOf n = {} ∧ bits (t.obe Ob.txn_status n) 2 0 = 3 ∧ bits (t.obe Ob.txn_status n) 127 64 = c.number % 2 ^ 64) ∧
      (c.flip = true → t.ob Ob.route_epoch = 1 - s.ob Ob.route_epoch ∧ t.txn.oldLive = true) ∧
      (∀ key e v, c.values = [(elemKey key e, some v)] → e < 256 → key ∈ [Ob.spread_base, Ob.spread_granules, Ob.spread_seed, Ob.meadow_power_weight, Ob.meadow_power_cap, Ob.credit_capacity] →
        t.obe key e = v)) ∧
    (s.boot.steward = .running → s.txn.oldLive = true →
      (10000 ≤ s.now - s.txn.collectAt → s.txn.missed = [] → ∃ t, exec .epochCountCollect s = .next t ∧ t.txn.collectAt = s.now ∧
        (s.oldPackets = 0 → t.txn.oldLive = false ∧ t.ob Ob.route_epoch_count = (s.ob Ob.route_epoch_count + 1) % 2 ^ 64) ∧
        (s.oldPackets ≠ 0 → t = { s with txn := { s.txn with collectAt := s.now, oldCount := s.oldPackets } })) ∧
      (s.txn.overdueSent = false → limit ≤ s.now - s.txn.retireSince → ∃ t, exec .epochRetireOverdue s = .next t ∧ t.txn = { s.txn with overdueSent := true } ∧ t.tiles = s.tiles ∧
        s.Reported t fun r => r.kind = 0x0304)) ∧
    (∀ n k, s.atSink n = some k → k.h.cls = 5 → k.h.op = 0x20 → ∃ t, exec (.epoch n) s = .next t ∧ t.pkt n = none ∧
      (k.target ∈ s.txn.missed → t.txn.missed = s.txn.missed.filter (· != k.target) ∧ s.Reported t fun r => r.kind = 0x0305 ∧ r.detail = bits k.h.arg1 63 32) ∧
      (k.target ∉ s.txn.missed → c.step = .sent → c.instant = k.h.arg0 → k.target ∉ s.txn.noticed → t.txn = { s.txn with noticed := s.txn.noticed ++ [k.target] }))

/-- Migrations (R284 to R287): the spare gets the tile's memories while writes are tracked, and the map change is queued or refused; the tile is frozen once the tables are prepared and the previous epoch
is retired; everything else goes over, the dirty granules' bytes among it; the EPOCH notice is sent with the instant; the spare resumes 1 µs after it; after retirement the old tile is
blank and fallow. A packet of the previous epoch goes on to the successor. Thawed by the steward, at the freeze limit or by itself after 2 ms, a migration is abandoned and counted. -/
def Obligations.Migrations : Prop :=
  ∀ (s : State) (m : Fin 8),
    let x := s.mig m
    let p := x.oldPhys
    let q := x.spare
    let did (c : Instr) (f : State → Prop) : Prop := ∃ t, exec c s = .next t ∧ f t
    let mine (c : Commit) : Prop := s.txn.current = some c ∧ c.why = .migration m ∧ c.step = .prepared
    let running := s.boot.steward = .running
    let only (t : State) : Prop := { t with migs := s.migs } = s
    p ≠ q →
    (x.step = 1 → running → (∀ c, s.txn.current = some c → did (.migratePrecopy m) fun t =>
        s.migrationIs t m { x with step := 2 } ∧ (t.tile p).trackDirty = true ∧ (t.tile p).dirty = [] ∧ (t.tile q).frozen = true ∧ (t.tile q).imem = (s.tile p).imem ∧
        (t.tile q).slots = (s.tile p).slots ∧ (t.tile q).cistern = (s.tile p).cistern ∧ (∀ i, i ≠ p → i ≠ q → t.tile i = s.tile i) ∧ t.txn.current = some c ∧
        ∃ y ∈ t.txn.own ++ t.txn.queue, y.why = .migration m ∧ y.values = [(elemKey Ob.map x.logical, some q)]) ∧
      (s.txn.current = none → s.noCommitWaits → did (.migratePrecopy m) fun t => (t.mig m = { x with step := 2 } ∧ (t.tile q).cistern = (s.tile p).cistern ∧ (t.tile p).trackDirty = true) ∨ s.Abandoned t m 3)) ∧
    (x.step = 2 → did (.precopyComplete m) fun t => s.migrationIs t m { x with step := 3 } ∧ only t) ∧
    (∀ c, mine c → x.step = 3 → s.txn.oldLive = false → running → did (.migrateFreeze m) fun t => s.migrationIs t m { x with step := 4, frozenAt := s.now } ∧
      t.tile p = { s.tile p with frozen := true } ∧ (∀ i, i ≠ p → t.tile i = s.tile i) ∧ { t with migs := s.migs, tiles := s.tiles } = s) ∧
    (x.step = 4 → x.frozen = false → s.settledToFreeze p = true → did (.freezeComplete m) fun t => s.migrationIs t m { x with frozen := true } ∧ only t) ∧
    (x.step = 4 → x.frozen = true → (s.tile p).frozen = true → running → did (.migrateHandoverCopy m) fun t => s.migrationIs t m { x with step := 5 } ∧
      t.tile p = s.tile p ∧ (t.tile q).frozen = true ∧ (t.tile q).imem = (s.tile q).imem ∧ (t.tile q).slots = (s.tile q).slots ∧
      (t.tile q).seq = (s.tile p).seq ∧ (t.tile q).wells = (s.tile p).wells ∧ (t.tile q).pumps = (s.tile p).pumps ∧ (t.tile q).ranges = (s.tile p).ranges ∧ (t.tile q).stream = (s.tile p).stream ∧
      (∀ a, (t.tile q).cistern.read a = if a / 4096 ∈ (s.tile p).dirty then (s.tile p).cistern.read a else (s.tile q).cistern.read a) ∧
      (∀ n k, s.pkt n = some k → k.loc = .ni → k.issuer = p → t.pkt n = some { k with issuer := q })) ∧
    (∀ c, mine c → x.step = 5 → running → did (.handoverCopyComplete m) fun t => s.migrationIs t m { x with sentEpoch := true, instant := s.now + 50000, step := 6 } ∧
      t.txn.current = some { c with step := .sent, number := s.ob Ob.txn_count + 1, instant := s.now + 50000 } ∧ t.tiles = s.tiles ∧ t.dict = s.dict) ∧
    (x.step = 7 → x.instant + 1000 ≤ s.now → did (.spareResume m) fun t => s.migrationIs t m { x with step := 8 } ∧ (t.tile q).frozen = false ∧ (∀ i, i ≠ q → t.tile i = s.tile i)) ∧
    (x.step = 8 → s.txn.oldLive = false → running → did (.migrateRelease m) fun t => s.migrationIs t m {} ∧ (t.tile p).seq = {} ∧ (t.tile p).cistern = [] ∧ (t.tile p).logical = none ∧
      (t.tile p).oldLogical = none ∧ s.countedRec t Ob.migrate_counts 1 ∧ ∀ r, x.rotation = some r → t.slot r = { s.slot r with step := 2, gaveUp := x.instant, since := s.now }) ∧
    (s.txn.current = none ∨ (∃ c, mine c) → s.noCommitWaits → x.sentEpoch = false → 4 ≤ x.step →
      (running → did (.migrateThaw m) fun t => s.Abandoned t m 3) ∧
      (x.step = 4 → x.frozen = false → s.ob Ob.migrate_freeze_limit * 1000 ≤ s.now - x.frozenAt → did (.migrateFreezeTimeout m) fun t => s.Abandoned t m 2) ∧
      (x.step ≤ 5 → 2000000 ≤ s.now - x.frozenAt → did (.migrateSelfThaw m) fun t => s.Abandoned t m 3)) ∧
    (∀ n k, s.pkt n = some k → s.toForward k = true → s.physOf k.h.dst < 4608 → did (.oldEpochForward n) fun t =>
      t.pkt n = some { k with target := s.physOf k.h.dst, loc := .sink, since := s.now, h := { k.h with epoch := s.ob Ob.route_epoch == 1 } } ∧ (∀ i, i ≠ n → t.pkt i = s.pkt i) ∧ t.dict = s.dict)

/-- Steps and errors (R279, R324 to R327, R337, R338): the commit of a step that is ready raises the step number by one, swaps every state pair of the meadow's tiles and completes barrier 15; a step that makes no progress
is reported, and the meadow's one automatic action follows where it is asked for. The oldest report on its way is folded, or logged under the next number; a folded record is logged with its count when
its time is over. -/
def Obligations.StepsAndErrors : Prop :=
  ∀ (s : State),
    let folded (s : State) (r : Report) : List Report :=
      if s.errs.folding.any r.folds = true then s.errs.folding.map fun x => if r.folds x = true then { x with count := sat 16 (x.count + 1) } else x else s.errs.folding ++ [r]
    let report (t : State) (r : Report) : Prop := Tbl.get 0 t.errs.log (s.ob Ob.errlog_next) = r.word (s.ob Ob.errlog_next) ∧ t.ob Ob.errlog_next = (s.ob Ob.errlog_next + 1) % 2 ^ 64
    (∀ g : Meadow, s.stepReady g = true → bit (s.stepGroup g) 0 = false ∨ (s.job g).released = true → ∃ t, exec (.stepCommit g) s = .next t ∧
      t.obe Ob.step_number g = (s.obe Ob.step_number g + 1) % 2 ^ 64 ∧ (t.job g).stepPending = false ∧ (t.job g).drained = false ∧ (t.job g).released = false ∧ (t.job g).stepAt = s.now ∧
      ((s.memberTiles g).Nodup → ∀ p ∈ s.memberTiles g,
        (∀ n < 16, ((t.tile p).trough n) = if ((s.tile p).trough n).configured = true ∧ ((s.tile p).trough n).statePair = true then ((s.tile p).trough n).swap s.now else (s.tile p).trough n) ∧
        ((t.tile p).barrier 15).completed = (((s.tile p).barrier 15).completed + 1) % 65536) ∧
      (∀ q, q ∉ s.memberTiles g → (t.tile q).seq = (s.tile q).seq ∧ (t.tile q).troughs = (s.tile q).troughs)) ∧
    (∀ g : Meadow, s.obe Ob.step_timeout g ≠ 0 → s.obe Ob.job_state g = 2 → s.obe Ob.step_timeout g * 1000000 ≤ s.now - (s.job g).stepAt →
      ∃ t, exec (.stepTimeout g) s = .next t ∧ (t.job g).stepAt = s.now ∧
        (bit (s.obe Ob.hang_action g) 1 = false → t.tiles = s.tiles ∧ t.obe Ob.job_state g = 2 ∧ s.Reported t fun r => r.kind = 0x0800 ∧ r.meadow = g ∧ r.detail = s.obe Ob.step_number g % 2 ^ 32) ∧
        (bit (s.obe Ob.hang_action g) 1 = true → t.obe Ob.job_state g = 3 ∧ ∀ p ∈ s.memberTiles g, (t.tile p).seq.tasks = [])) ∧
    (∀ r rest, s.errs.queue = r :: rest → s.boot.steward = .running →
      (foldedKind r.kind = true → exec .errorReport s = .next { s with errs := { s.errs with queue := rest, folding := folded s r } }) ∧
      (foldedKind r.kind = false → ∃ t, exec .errorReport s = .next t ∧ report t r ∧ t.errs.folding = s.errs.folding ∧ (∃ more, t.errs.queue = rest ++ more) ∧
        (silentKind r.kind = true → bit (t.ob Ob.alert_cause) 3 = true) ∧ (silentKind r.kind = false → t.tiles = s.tiles ∧ t.jobs = s.jobs))) ∧
    (∀ (key : Nat) r, s.errs.folding[key]? = some r → s.boot.steward = .running → s.ob Ob.errlog_coalesce * 1000 ≤ s.now - r.time →
      ∃ t, exec (.errlogCoalesceExpiry key) s = .next t ∧ report t r ∧ t.errs.folding = dropAt s.errs.folding key ∧ t.tiles = s.tiles)

/-- The steward's own events (R23, R25, R255, R262, R267, R277, R301, R326, R381, R383): a lockstep mismatch restarts it, or in recovery mode ends every session and is logged at once; when it serves again a discarded BAR0 write is recorded
and the settings are journalled. The settings journal takes every stored value, in both formats while a trial is unconfirmed; the NOR copy takes the defect list, and with it a confirm is
complete; an idle session ends, and its transaction with it. -/
def Obligations.StewardEvents : Prop :=
  ∀ (s : State),
    let quiet (t : State) : Prop := s.noMigration → t.tiles = s.tiles ∧ t.net = s.net
    (∀ c, c = s.boot.steward → s.slotGood s.fw.record.active = true → c = .booting ∨ c = .running ∨ c = .restarting → ∃ t, exec .stewardLockstepMismatch s = .next t ∧
      t.boot = { s.boot with lockstepPending := true, steward := if c = .booting then .booting else .restarting, bootAt := s.now } ∧ bit (t.ob Ob.alert_cause) 0 = true ∧ quiet t ∧
      (c ≠ .booting → t.fw.fetching = false)) ∧
    (s.boot.steward = .recovery → ∃ t, exec .stewardLockstepMismatch s = .next t ∧ t.boot = { s.boot with lockstepPending := false } ∧ (∀ n < 4, (t.sess n).opened = false) ∧
      bit (t.ob Ob.alert_cause) 0 = true ∧ quiet t ∧ s.Reported t fun r => r.kind = 0x0600) ∧
    (s.boot.steward = .restarting → (∀ y ∈ s.jobs, y.2.isolating = false) → ∃ t, exec .stewardRestartComplete s = .next t ∧
      t.boot = { s.boot with steward := .running, lockstepPending := false } ∧ t.tiles = s.tiles ∧ t.net = s.net ∧ t.dict.journalDue = false ∧ t.dict.restartRefusal = none ∧
      (s.boot.lockstepPending = true → ∃ r ∈ t.errs.queue, r.kind = 0x0600) ∧
      (∀ key, s.dict.restartRefusal = some key → t.ob Ob.dict_last_error = 0x0900 + fld (key / 256 % 65536) 16 + fld (key % 256) 32 + fld (s.now % 2 ^ 64) 64)) ∧
    (s.boot.steward = .running → s.dict.journalDue = true → exec .settingsJournalWrite s = .next { s with
      dict := { s.dict with stored := storedOf s.dict.vals, storedOld := if s.fw.record.trial = true then some (storedOf s.dict.vals) else s.dict.storedOld, journalDue := false } }) ∧
    (s.boot.steward = .running → ∀ since, s.defects.norDue = some since → exec .defectNorWrite s = .next { s with
      defects := { s.defects with nor := s.defects.list, norDue := none }
      fw := { s.fw with confirmDue := false }
      dict := { s.dict with storedOld := if s.fw.confirmDue = true then none else s.dict.storedOld } }) ∧
    (∀ n : Session, (s.sess n).opened = true → s.boot.steward = .running ∨ s.boot.steward = .recovery → s.noCommitWaits → s.ob Ob.fm_session_idle * 1000000 ≤ s.now - (s.sess n).lastMsg →
      ∃ t, exec (.sessionIdleTimeout n) s = .next t ∧ t.sess n = {} ∧ (∀ i, i ≠ (n : Nat) → t.sess i = s.sess i) ∧ t.tiles = s.tiles ∧ t.net = s.net ∧
        ((s.txnOf (1 + n)).opened = true → s.commitSent (1 + n) = false → t.txnEnded (1 + n) 4 9))

/-- Dictionary accesses (R254, R255, R260, R263 to R267, R272): an RW write stores the value, and has it journalled where the object is stored; an RWT write stages it in the source's
open transaction and leaves the committed value; reads, reads of staged values and descriptions are answered with the elements' bytes. BAR0 reads give the slot's bytes, all ones while
the steward restarts. The mailbox serves the request in its buffer; busy, it counts what it discards. SPDM opens and ends sessions, and a DICT packet is answered once it is in
sequence. -/
def Obligations.DictAccess : Prop :=
  ∀ (s : State) (src : Source),
    let m := s.asked src
    (∀ key e v o, s.Writes src key → objInfo key = some o → o.takes src e v →
      (o.acc = 1 → key ∉ actedKeys → (key = Ob.clock_max → v % 25 = 0) → (key = Ob.margin_warn → s.ob Ob.margin_retire < v) → (key = Ob.margin_retire → v < s.ob Ob.margin_warn) →
        (key = Ob.errlog_push → bits v 31 17 = 0 ∧ bits v 63 48 = 0) → s.served (.dictWrite (accessOf src key e v)) src key e fun x =>
          x.obe key e = v ∧ (∀ k i, i < 65536 → (k ≠ key ∨ i ≠ e) → x.obe k i = s.obe k i) ∧ x.dict.journalDue = (o.pers = 1 || s.dict.journalDue) ∧
            { x with dict := { x.dict with vals := m.dict.vals, journalDue := m.dict.journalDue } } = m) ∧
      (o.acc = 4 → ∀ n, srcTxn src = some n → (s.txnOf n).opened = true → (s.txnOf n).committing = false →
        (∀ tb, tableOf key = some tb → Tbl.get 0 s.txn.holder tb = 0 ∨ Tbl.get 0 s.txn.holder tb = n + 1) → (tableOf key = none → (s.txnOf n).count < 4096) →
        s.served (.rwtStage (accessOf src key e v)) src key e fun x =>
          Tbl.get none (x.txnOf n).staged (elemKey key e) = some v ∧ (∀ k, k ≠ elemKey key e → Tbl.get none (x.txnOf n).staged k = Tbl.get none (s.txnOf n).staged k) ∧
            (x.txnOf n).lastStage = s.now ∧ (∀ tb, tableOf key = some tb → Tbl.get 0 x.txn.holder tb = n + 1) ∧ bits (x.obe Ob.txn_status n) 2 0 = 1 ∧
            (∀ k i, i < 65536 → k ≠ Ob.txn_status → x.obe k i = s.obe k i) ∧ x.tiles = s.tiles ∧ x.net = s.net)) ∧
    (s.Serves src → ∀ r o,
      let gives (c : Instr) (data : Bytes) : Prop := exec c s = .next (m.respond src (answerWith r data))
      (asksFor r src 1 o → gives (.dictRead src r) ((List.range r.count).map fun i => toLE o.size (m.readElem o (r.first + i))).flatten) ∧
        (asksFor r src 3 o → gives (.readStaged src r) ((List.range r.count).map fun i => toLE o.size (m.stagedElem src o (r.first + i))).flatten) ∧
        (reqFits r = true → r.op = 4 → r.reserved = 0 → r.length = 0 → r.data = [] → r.index < 0xF000 → objInfo (r.index * 256 + r.sub) = some o → (src = .i3c → i3cIndex r.index = true) →
          gives (.describe src r) (toLE 8 o.header ++ toLE 8 (if o.scalar = true then objDefault s.fused o.key 0 else 0)))) ∧
    (∀ off size : Nat, size = 4 ∨ size = 8 → off % size = 0 → off + size ≤ bar0Bytes → s.host.linkUp = true →
      (s.boot.steward = .restarting → exec (.bar0Read off size) s = .next { s with dict := { s.dict with bar0Value := 2 ^ (8 * size) - 1 } }) ∧
      (s.boot.steward = .running → ∀ o, objInfo (slotKey off) = some o → ∃ t, exec (.bar0Read off size) s = .next t ∧ { t with dict := { t.dict with bar0Value := s.dict.bar0Value } } = s ∧
        t.dict.bar0Value = (if o.scalar = true then s.readElem o 0 else o.header) / 2 ^ (8 * (off % 8)) % 2 ^ (8 * size))) ∧
    (∀ (reg : BitVec 64) (buf : Bytes), buf.length ≤ mailboxBytes → s.host.linkUp = true →
      let v := reg.toNat
      let set (mbBuf : Mem) (n : Nat) : State :=
        { s with dict := { s.dict with mbBuf := mbBuf, mbIe := bit v 4, mbVector := bits v 10 5, mbDone := s.dict.mbDone && !bit v 2, mbRefused := n } }
      let filled := Mem.writeBytes s.dict.mbBuf 0 buf
      (s.dict.mbBusy = true → exec (.mailboxGo reg buf) s = .next (set s.dict.mbBuf ((s.dict.mbRefused + (if buf = [] then 0 else 1) + (if bit v 0 = true then 1 else 0)) % 2 ^ 64))) ∧
        (s.dict.mbBusy = false → bit v 0 = false → exec (.mailboxGo reg buf) s = .next (set filled s.dict.mbRefused)) ∧
        (s.dict.mbBusy = false → bit v 0 = true → s.boot.steward = .running → ∃ x y, exec (.mailboxGo reg buf) s = .next (x.respond .mailbox y) ∧
          (x, y) = (set filled s.dict.mbRefused).serve (writeAct none none) .mailbox (reqOf (Mem.readBytes filled 0 mailboxBytes)))) ∧
    (∀ n : Session, s.boot.steward = .running →
      (∀ root, root = s.ob Ob.fm_root_hash → (s.sess n).opened = false → root ≠ 0 → ∃ t, exec (.spdm n (.keyExchange root true)) s = .next t ∧
        (t.sess n).opened = true ∧ (t.sess n).lastMsg = s.now ∧ (∀ i, i ≠ n.val → t.sess i = s.sess i) ∧ t.tiles = s.tiles ∧ t.txn = s.txn) ∧
      (∀ root both, both = false ∨ root ≠ s.ob Ob.fm_root_hash ∨ s.ob Ob.fm_root_hash = 0 → exec (.spdm n (.keyExchange root both)) s = .next s) ∧
      ((s.sess n).opened = true → ∃ t, exec (.spdm n .endSession) s = .next t ∧ t.sess n = {} ∧ (∀ i, i ≠ n.val → t.sess i = s.sess i) ∧ t.tiles = s.tiles ∧
        ((s.txnOf (1 + n)).opened = true → s.commitSent (1 + n) = false → t.txnEnded (1 + n) 4 9)) ∧
      ((s.sess n).opened = true → ∃ t, exec (.spdm n .other) s = .next t ∧ t.sess n = { s.sess n with lastMsg := s.now } ∧ ∀ i, i ≠ n.val → t.sess i = s.sess i)) ∧
    (∀ (f : Frame) s1 i g, f.wf = true → f.op = 9 → s.boot.steward = .running → s.inbound f 0 = .taken s1 i → s1.dstMeadow f = some g → f.space = 3 →
      (s1.peer f.die i).ctl = [] →
      let did (h : State → Prop) : Prop := ∃ t, exec (.trashandiDict f) s = .next t ∧ h t
      let next := 2 ^ 31 ≤ (f.seq + 2 ^ 32 - ((s1.peer f.die i).space 3).rxCum) % 2 ^ 32
      let sized := f.payloadLen = f.payload.length ∧ f.payloadLen ≤ 4096
      (¬ next → did fun t => (t.peer f.die i).ctl = [f] ∧ t.dict = s1.dict ∧ t.tiles = s1.tiles) ∧
        (next → sized → bit (s1.obe Ob.peer_perm i) 1 = false → did fun t => (t.peer f.die i).ctl = [] ∧ t.answered i f 5 [] ∧ t.tiles = s1.tiles) ∧
        (next → sized → bit (s1.obe Ob.peer_perm i) 1 = true → s1.boot.steward = .running →
          (s1.unsealed f.payload = none → (reqOf f.payload).op ≠ 5 → did fun t => bits (t.ob Ob.dict_last_error) 15 0 = 0x0C03 ∧ t.tiles = s1.tiles ∧
            t.answered i f 0 (respBytes { status := 0x0C, req := { reqOf f.payload with length := 0, data := [] } })) ∧
          (∀ n bs, s1.unsealed f.payload = some (n, bs) → (reqOf bs).op ≠ 5 → did fun t => ∃ y, Tbl.get none t.dict.sessResp n.val = some y ∧
            y.req.op = (reqOf bs).op ∧ y.req.tag = (reqOf bs).tag ∧ t.answered i f 0 (Config.dictSeal (s1.sess n).key (respBytes y)))))

/-- Continuous test (R315 to R317, R319 to R323, R330 to R332): a rotation slot takes at most `rotation_width` tiles, each isolated or under migration; the end of a visit frees the slot, resets the tile and
counts it as passed or failed. Shadows are assigned from the heath each second; the notice, the 100 µs limit, the comparison and the third run lead an operation to its end or to a suspect.
A margin is shown and reported below its limits; each day the projections are made anew. -/
def Obligations.RotationShadow : Prop :=
  ∀ (s : State),
    let running := s.boot.steward = .running
    let did (c : Instr) (f : State → Prop) : Prop := ∃ t, exec c s = .next t ∧ f t
    let only (t : State) (p : Nat) : Prop := ∀ q, q ≠ p → t.tile q = s.tile q
    (s.ob Ob.rotation_enable = 1 → running → s.boot.routersUp = true → (∀ y ∈ s.test.slots, y.2.step = 0) → s.ob Ob.rotation_slot * 1000000 ≤ s.now - s.test.slotStart →
      did .rotationSlot fun t => t.test.slotStart = s.now ∧ t.net = s.net ∧ t.txn = s.txn ∧ ∀ i, (t.slot i).step = 0 ∨ (i < s.ob Ob.rotation_width ∧ (t.slot i).since = s.now ∧
        (((t.slot i).step = 2 ∧ (t.slot i).logical = none ∧ s.roleOf (t.slot i).phys = none) ∨
          (∃ l, ∃ m < 8, (t.slot i).step = 1 ∧ (t.slot i).logical = some l ∧ (t.mig m).step = 1 ∧ (t.mig m).oldPhys = (t.slot i).phys ∧ (t.mig m).logical = l ∧ (t.mig m).rotation = some i)))) ∧
    (∀ (i : Fin 8) fs, fs.all Failure.wf = true → (s.slot i).step = 2 → (s.slot i).phys < 4608 → running →
      let p := (s.slot i).phys
      let fails := s.visitFailures p fs
      did (.rotationTestComplete i fs) fun t => t.slot i = {} ∧ (t.tile p).ResetState ∧ (t.tile p).cistern = [] ∧ p ∉ t.test.first ∧
        (fails = [] → s.countedRec t Ob.rotation_counts 1 ∧ t.obe Ob.tile_last_test p = s.now) ∧ (fails ≠ [] → s.countedRec t Ob.rotation_counts 2) ∧
        (∀ l, (s.slot i).logical = some l → (∃ f ∈ fails, f.kind ≤ 6) → ∃ r ∈ t.errs.queue, r.kind = 0x0700 ∧ r.phys = p ∧ r.logical = l ∧ r.detail2 = (s.slot i).gaveUp)) ∧
    ((s.tiles.map (·.1)).Nodup → running → s.boot.routersUp = true → 1000000000 ≤ s.now - s.test.shadowAt → did .shadowAssign fun t =>
      t.test.shadowAt = s.now ∧ t.net = s.net ∧ t.dict = s.dict ∧ ∀ p, { t.tile p with shadow := { (t.tile p).shadow with assigned := (s.tile p).shadow.assigned } } = s.tile p ∧
        ((s.tile p).shadow.outstanding.isSome = true → (s.tile p).shadow.assigned.isSome = true → t.tile p = s.tile p) ∧
        ∀ q, (t.tile p).shadow.assigned = some q → q ∈ s.heath ∨ (s.tile p).shadow.assigned = some q ∧ (s.tile p).shadow.outstanding.isSome = true) ∧
    (∀ p : Phys, let x := (s.tile p).shadow
      ((s.tile p).awaitsNotice = true →
        (running → (s.tile p).shadowHeld = none → exec (.shadowCopyDone p) s = .next (s.modTile p fun t => { t with shadow := { t.shadow with noticed := true } })) ∧
        (∀ since, (s.tile p).shadowHeld = some since →
          (running → did (.shadowCopyDone p) fun t => (t.tile p).shadow.noticed = true ∧ s.lostTime t p (s.now - since) ∧ only t p ∧ { t with tiles := s.tiles } = s ∧
            { t.tile p with shadow := (s.tile p).shadow } = s.tile p) ∧
          (100000 ≤ s.now - since → did (.shadowHoldTimeout p) fun t => s.countedRec t Ob.shadow_counts 5 ∧ (s.tile p).ShadowOver (t.tile p) ∧ s.lostTime t p (s.now - since) ∧ only t p ∧ t.net = s.net))) ∧
      (∀ (sig : BitVec 64) a, x.sig = some a → x.outstanding.isSome = true → x.noticed = true → x.abandoned = false → x.sig2 = none → running → did (.shadowCompare p sig) fun t =>
        s.countedRec t Ob.shadow_counts 1 ∧ only t p ∧ t.errs = s.errs ∧ (a = sig → (s.tile p).ShadowOver (t.tile p)) ∧
          (a ≠ sig → s.countedRec t Ob.shadow_counts 2 ∧ t.tile p = { s.tile p with shadow := { x with sig2 := some sig } })) ∧
      (∀ sig a b q, x.sig = some a → x.sig2 = some b → x.assigned = some q → x.outstanding.isSome = true → running → did (.thirdRunComplete p sig) fun t =>
        (t.tile p).shadow.outstanding = none ∧ (sig ≠ some a ∨ sig = some b → s.countedRec t Ob.shadow_counts 3 ∧ t.mismatchTold p x ∧ p.val ∈ t.test.first) ∧
          (sig ≠ some b → s.countedRec t Ob.shadow_counts 4 ∧ t.mismatchTold q x ∧ (s.passedOver q = false → q ∈ t.test.first ∨ ∃ i < 8, (t.slot i).step = 2 ∧ (t.slot i).phys = q))) ∧
      (∀ ps : Int, -32768 ≤ ps → ps ≤ 32767 → running → s.boot.routersUp = true → darkRow s.variant p = false →
        let warns := ps < s.ob Ob.margin_warn ∧ p.val ∉ s.test.warned
        did (.marginMeasurement p ps) fun t => t.obe Ob.margin p = unsigned 16 ps ∧ Tbl.get [] t.test.margins p =
            ((Tbl.get [] s.test.margins p).filter fun y => s.now - y.1 ≤ 90 * day) ++ [(s.now, ps)] ∧ t.tiles = s.tiles ∧ t.net = s.net ∧
          (warns → p.val ∈ t.test.warned ∧ ∃ r ∈ t.errs.queue, r.kind = 0x0603 ∧ r.phys = p) ∧
          (ps < s.ob Ob.margin_retire → p.val ∈ t.test.first ∧ ∃ r ∈ t.errs.queue, r.kind = 0x0604 ∧ r.phys = p) ∧
          (¬ warns → ¬ ps < s.ob Ob.margin_retire → t.errs = s.errs))) ∧
    (running → (s.test.margins.map (·.1)).Nodup → (∀ y ∈ s.test.margins, y.1 < 65536) → s.test.lastEol < s.now / day → did .eolProjection fun t =>
      (∀ y ∈ s.test.margins, t.obe Ob.margin_eta y.1 = s.crossing y.2) ∧ t.test = { s.test with lastEol := s.now / day } ∧ { t with test := s.test, dict := s.dict } = s ∧
      ((∀ y ∈ s.test.margins, ∀ z ∈ y.2, s.now - z.1 < 30 * day) → t.ob Ob.eol_date = 0) ∧
      ((∃ y ∈ s.test.margins, ∃ z ∈ y.2, 30 * day ≤ s.now - z.1) →
        t.ob Ob.eol_date = eolDate (s.test.margins.map fun y => s.crossing y.2) s.otherRetired (s.heath.length - s.ob Ob.heath_reserve) (s.now / day)))

/-- Sluices, interfaces and routers (R124 to R129, R160, R162, R164, R168 to R175, R185, R189): buckets refill at each 64 ns, a packet is charged once both hold more than zero, leaves its interface with its tracker and
reply space, and moves from router to router in its turn: forwarded, copied, delivered, or by the escape channel once it has waited. A malformed header is discarded and reported. -/
def Obligations.SluicesRouters : Prop :=
  ∀ (s : State), s.netWf →
    let did (c : Instr) (f : State → Prop) : Prop := ∃ t, exec c s = .next t ∧ f t
    (Tbl.wf {} s.tiles = true → s.sluiceAt / 64 < s.now / 64 → did .sluiceRefill fun t => t.sluiceAt = s.now ∧ t.net = s.net ∧ t.dict = s.dict ∧
      (∀ p, (s.tile p).meadow = none → t.tile p = s.tile p) ∧
      (∀ p g, (s.tile p).meadow = some g → t.tile p = { s.tile p with sluice := {
        tile := (s.tileShare g).refill (s.sluiceAt / 64) (s.now / 64) (s.tile p).sluice.tile, meadow := (s.meadowShare g).refill (s.sluiceAt / 64) (s.now / 64) (s.tile p).sluice.meadow } }) ∧
      ∀ d < 2, ∀ g ∈ s.meadows, Tbl.get 0 (t.die d).egress g = (s.egressShare d g).refill (s.sluiceAt / 64) (s.now / 64) (Tbl.get 0 (s.die d).egress g)) ∧
    (∀ (p : Phys) (n : Nat) k, s.pkt n = some k → k.loc = .ni → k.issuer = p.val → k.admitted = false → 0 < (s.tile p).sluice.tile → 0 < (s.tile p).sluice.meadow →
      (∀ y ∈ s.waitingAt p, y.2.admitted = true ∨ y.1 = n ∨ s.niBefore (n, k) y = true) → did (.sluiceAdmit p n) fun t =>
        (∃ z, t.pkt n = some z ∧ { z with spaceAt := k.spaceAt } = { k with admitted := true, since := s.now }) ∧
        (t.tile p).sluice = { tile := (s.tile p).sluice.tile - (k.charge : Nat), meadow := (s.tile p).sluice.meadow - (k.charge : Nat) } ∧ (∀ q, q ≠ p.val → t.tile q = s.tile q) ∧
        ∀ g, (s.tile p).meadow = some g → t.obe Ob.sluice_wait g = (s.obe Ob.sluice_wait g + (s.now - k.since)) % 2 ^ 64) ∧
    (∀ (n : Nat) k, s.pkt n = some k → k.loc = .ni → s.issuable k.issuer n k = true → k.h.cls < 3 ∨ k.h.cls = 4 → k.fan = none →
      (∀ y ∈ s.waitingAt k.issuer, y.1 = n ∨ y.2.h.cls ≠ k.h.cls ∨ s.issuable k.issuer y.1 y.2 = false ∨ s.niBefore (n, k) y = true) → did (.requestIssue n) fun t =>
        (t.replyState k.issuer).1 = (s.replyState k.issuer).1 + k.want ∧ (t.replyState k.issuer).2.1 = (s.replyState k.issuer).2.1 + 1 ∧
        (s.noTarget k = false → ∃ z, t.pkt n = some z ∧ z.loc ≠ .ni ∧ z.h.deadline = deadlineField s.now k.deadlineFull ∧ z.h.epoch = s.epochBit k.issuer ∧ z.h.op = k.h.op ∧ z.h.addr = k.h.addr ∧ z.data = k.data) ∧
        (s.noTarget k = true → ∃ z, t.pkt n = some z ∧ z.h.cls = 2 ∧ z.h.status = 7)) ∧
    (∀ (n : Nat) k since, s.pkt n = some k → k.loc = .ni → (s.replyState k.issuer).2.2 = none → s.lacksSpace k.issuer n k = true → k.spaceAt = some since → s.cycles k.issuer 256 ≤ s.now - since →
      did (.readSpaceClaim n) fun t => t.replyState k.issuer = ((s.replyState k.issuer).1, (s.replyState k.issuer).2.1, some n) ∧ t.dict = s.dict ∧ t.routers = s.routers) ∧
    (∀ (n : Nat) k r port esc, s.pkt n = some k → k.loc = .chan r port esc →
      (6 ≤ k.h.cls ∨ 64 < k.h.length → did (.routerHeaderArrival n) fun t => t.pkt n = none ∧ s.told t fun y => y.kind = 0x0300 ∧ y.phys = r) ∧
      (k.h.cls < 6 → k.h.length ≤ 64 → s.atHead r n →
        (s.hop r k = .out 4 false → exec (.routerHeaderArrival n) s = exec (.routerHeaderArrival n) (s.setPkt n { k with h := { k.h with phase := true } })) ∧
        (s.hop r k = .wait → did (.routerHeaderArrival n) fun t => t.standsAt n k k.loc ∧ t.tiles = s.tiles ∧ t.dict = s.dict) ∧
        (s.turn r n k →
          (∀ d e q, s.hop r k = .out d e → meshNeighbour r d = some q → k.h.cls ≠ 3 → did (.routerHeaderArrival n) fun t => t.standsAt n k (.chan q (opposite d) e) ∧
            Tbl.get 0 (t.router r).flits (d * 8 + k.h.cls) = Tbl.get 0 (s.router r).flits (d * 8 + k.h.cls) + (1 + k.h.length) ∧ t.dict = s.dict ∧ t.jobs = s.jobs) ∧
          (s.hop r k = .deliver → did (.routerHeaderArrival n) fun t => t.standsAt n k .sink ∧ (∀ z, t.pkt n = some z → z.target = k.unitAt r) ∧ t.jobs = s.jobs) ∧
          (∀ d outs, s.hop r k = .copy d → k.fan = some outs → n ≠ s.nextPkt → did (.routerHeaderArrival n) fun t =>
            (outs.filter (· ≠ d) = [] → t.pkt n = none) ∧ (outs.filter (· ≠ d) ≠ [] → t.standsAt n k k.loc ∧ ∀ z, t.pkt n = some z → z.fan = some (outs.filter (· ≠ d))) ∧
            (d = 4 → t.standsAt s.nextPkt k .sink)))) ∧
      (∀ since, esc = false → k.blockedAt = some since → k.h.cls < 3 ∨ k.h.cls = 4 → k.fan = none → s.atHead r n → s.hop r k = .wait → s.cycles r (s.ob Ob.escape_wait) ≤ s.now - since →
        let k1 : Packet := { k with h := { k.h with escaped := true, phase := true, interRow := k.h.routeRow, interCol := k.h.routeCol } }
        let d := s.escapeOut k.h.epoch r k1.goal
        (d ≠ 4 → 0 < s.outSpace r d k.h.cls true → did (.escapeWaitExpiry n) fun t => ∃ q, meshNeighbour r d = some q ∧ t.standsAt n k1 (.chan q (opposite d) true) ∧
          Tbl.get 0 (t.router r).escapes (d * 8 + k.h.cls) = Tbl.get 0 (s.router r).escapes (d * 8 + k.h.cls) + 1) ∧
        (d = 4 → s.hop r k1 = .deliver → did (.escapeWaitExpiry n) fun t => t.standsAt n k1 .sink)) ∧
      (∀ e, e = s.wants r k * 8 + k.h.cls → s.atHead r n → k.h.cls ≠ 5 → Tbl.get 0 (s.router r).waits e ≠ 0 → e ∉ (s.router r).due → s.cycles r 256 ≤ s.now + 1 - Tbl.get 0 (s.router r).waits e →
        did (.classWaitExpiry n) fun t => t.router r = { s.router r with due := (s.router r).due ++ [e] } ∧ { t with routers := s.routers } = s)) ∧
    (Tbl.wf {} s.routers = true → (∀ y ∈ s.routers, y.1 < 4608) → 1000000 ≤ s.now - s.telemetry.packetAt → did .packetTelemetryPublish fun t => t.telemetry = { s.telemetry with packetAt := s.now } ∧ t.net = s.net ∧
      t.tiles = s.tiles ∧ ∀ y ∈ s.routers, (t.router y.1).depth = [] ∧ ∀ port < 5, ∀ cls < 6, t.obe (Ob.pkt_flits0 + cls) (y.1 * 5 + port) = Tbl.get 0 y.2.flits (port * 8 + cls)) ∧
    (s.telemetry.streamAt + 1000000 ≤ s.now → did .streamTelemetrySample fun t => t.telemetry = { s.telemetry with streamAt := s.now } ∧ t.net = s.net ∧ ∀ p l, (s.tile p).logical = some l →
      (t.tile p).stream.sampleBase = (t.tile p).stream.stallCycles ∧
        (l < 4096 → (∀ q m, (s.tile q).logical = some m → m < 4096 ∧ (m = l → q = p)) → t.obe Ob.stream_stall l = (((t.tile p).stream.stallCycles.map (·.2)).foldl (· + ·) 0) % 2 ^ 64)) ∧
    (∀ (p : Phys) (dir : Dir), linkOut p dir = true → s.boot.routersUp = true →
      let recent := (Tbl.get [] (s.router p).retries dir).filter fun y => s.now - y < 1000000000
      did (.linkCrcRetry p dir) fun t => t.obe Ob.link_retries (p * 4 + dir) = (s.obe Ob.link_retries (p * 4 + dir) + 1) % 2 ^ 64 ∧ (s.told t fun y => y.kind = 0x0112 ∧ y.phys = p ∧ y.subUnit = dir) ∧
        (recent.length < s.ob Ob.link_retry_limit → Tbl.get [] (t.router p).retries dir = recent ++ [s.now] ∧ t.txn = s.txn ∧ t.defects = s.defects) ∧
        (s.ob Ob.link_retry_limit ≤ recent.length → s.boot.steward = .running → s.linkFenced p dir = false → s.fenceQueued p dir = false → (s.told t fun y => y.kind = 0x0113 ∧ y.phys = p ∧ y.subUnit = dir) ∧
          ∃ x ∈ t.allDefects, x.kind = 7 ∧ x.unit = p ∧ x.sub = dir)) ∧
    (∀ p : Phys, s.boot.steward = .running → s.boot.routersUp = true →
      (s.noMigration → (s.tile p).meadow = none → did (.tileRingTimeout p) fun t => (∃ y ∈ t.errs.queue, y.kind = 0x0802 ∧ y.phys = p) ∧ t.defects = s.defects) ∧
      (∀ g, (s.tile p).meadow = some g → (s.job g).image.isSome = true → (∀ f ∈ (s.job g).faults, f.phys ≠ p) → s.retired p = false → (s.job g).recovering = false → s.obe Ob.fault_policy g = 0 →
        did (.tileRingTimeout p) fun t => (∃ y ∈ t.errs.queue, y.kind = 0x0802 ∧ y.phys = p) ∧ (t.job g).faults = (s.job g).faults ++ [{ phys := p, time := s.now, kind := 0 }]))

/-- Requests and replies at tiles (R66, R103, R112, R118, R119, R152, R154, R155, R164, R174, R178 to R180, R185, R195, R196, R229): a tile refuses, or takes and answers, a READ, a WRITE and a SEND, and a port die adds a REDUCE into its entry; a SEND that finds its well full waits at the head until
it is placed or expires. C5 notices ask for a drain and open the gates; a graph source stops, a quiet tile contributes once, a drain that lasts too long flushes the meadow. A reply frees its tracker and reply space, and its
pump, task or port die takes what it brings. -/
def Obligations.RequestsReplies : Prop :=
  ∀ (s : State), s.netWf →
    let did (c : Instr) (f : State → Prop) : Prop := ∃ t, exec c s = .next t ∧ f t
    let freed (t : State) (unit want : Nat) : Prop := (t.replyState unit).1 = (s.replyState unit).1 - want ∧ (t.replyState unit).2.1 = (s.replyState unit).2.1 - 1
    (∀ (n : Nat) k, s.atSink n = some k →
      let p := k.target
      let off := bits k.h.addr 22 0
      let data := k.data.take k.h.bytes
      let well := bits k.h.arg0 14 12
      let placed (t : State) (st : Nat) : Prop := t.replied n k st ∧ (st ≠ 0 → ((t.tile p).well well).msgs = ((s.tile p).well well).msgs) ∧
        (st = 0 → ((t.tile p).well well).msgs = ((s.tile p).well well).msgs ++ [{ sender := k.sender, descs := k.descs }] ∧ ((t.tile p).well well).placed = (((s.tile p).well well).placed + 1) % 65536)
      (k.h.cls ≤ 1 → k.h.op = 2 → p < 4608 →
        (s.consumeCheck p k.h ≠ 0 → did (.write n) fun t => t.replied n k (s.consumeCheck p k.h) ∧ (t.tile p).cistern = (s.tile p).cistern) ∧
        (s.consumeCheck p k.h = 0 → cisternBytes s.variant < off + data.length → did (.write n) fun t => t.replied n k 1 ∧ (t.tile p).cistern = (s.tile p).cistern) ∧
        (s.consumeCheck p k.h = 0 → off + data.length ≤ cisternBytes s.variant → (s.tile p).edgePoison off data.length = false →
          (k.h.cls = 0 ∨ bit k.h.arg1 9 = false → s.noDuplicates p off data → did (.write n) fun t => t.replied n k 0 ∧ s.cisternGot t p off data ∧ ∀ q, q ≠ p → (t.tile q).cistern = (s.tile q).cistern) ∧
          (k.h.cls = 1 → bit k.h.arg1 9 = true → k.h.arg1 % 512 ∉ (s.tile p).ni.groupSlots → 16 ≤ (s.tile p).ni.groupSlots.length → did (.write n) fun t =>
            t.replied n k 0x0B ∧ (t.tile p).cistern = (s.tile p).cistern))) ∧
      (k.h.cls ≤ 1 → k.h.op = 2 → p = 4608 → k.hostForm = true → k.postAperture = false →
        (s.host.linkUp = true → did (.write n) fun t => t.replied n k 0 ∧ ∀ i < data.length, t.hostByte (bits k.h.addr 47 0 + i) = data.getD i 0) ∧
        (s.host.linkUp = false → did (.write n) fun t => t.replied n k 0x0A ∧ t.host = s.host)) ∧
      (k.h.cls ≤ 1 → p < 4608 →
        (k.h.op ≠ 2 → s.consumeCheck p k.h ≠ 0 → did (.read n) fun t => t.replied n k (s.consumeCheck p k.h) ∧ (t.tile p).cistern = (s.tile p).cistern) ∧
        (k.h.op ≠ 1 → k.h.op ≠ 2 → s.consumeCheck p k.h = 0 → did (.read n) fun t => t.replied n k 0x0C) ∧
        (k.h.op = 1 → s.consumeCheck p k.h = 0 →
          (cisternBytes s.variant < off + k.h.bytes → did (.read n) fun t => t.replied n k 1 ∧ (t.tile p).cistern = (s.tile p).cistern) ∧
          (off + k.h.bytes ≤ cisternBytes s.variant →
            (2 ≤ (s.tile p).poison off k.h.bytes → did (.read n) fun t => t.replied n k 3 ∧ s.told t fun y => y.kind = 0x0104 ∧ y.phys = p ∧ y.detail2 = off) ∧
            ((s.tile p).poison off k.h.bytes < 2 → did (.read n) fun t => t.replied n k 0 ∧ ((s.tile p).poison off k.h.bytes = 0 → (t.tile p).cistern = (s.tile p).cistern) ∧
              ∃ z, t.pkt n = some z ∧ z.data = (List.range k.h.bytes).map fun i => (s.tile p).cistern.read (off + i))))) ∧
      (k.h.cls ≤ 1 → k.h.op = 1 → p = 4608 → k.hostForm = true → k.postAperture = false →
        (s.host.linkUp = true → did (.read n) fun t => t.replied n k 0 ∧ t.host = s.host ∧ ∃ z, t.pkt n = some z ∧ z.data = (List.range k.h.bytes).map fun i => s.hostByte (bits k.h.addr 47 0 + i)) ∧
        (s.host.linkUp = false → did (.read n) fun t => t.replied n k 0x0A)) ∧
      (∀ d, d < 2 → k.h.cls = 3 → p = 4608 + d →
        let id := bits k.h.addr 43 12
        let count := bits k.h.arg0 16 0
        let data := k.data.take (bits k.h.arg0 44 32)
        (k.h.op ≠ 4 → exec (.reduce n) s = .next (s.consume n k)) ∧
        (k.h.op = 4 → id < 0xFFFFFE00 →
          (∀ e x, s.findRed d id = some e → s.redOf d e = some x → x.armed = false → x.delivering = false → x.type = bits k.h.addr 47 44 → did (.reduce n) fun t => t.pkt n = none ∧
            t.redOf d e = some { x.add (bits k.h.addr 11 0) data with count := x.count + count } ∧ t.tiles = s.tiles) ∧
          (∀ e, s.findRed d id = none → s.freeRed d = some e → did (.reduce n) fun t => t.pkt n = none ∧ t.tiles = s.tiles ∧
            ∃ x, t.redOf d e = some x ∧ x.id = id ∧ x.type = bits k.h.addr 47 44 ∧ x.meadow = k.h.meadow ∧ x.count = count ∧ x.armed = false) ∧
          (s.findRed d id = none → s.freeRed d = none → did (.reduce n) fun t => t.pkt n = none ∧ t.obe Ob.reduce_lost d = (s.obe Ob.reduce_lost d + 1) % 2 ^ 64 ∧
            (t.die d).red = (s.die d).red ∧ s.told t fun y => y.kind = 0x0302 ∧ y.detail2 = id)) ∧
        (∀ g, k.h.op = 4 → id = 0xFFFFFF00 + g → bits k.h.addr 11 0 = 0 → let q := (Tbl.get {} (s.die d).meadowRed g).quiet + count
          q ≠ (s.members g).length → did (.reduce n) fun t => t.pkt n = none ∧ (Tbl.get {} (t.die d).meadowRed g).quiet = q ∧ t.tiles = s.tiles)) ∧
      (k.h.cls = 4 → p < 4608 → (s.tile p).ni.c4head = none →
        (s.consumeCheck p k.h ≠ 0 → did (.c4SendArrival n) fun t => t.replied n k (s.consumeCheck p k.h) ∧ (t.tile p).wells = (s.tile p).wells) ∧
        (s.consumeCheck p k.h = 0 → k.h.op = 3 → wellOperandOk k.h.arg0 = true → k.descs.length ≤ 4 →
          (∀ st, s.placeNow p k = some st → did (.c4SendArrival n) fun t => placed t st) ∧
          (s.placeNow p k = none → did (.c4SendArrival n) fun t => (t.tile p).ni.c4head = some n ∧ t.pkt n = some { k with loc := .head, since := s.now } ∧ (t.tile p).wells = (s.tile p).wells ∧ t.dict = s.dict))) ∧
      (k.h.cls = 3 → p < 4608 →
        (k.h.op = 5 → s.takesCopy p k.h = true → off + data.length ≤ cisternBytes s.variant → did (.mcastWrite n) fun t => s.cisternGot t p off data ∧
          (bit k.h.arg0 17 = true → ((s.tile p).counter (bits k.h.arg0 16 13)).reached = false → ((s.tile p).counter (bits k.h.arg0 16 13)).stopped = false →
            ((t.tile p).counter (bits k.h.arg0 16 13)).count = (((s.tile p).counter (bits k.h.arg0 16 13)).count + 1) % 2 ^ 32)) ∧
        (k.h.op ≠ 5 ∨ s.takesCopy p k.h = false → exec (.mcastWrite n) s = .next (s.consume n k))) ∧
      (k.h.cls = 5 → p < 4608 →
        (k.h.op = 0x22 → s.takesCopy p k.h = true → did (.drain n) fun t => t.pkt n = none ∧ t.tile p = { (s.consume n k).tile p with
          stream := { (s.tile p).stream with drainTok := some (5, 0), drainSince := s.now, quietSent := false } }) ∧
        (k.h.op = 0x23 → s.takesCopy p k.h = true → did (.resume n) fun t => (t.tile p).stream.drainTok = none ∧ (t.tile p).stream.stopped = [] ∧ (t.tile p).stream.quietSent = false) ∧
        (k.h.op = 0x21 → s.takesCopy p k.h = true →
          (k.h.arg0 = 0 → did (.quiet n) fun t => t.pkt n = none ∧ t.tile p = { (s.consume n k).tile p with stream := { (s.tile p).stream with drainTok := none } }) ∧
          (k.h.arg0 ≠ 0 → k.h.arg0 ≤ 16 → (s.tile p).power.state = .t0 → did (.quiet n) fun t =>
            ((t.tile p).barrier (k.h.arg0 - 1)).completed = (((s.tile p).barrier (k.h.arg0 - 1)).completed + 1) % 65536)) ∧
        (s.takesCopy p k.h = false → k.h.op = 0x21 → exec (.quiet n) s = .next (s.consume n k)) ∧
        (s.takesCopy p k.h = false → (k.h.op = 0x22 → exec (.drain n) s = .next (s.consume n k)) ∧ (k.h.op = 0x23 → exec (.resume n) s = .next (s.consume n k)))) ∧
      (k.h.cls = 2 → p < 4608 → s.consumeCheck p k.h = 0 →
        (∀ j, (s.tile p).jobOf k.h.flow n = some j →
          let mine (t : State) (f : PumpJob → Prop) : Prop := ∃ x ∈ ((t.tile p).pump k.h.flow).jobs, x.stamp = j.stamp ∧ f x
          (k.h.op = 0x10 → k.h.status = 0 → did (.readData n) fun t => freed t p k.want ∧ s.cisternGot t p k.landing (k.data.take k.want) ∧ mine t fun x => x.okBytes = j.okBytes + k.want) ∧
          (k.h.op = 0x11 → k.h.flow ≠ dupFlow → k.h.status = 0 → did (.writeAck n) fun t => freed t p k.want ∧ (t.tile p).cistern = (s.tile p).cistern ∧ mine t fun x => x.okBytes = j.okBytes + k.landing) ∧
          (k.h.op = 0x11 → k.h.flow ≠ dupFlow → k.h.status ≠ 0 → did (.writeAck n) fun t => freed t p k.want ∧ (t.tile p).cistern = (s.tile p).cistern ∧
            mine t fun x => x.stopped = true ∧ x.err = lowest j.err (pumpErrOf k.h.status))) ∧
        (∀ i d, k.h.op = 0x12 → k.h.flow = 0x10 + i → i < 16 → ((s.tile p).task i).state = .stalled → ((s.tile p).task i).stall = some (.send k.h.seq d) → ((s.tile p).task i).pc ≠ 0xFFFC#16 →
          did (.sendDone n) fun t => freed t p k.want ∧ ((t.tile p).task i).stall = none ∧ ((t.tile p).task i).pc = ((s.tile p).task i).pc + 4 ∧
            (∀ r, r ≠ 0 → t.reg p i r = if d = some r then BitVec.ofNat 64 (sendStatusOf k.h.status) else s.reg p i r) ∧
            ∀ st, Tbl.get 0 (t.tile p).seq.sendStat st = Tbl.get 0 (s.tile p).seq.sendStat st + (if d = none ∧ st = sendStatusOf k.h.status ∧ st ≠ 0 then 1 else 0))) ∧
      (k.h.cls = 2 → k.h.op ≠ 0x10 → k.h.op ≠ 0x11 → k.h.op ≠ 0x12 → exec (.writeAck n) s = .next (s.consume n k)) ∧
      (∀ d j, k.h.cls = 2 → d < 2 → p = 4608 + d → s.dieJob d k.h.tag = some j → (∀ a b c e f g, j.work ≠ .forwarded a b c e f g) → 1 < j.left →
        (k.h.op = 0x10 → did (.readData n) fun t => freed t p k.want ∧ ∃ x, t.dieJob d k.h.tag = some x ∧ x.left = j.left - 1 ∧ x.work = j.work ∧ x.status = lowest j.status k.h.status) ∧
        (k.h.op = 0x11 → did (.writeAck n) fun t => freed t p k.want ∧ ∃ x, t.dieJob d k.h.tag = some x ∧ x.left = j.left - 1 ∧ x.work = j.work ∧ x.status = lowest j.status k.h.status))) ∧
    (∀ (p : Phys) (n : Nat) k, s.headSend p = some (n, k) →
      let well := bits k.h.arg0 14 12
      let w := (s.tile p).well well
      (∀ st, s.placeNow p k = some st → st ≠ 0x0F → did (.sendPlace p) fun t => t.replied n k st ∧ (t.tile p).ni.c4head = none ∧
        ((t.tile p).well well).msgs = (if st = 0 then w.msgs ++ [{ sender := k.sender, descs := k.descs }] else w.msgs) ∧ (st ≠ 0 → ((t.tile p).well well).refused = (w.refused + 1) % 65536)) ∧
      (k.h.arg1 ≤ s.now → did (.sendExpiry p) fun t => t.replied n k 0x0F ∧ (t.tile p).ni.c4head = none ∧ ((t.tile p).well well).msgs = w.msgs ∧ ((t.tile p).well well).expired = (w.expired + 1) % 65536)) ∧
    (∀ (p : Phys) (n : Fin 32), (s.tile p).stream.drainTok.isSome = true ∨ (s.tile p).folding = true → (s.tile p).sourceFinished n = true → (s.tile p).sourceCredit n = true → (s.tile p).frozen = false →
      ((s.tile p).toStop n = true → did (.graphSourceStop p n) fun t => n.val ∈ (t.tile p).stream.stopped) ∧
      ((s.tile p).toStop n = false → (s.tile p).toClose n = true → did (.graphSourceStop p n) fun t => n.val ∈ (t.tile p).stream.closed)) ∧
    (∀ (p : Phys) g, (s.tile p).meadow = some g → (s.tile p).quiet = true → (s.tile p).allStopped = true → (s.tile p).stream.quietSent = false → (s.tile p).ni.dups = [] → (s.tile p).folding = false →
      did (.quietContribution p) fun t => (t.tile p).stream = { (s.tile p).stream with quietSent := true } ∧ (∀ q, q ≠ p.val → t.tile q = s.tile q) ∧
        ∃ z, t.pkt s.nextPkt = some z ∧ z.loc = .ni ∧ z.issuer = p ∧ z.h.cls = 3 ∧ z.h.op = 4 ∧ z.h.addr = meadowEntryAddr g 0 ∧ z.data = toLE 8 1) ∧
    (∀ g : Meadow, (∃ p ∈ s.memberTiles g, (s.tile p).stream.drainTok.isSome = true ∧ s.ob Ob.drain_timeout * 1000 ≤ s.now - (s.tile p).stream.drainSince) → did (.drainTimeout g) fun t =>
      (t.job g).stepPending = false ∧ (s.told t fun y => y.kind = 0x0402 ∧ y.meadow = g) ∧
        ∀ p ∈ s.memberTiles g, (t.tile p).stream.drainTok = none ∧ (t.tile p).stream.inQ = [] ∧ (t.tile p).stream.slackQ = [] ∧ (t.tile p).stream.sinkQ = [])

/-- Ports and frames of other protocols (R203, R205 to R207, R237): a failed lane is marked, and its port trains again at half rate, or its sub-port goes down and is reported; training ends up or down. LLDP frames
leave once a second and neighbours' are kept; ARP, neighbour and echo requests for an own address are answered, what is not understood is dropped and counted. PTP disciplines fabric time. -/
def Obligations.PortFrames : Prop :=
  ∀ (s : State),
    let did (c : Instr) (f : State → Prop) : Prop := ∃ t, exec c s = .next t ∧ f t
    (∀ (port : Port) (lane : Fin 8), ∀ x ∈ modeSubs (s.obe Ob.port_mode port), x.2.1 ≤ lane.val → lane.val < x.2.1 + x.2.2 →
      let mode := s.obe Ob.port_mode port
      let sp := port.val * 8 + x.1
      let st := s.obe Ob.port_state sp
      let fails := s.obe Ob.port_lane_fail port ||| 2 ^ lane.val
      let after (v : Nat) : Prop := did (.laneFail port lane) fun t => t.obe Ob.port_lane_fail port = fails ∧ t.obe Ob.port_state sp = v ∧ s.otherPorts t sp ∧
        (v = 5 → st ≠ 5 → s.told t fun r => r.kind = 0x0500 ∧ r.detail = 5 ∧ r.subUnit = port.val * 8 + lane.val)
      (st = 0 ∨ st = 5 → after st) ∧ (st ≠ 0 → st ≠ 5 → st ≠ 6 → mode ≠ 1 → after 5) ∧
        (mode = 1 → (st = 3 ∧ 4 ≤ lane.val) ∨ (st = 4 ∧ lane.val < 4) → after st) ∧ (mode = 1 → (st = 3 ∧ lane.val < 4) ∨ (st = 4 ∧ 4 ≤ lane.val) → after 5) ∧
        (mode = 1 → st = 1 ∨ st = 2 → after (if bits fails 3 0 = 0 ∨ bits fails 7 4 = 0 then 1 else 5))) ∧
    (∀ (port : Port) (up : Bool), (∃ x ∈ modeSubs (s.obe Ob.port_mode port), s.obe Ob.port_state (port.val * 8 + x.1) = 1) → did (.portRetrainDone port up) fun t =>
      let fails := s.obe Ob.port_lane_fail port
      ∀ x ∈ modeSubs (s.obe Ob.port_mode port), t.obe Ob.port_state (port.val * 8 + x.1) =
        if s.obe Ob.port_state (port.val * 8 + x.1) ≠ 1 then s.obe Ob.port_state (port.val * 8 + x.1) else if up = false then 5
        else if s.obe Ob.port_mode port = 1 then (if fails = 0 then 2 else if bits fails 3 0 = 0 then 3 else if bits fails 7 4 = 0 then 4 else 5)
        else if bits fails (x.2.1 + x.2.2 - 1) x.2.1 = 0 then 2 else 5) ∧
    (∀ sp : SubPort, s.subUp sp = true →
      let d := dieOfSub sp
      let last := Tbl.get 0 (s.die d).lldpAt sp
      let counted (t : State) (i : Nat) : Prop := s.countedAt t Ob.port_counts sp i ∧ t.tiles = s.tiles ∧ t.net = s.net
      (last = 0 ∨ 1000000000 ≤ s.now + 1 - last → did (.lldpTransmit sp) fun t => s.sentOther t sp (s.lldpFrame sp) ∧ Tbl.get 0 (t.die d).lldpAt sp = s.now + 1) ∧
      (∀ pdu, did (.lldpReceive sp pdu) fun t => counted t 0 ∧ t.obe Ob.lldp_neighbour sp = leNat (pdu.take 1500)) ∧
      (∀ f : ArpNd, f.wf = true →
        let v4 := s.obe Ob.port_ipv4 sp
        let v6 := s.obe Ob.port_ipv6 sp
        (f.isRequest = false → did (.arpNdFrame sp f) fun t => counted t 0 ∧ t.dies = s.dies) ∧
          (f.isRequest = true → v4 ≠ 0 → f.target = v4 → did (.arpNdFrame sp f) fun t => counted t 0 ∧ s.sentOther t sp (s.ether sp f.senderMac 0x0806 true
            (toBE 8 0x0001080006040002 ++ toBE 6 (s.obe Ob.port_mac sp) ++ toBE 4 v4 ++ toBE 6 f.senderMac ++ toBE 4 f.senderIp))) ∧
          (f.isRequest = true → v4 = 0 ∨ f.target ≠ v4 → v6 ≠ 0 → f.target = v6 → did (.arpNdFrame sp f) fun t => counted t 0 ∧ ∃ bs, s.sentOther t sp bs ∧ bs.take 6 = toBE 6 f.senderMac) ∧
          (f.isRequest = true → v4 = 0 ∨ f.target ≠ v4 → v6 = 0 ∨ f.target ≠ v6 → did (.arpNdFrame sp f) fun t => counted t 0 ∧ counted t 4 ∧ t.dies = s.dies)) ∧
      (∀ f : Echo, f.wf = true →
        let own := if f.v6 = true then s.obe Ob.port_ipv6 sp else s.obe Ob.port_ipv4 sp
        let back := if f.v6 = true then f.src else v4Block f.src
        let size := (if f.v6 = true then 44 else 24) + f.data.length
        (own = 0 ∨ f.dst ≠ own → did (.icmpEchoRequest sp f) fun t => counted t 0 ∧ counted t 4 ∧ t.dies = s.dies) ∧
          (own ≠ 0 → f.dst = own → 4208 < size → did (.icmpEchoRequest sp f) fun t => counted t 0 ∧ counted t 8 ∧ t.dies = s.dies) ∧
          (own ≠ 0 → f.dst = own → size ≤ 4208 → did (.icmpEchoRequest sp f) fun t => counted t 0 ∧ s.sentOther t sp
            (s.ether sp (s.nextHop sp back) (etherType back) true (s.icmp sp 0 129 back f.data)))) ∧
      (did (.pausePfcFrame sp) fun t => counted t 0 ∧ counted t 9 ∧ t.dies = s.dies) ∧
      (∀ cause i, (cause, i) ∈ [(DropCause.unknownType, 4), (DropCause.udpChecksum, 5), (DropCause.badVersion, 6), (DropCause.badKind, 7), (DropCause.tooLong, 8)] →
        did (.otherFrame sp cause) fun t => counted t 0 ∧ counted t i ∧ t.dies = s.dies) ∧
      (∀ f : Ptp, f.wf = true → s.obe Ob.ptp_port d ≠ sp → did (.ptpFrame sp f) fun t => counted t 0 ∧ t.dies = s.dies ∧ t.now = s.now) ∧
      (s.obe Ob.ptp_port d = sp →
        let x := (s.die d).ptp
        let dom := s.ob Ob.ptp_domain
        (∀ t1, Ptp.wf (.sync dom t1) = true → did (.ptpFrame sp (.sync dom t1)) fun t => counted t 0 ∧ s.sentOther t sp (s.delayRequest sp (x.asked + 1)) ∧ (t.die d).ptp.t1 = t1 ∧
          (t.die d).ptp.t2 = s.now ∧ (t.die d).ptp.t3 = s.now ∧ (t.die d).ptp.asked = x.asked + 1 ∧ t.now = s.now ∧ (d = s.ptpDie → x.locked = false → bits (t.ob Ob.ptp_status) 63 0 = 1)) ∧
        (∀ t4, Ptp.wf (.delayResp dom x.t3 t4) = true →
          let a : Int := (x.t2 : Int) - x.t1
          let b : Int := (t4 : Int) - x.t3
          did (.ptpFrame sp (.delayResp dom x.t3 t4)) fun t => counted t 0 ∧ (t.die d).ptp.locked = true ∧ (d ≠ s.ptpDie → t.now = s.now ∧ t.slew = s.slew) ∧
            (d = s.ptpDie → bits (t.ob Ob.ptp_status) 63 0 = 2 ∧
              ((a - b) / 2 < 0 → s.noneRunning = true → t.now = (s.now + (-((a - b) / 2)).toNat) % 2 ^ 64 ∧ t.slew = 0) ∧
              (0 ≤ (a - b) / 2 ∨ s.noneRunning = false → t.now = s.now ∧ t.slew = -((a - b) / 2)))) ∧
        (Ptp.wf (.announceLost dom) = true → did (.ptpFrame sp (.announceLost dom)) fun t => counted t 0 ∧ (t.die d).ptp.locked = false ∧ t.now = s.now ∧
          (d = s.ptpDie → bits (t.ob Ob.ptp_status) 63 0 = if x.locked = true then 3 else 0))))

/-- Peers and acknowledgement (R210, R213 to R218, R236): a hello goes to every bound peer of a die each period and is answered; a peer silent for three periods is unreachable. An ACK takes the packets that it covers,
a CE echo narrows the window; what is not acknowledged is sent again on another port with twice the timeout, and at the retry limit given up. -/
def Obligations.PeersAcks : Prop :=
  ∀ (s : State),
    let did (c : Instr) (f : State → Prop) : Prop := ∃ t, exec c s = .next t ∧ f t
    (∀ (die : Die) g, s.firstEndpoint = some g → (∀ since, (s.die die).helloAt = some since → s.ob Ob.hello_period * 1000 ≤ s.now - since) → did (.helloSend die) fun t =>
      (t.die die).helloAt = some s.now ∧ t.tiles = s.tiles ∧ t.net = s.net ∧ (s.upSubs die ≠ [] → (t.die die).frames.length = (s.die die).frames.length + (s.peersOf die).length ∧
        ∀ i ∈ s.peersOf die, ∃ x ∈ (t.die die).frames, x.kind = 2 ∧ x.srcRole = s.obe Ob.role_id g ∧ x.srcEpoch = s.obe Ob.role_epoch g ∧
          x.dstRole = s.obe Ob.peer_endpoint i % 65536 ∧ x.dstEpoch = bits (s.obe Ob.peer_endpoint i) 31 16)) ∧
    (∀ f s1 i, s.arrives f 2 s1 i → s1.upSubs f.die ≠ [] → did (.hello f) fun t => (t.peer f.die i).lastHeard = s.now ∧ s1.frameSent t f.die fun x =>
      x.kind = 3 ∧ x.dstRole = f.srcRole ∧ x.dstEpoch = f.srcEpoch ∧ x.srcRole = f.dstRole ∧ x.srcEpoch = f.dstEpoch) ∧
    (∀ f s1 i, s.arrives f 3 s1 i → did (.helloReply f) fun t => (t.peer f.die i).lastHeard = s.now ∧ t.obe Ob.peer_state i ≠ 2 ∧ t.tiles = s.tiles ∧ t.net = s.net) ∧
    (∀ peer : Peer, s.bound peer = true → s.obe Ob.peer_state peer = 1 → 3 * s.ob Ob.hello_period * 1000 ≤ s.now - (s.peer (s.obe Ob.peer_home peer) peer).lastHeard →
      did (.peerHelloTimeout peer) fun t => t.obe Ob.peer_state peer = 2 ∧ (s.told t fun r => r.kind = 0x0501 ∧ r.detail = peer.val) ∧ t.tiles = s.tiles ∧ t.dies = s.dies) ∧
    (∀ f s1 i, s.arrives f 1 s1 i → did (.ack f) fun t =>
      let x := s1.peer f.die i
      let left := (x.space f.space).unacked.filter fun u => !ackCovers f u.seq
      (t.peer f.die i).cwnd = (x.afterAck s.now (s.now - f.sendTime) f.ceEcho).cwnd ∧ (∃ more, ((t.peer f.die i).space f.space).unacked = left ++ more ∧ ∀ u ∈ more, u.sentAt = s.now) ∧
        ((∀ sp < 4, (x.space sp).held = []) → ((t.peer f.die i).space f.space).unacked = left) ∧ (f.ceEcho = true → s1.countedAt t Ob.peer_counts i 4) ∧ t.tiles = s.tiles ∧ t.net = s.net) ∧
    (∀ (die : Die) (peer : Peer) (space : Space), let y := (s.peer die peer).space space
      (0 < y.rxSinceAck → 2000 ≤ s.now - y.rxFirstAt → did (.ackTimer die peer space) fun t => ((t.peer die peer).space space).rxSinceAck = 0 ∧ ((t.peer die peer).space space).rxCe = false ∧
        (s.upSubs die ≠ [] → s.frameSent t die fun x => x.kind = 1 ∧ x.space = space ∧ x.cumulative = y.rxCum ∧ x.ceEcho = y.rxCe ∧ x.sendTime = y.rxSendTime)) ∧
      (∀ (seq : Nat) u, y.unacked.find? (fun v => v.seq == seq) = some u → u.timeout ≤ s.now - u.sentAt → s.peerFenced peer = false →
        (u.tries + 1 < s.ob Ob.retry_limit → did (.retransmitTimeout die peer space seq) fun t =>
          (∃ v ∈ ((t.peer die peer).space space).unacked, v.seq = u.seq ∧ v.tries = u.tries + 1 ∧ v.sentAt = s.now ∧ v.timeout = min (s.ob Ob.rto_max * 1000) (2 * u.timeout)) ∧
          (t.peer die peer).cwnd = 65536 ∧ (u.frame.port, s.now) ∈ (t.peer die peer).barred ∧ s.countedAt t Ob.peer_counts peer 2 ∧ (s.upSubs die ≠ [] → s.frameSent t die fun x => x.retx = true ∧ x.seq = u.frame.seq)) ∧
        (s.ob Ob.retry_limit ≤ u.tries + 1 → (∀ r ∈ (s.die die).outReqs, ¬ (r.peer = peer.val ∧ r.space = space.val ∧ r.seq = seq)) → did (.retransmitTimeout die peer space seq) fun t =>
          ((t.peer die peer).space space).unacked = y.unacked.filter (fun v => v.seq != seq) ∧ (s.obe Ob.peer_state peer < 2 → t.obe Ob.peer_state peer = 2 ∧ s.told t fun r => r.kind = 0x0501 ∧ r.detail = peer.val) ∧
            t.tiles = s.tiles ∧ t.net = s.net)))

/-- Requests of peers (R201, R212, R219, R223, R224, R229 to R231, R234): what is for no endpoint here is answered 0x07, what comes during a reset 0x0C, what is malformed 0x11; each window check that fails answers its
reason and changes nothing else. A WRITE or a READ that passes becomes C1 packets into the mesh, a SEND a C4 packet, a REDUCE is added and answered. A group's commit waits until its writes have landed; its ring phase frees
the entry and answers 0; an abort or the timeout closes the group. A reply ends the request that it answers; one to no request is counted. -/
def Obligations.InboundRequests : Prop :=
  ∀ (s : State),
    let did (c : Instr) (f : State → Prop) : Prop := ∃ t, exec c s = .next t ∧ f t
    let rows : List (Nat × (Frame → Instr)) := [(1, .trashandiWrite), (2, .trashandiRead), (3, .trashandiSend), (4, .trashandiReduce), (5, .groupCommit), (6, .groupAbort)]
    (∀ f s1 i, s.arrives f 0 s1 i → ∀ x ∈ rows, f.op = x.1 →
      (s.commissioned = false ∨ s1.dstMeadow f = none → did (x.2 f) fun t => t.answered i f 7 [] ∧ s1.onlyAnswered t f.die) ∧
      (∀ g, s.commissioned = true → s1.dstMeadow f = some g →
        (s.now < (s.job g).resetUntil → did (x.2 f) fun t => t.answered i f 0x0C [] ∧ s1.onlyAnswered t f.die) ∧
        ((s.job g).resetUntil ≤ s.now → f.payloadLen ≠ f.payload.length ∨ 4096 < f.payloadLen → did (x.2 f) fun t => t.answered i f 0x11 [] ∧ s1.onlyAnswered t f.die))) ∧
    (∀ f s1 i g, s.requests f s1 i g →
      let d : Nat := f.die
      let base := s1.obe Ob.win_base f.winIndex + f.offset
      let len := f.payload.length
      (f.op = 1 → f.payload ≠ [] → f.space = 0 → let r := s1.windowCheck g i 0 f len
        (r ≠ 0 → did (.trashandiWrite f) fun t => t.answered i f r [] ∧ s1.onlyAnswered t d) ∧
        (r = 0 → s1.bufferFree d len = true → s1.meshParts g base len ≠ 0 →
          (f.id = 0 → did (.trashandiWrite f) fun t => s1.undertakes t d (s1.meshParts g base len) (.inWrite i f.seq f.winIndex none) ∧ t.tiles = s1.tiles ∧ t.nextPkt = s1.nextPkt + s1.meshParts g base len ∧
            (t.die d).inUse = (s1.die d).inUse + len) ∧
          (f.id ≠ 0 → (s1.die d).doneGroups.contains (i, f.id) = true → did (.trashandiWrite f) fun t => t.answered i f 0x0D [] ∧ s1.onlyAnswered t d) ∧
          (∀ e x, f.id ≠ 0 → (s1.die d).doneGroups.contains (i, f.id) = false → s1.findGroup d i f.id = some e → s1.inGroup d e = some x → x.committing = false → x.window = f.winIndex →
            (x.writes < 4096 → x.bytes + len ≤ 67108864 → did (.trashandiWrite f) fun t => s1.undertakes t d (s1.meshParts g base len) (.inWrite i f.seq f.winIndex (some (e, f.id))) ∧
              t.tiles = s1.tiles ∧ ∃ y, t.inGroup d e = some y ∧ y.writes = x.writes + 1 ∧ y.bytes = x.bytes + len ∧ y.landed = x.landed ∧ y.commit = x.commit) ∧
            (4096 ≤ x.writes ∨ 67108864 < x.bytes + len → did (.trashandiWrite f) fun t => t.answered i f 0x0E [] ∧ t.inGroup d e = none ∧ (x.peer, x.id) ∈ (t.die d).doneGroups)))) ∧
      (f.op = 2 → f.space = 0 → f.payload = [] → 0 < f.count → f.count ≤ 4096 → let r := s1.windowCheck g i 1 f f.count
        (r ≠ 0 → did (.trashandiRead f) fun t => t.answered i f r [] ∧ s1.onlyAnswered t d) ∧
        (r = 0 → s1.meshParts g base f.count ≠ 0 → did (.trashandiRead f) fun t =>
          s1.undertakes t d (s1.meshParts g base f.count) (.inRead i f.seq g f.count) ∧ t.tiles = s1.tiles ∧ t.nextPkt = s1.nextPkt + s1.meshParts g base f.count)) ∧
      (f.op = 3 → f.space = 0 → 0 < len → len ≤ 256 → len % 64 = 0 → bits f.id 31 23 = 0 →
        (bit (s1.obe Ob.peer_perm i) 0 = false → did (.trashandiSend f) fun t => t.answered i f 5 [] ∧ s1.onlyAnswered t d) ∧
        (bit (s1.obe Ob.peer_perm i) 0 = true → s1.bufferFree d len = true → did (.trashandiSend f) fun t => s1.undertakes t d 1 (.inSend i f.seq g) ∧ t.tiles = s1.tiles ∧
          ∃ z, t.pkt s1.nextPkt = some z ∧ z.h.cls = 4 ∧ z.h.op = 3 ∧ z.h.meadow = g ∧ z.h.dst = bits f.id 11 0 ∧ z.h.src = 0xFFF ∧ z.data = f.payload ∧ z.h.arg1 = s1.now + us (s1.ob Ob.send_expiry))) ∧
      (f.op = 4 → f.space = 2 → 0 < len → 2 ≤ f.type → f.type ≤ 4 → len % redWidth f.type = 0 → bits f.offset 11 0 % redWidth f.type = 0 → bits f.offset 11 0 + len ≤ 4096 → 0 < f.count → f.count ≤ 65536 →
        let r := s1.windowCheck g i 2 f len
        (r ≠ 0 → did (.trashandiReduce f) fun t => t.answered i f r [] ∧ s1.onlyAnswered t d) ∧
        (r = 0 → s1.bufferFree d len = true → s1.reduceReason d f ≠ 6 → f.id < 0xFFFFFE00 → did (.trashandiReduce f) fun t => t.answered i f (s1.reduceReason d f) [] ∧
          (∀ e x, s1.findRed d f.id = some e → s1.redOf d e = some x → x.armed = false → x.delivering = false → x.type = f.type → ∃ y, t.redOf d e = some y ∧ y.count = x.count + f.count ∧ y.vec = (x.add (bits f.offset 11 0) f.payload).vec) ∧
          (∀ e, s1.findRed d f.id = none → s1.freeRed d = some e → ∃ y, t.redOf d e = some y ∧ y.id = f.id ∧ y.count = f.count ∧ y.armed = false))) ∧
      (f.op = 5 → f.space = 0 → f.payload = [] → 0 < f.count → f.count ≤ 4096 → let r := s1.windowCheck g i 0 f 0
        (r ≠ 0 → did (.groupCommit f) fun t => t.answered i f r [] ∧ s1.onlyAnswered t d) ∧
        (r = 0 → s1.findGroup d i f.id = none → did (.groupCommit f) fun t => t.answered i f 0x0D [] ∧ s1.onlyAnswered t d) ∧
        (∀ e x, r = 0 → s1.findGroup d i f.id = some e → s1.inGroup d e = some x → x.window = f.winIndex → x.commit = none → x.committing = false → did (.groupCommit f) fun t =>
          t.inGroup d e = some { x with commit := some f, committing := decide (x.landed = f.count ∧ x.landedBytes = f.groupBytes) } ∧ t.tiles = s1.tiles ∧ t.net = s1.net)) ∧
      (f.op = 6 → f.space = 0 → f.payload = [] → let r := s1.windowCheck g i 0 f 0
        (r ≠ 0 → did (.groupAbort f) fun t => t.answered i f r [] ∧ s1.onlyAnswered t d) ∧
        (r = 0 → s1.findGroup d i f.id = none → did (.groupAbort f) fun t => t.answered i f 0x0D [] ∧ s1.onlyAnswered t d) ∧
        (∀ e x, r = 0 → s1.findGroup d i f.id = some e → s1.inGroup d e = some x → x.window = f.winIndex → x.committing = false → did (.groupAbort f) fun t =>
          t.answered i f 0 [] ∧ t.inGroup d e = none ∧ (x.peer, x.id) ∈ (t.die d).doneGroups))) ∧
    (∀ (die : Die) e x, s.inGroup die e = some x →
      (∀ f, x.commit = some f → x.committing = true → did (.groupCommitApply die e) fun t => t.inGroup die e = none ∧ (x.peer, x.id) ∈ (t.die die).doneGroups ∧ t.answered x.peer f 0 []) ∧
      (x.committing = false → s.ob Ob.group_timeout * 1000 ≤ s.now - x.first → did (.groupTimeout die e) fun t => t.inGroup die e = none ∧ (x.peer, x.id) ∈ (t.die die).doneGroups)) ∧
    (∀ f s1 i, s.arrives f 0 s1 i → 0x80 ≤ f.op →
      ((∀ r ∈ (s1.die f.die).outReqs, r.answeredBy i f = false) → did (.trashandiReply f) fun t => s1.countedAt t Ob.peer_counts i 3 ∧ s1.onlyAnswered t f.die ∧ t.dies = s1.dies) ∧
      (∀ r, (s1.die f.die).outReqs.find? (fun r => r.answeredBy i f) = some r → r.why = .stepMsg ∨ r.why = .push → did (.trashandiReply f) fun t =>
        (t.die f.die).outReqs = (s1.die f.die).outReqs.filter (· != r) ∧ (knownReason f.status ≠ 0 → s1.countedAt t Ob.peer_counts i (5 + knownReason f.status)) ∧ t.tiles = s1.tiles))

/-- What tiles send to peers (R126, R216, R220, R222, R226 to R228, R232, R233, R235): an access of an outbound window, a group's control record, a remote SEND. A refused one is answered 0x09 with the reason and sends
nothing; an accepted one waits for the peer's reply, which ends it, and its request is kept and goes to the peer with the window's handle. A group is counted as it is written and closed by its control record, which
brings the counts. A reduction's arming opens its entry; a complete one begins to deliver. -/
def Obligations.OutboundGroups : Prop :=
  ∀ (s : State) (n : PacketId) k, s.netWf → n < s.nextPkt → s.atSink n = some k →
    let did (c : Instr) (f : State → Prop) : Prop := ∃ t, exec c s = .next t ∧ f t
    let d := k.target - 4608
    let g := k.h.meadow
    (k.windowForm = true →
      let w := bits k.h.addr 51 40
      let why := s.outReason d g w (bits k.h.addr 55 52)
      let h := s.obe Ob.win_remote w
      let handle (f : Frame) : Prop := f.winIndex = bits h 23 12 ∧ f.winGen = bits h 27 24 ∧ f.offset = bits k.h.addr 39 0
      (k.h.op ≠ 1 → k.h.op ≠ 2 → did (.outboundWindowAccess n) fun t => t.nacked n k 0x0C 0) ∧
      (k.h.op = 1 ∨ k.h.op = 2 → why ≠ 0 → did (.outboundWindowAccess n) fun t => t.nacked n k 9 why ∧ ∀ i, t.peer d i = s.peer d i) ∧
      (why = 0 → s.lacksRoom d k = false →
        (k.h.op = 1 → did (.outboundWindowAccess n) fun t => t.owed n k ∧ t.tiles = s.tiles ∧
          s.keepsRequest t d { peer := s.windowPeer w, space := 0, seq := 0, op := 2, why := .access { k.h with tag := n }, meadow := g, want := k.h.bytes } ∧
          s.sentData t d (s.windowPeer w) 0 fun f => f.op = 2 ∧ handle f ∧ f.count = k.h.bytes ∧ f.id = 0 ∧ f.payload = []) ∧
        (k.h.op = 2 → bit k.h.arg1 32 = false → did (.outboundWindowAccess n) fun t => t.owed n k ∧ t.tiles = s.tiles ∧ (t.die d).outGroups = (s.die d).outGroups ∧
          s.keepsRequest t d { peer := s.windowPeer w, space := 0, seq := 0, op := 1, why := .access { k.h with tag := n }, meadow := g } ∧
          s.sentData t d (s.windowPeer w) 0 fun f => f.op = 1 ∧ handle f ∧ f.id = 0 ∧ f.payload = k.data.take k.h.bytes) ∧
        (k.h.op = 2 → bit k.h.arg1 32 = true → let id := bits k.h.arg1 31 0
          (∀ e x, s.outGroup d w id = some e → Tbl.get none (s.die d).outGroups e = some x →
            (x.closed = true → did (.outboundWindowAccess n) fun t => t.nacked n k 9 0x0D ∧ ∀ i, t.peer d i = s.peer d i) ∧
            (x.closed = false → did (.outboundWindowAccess n) fun t => t.owed n k ∧ t.tiles = s.tiles ∧
              Tbl.get none (t.die d).outGroups e = some { x with writes := x.writes + 1, bytes := x.bytes + k.h.bytes } ∧
              s.sentData t d (s.windowPeer w) 0 fun f => f.op = 1 ∧ handle f ∧ f.id = id ∧ f.payload = k.data.take k.h.bytes)) ∧
          (s.outGroup d w id = none → (∀ e, s.newOutGroup d = some e → did (.outboundWindowAccess n) fun t => t.owed n k ∧
            Tbl.get none (t.die d).outGroups e = some { window := w, id, writes := 1, bytes := k.h.bytes }) ∧
            (s.newOutGroup d = none → did (.outboundWindowAccess n) fun t => t.nacked n k 9 6))))) ∧
    (k.objectWrite 7 = true → ∀ c ∈ [(false, Instr.groupCommitControl n), (true, Instr.groupAbortControl n)],
      let r := leNat (k.data.take 64)
      let w := bits r 11 0
      let id := bits r 63 32
      let why := s.outReason d g w (bits r 15 12)
      bit r 16 = c.1 →
      (groupControlOk r = false ∨ bits k.h.addr 43 0 ≠ 0 ∨ k.data.length ≠ 64 → did c.2 fun t => t.nacked n k 0x0C 0) ∧
      (groupControlOk r = true → bits k.h.addr 43 0 = 0 → k.data.length = 64 →
        (why ≠ 0 → did c.2 fun t => t.nacked n k 9 why ∧ (t.die d).outGroups = (s.die d).outGroups) ∧
        (∀ e x, why = 0 → s.outGroup d w id = some e → Tbl.get none (s.die d).outGroups e = some x →
          (x.closed = true → did c.2 fun t => t.nacked n k 9 0x0D ∧ (t.die d).outGroups = (s.die d).outGroups) ∧
          (x.closed = false → s.lacksRoom d k = false → did c.2 fun t => t.owed n k ∧ t.tiles = s.tiles ∧ Tbl.get none (t.die d).outGroups e = some { x with closed := true } ∧
            s.sentData t d (s.windowPeer w) 0 fun f => f.op = (if c.1 = true then 6 else 5) ∧ f.id = id ∧ (c.1 = false → f.count = x.writes ∧ f.groupBytes = x.bytes))) ∧
        (why = 0 → s.outGroup d w id = none →
          (c.1 = false → did c.2 fun t => t.nacked n k 9 0x0D) ∧
          (c.1 = true → s.lacksRoom d k = false → did c.2 fun t => t.owed n k ∧ Tbl.get none (t.die d).outGroups (s.outGroupPlace d) = some { window := w, id, closed := true })))) ∧
    (k.objectWrite 5 = true →
      let a := k.h.addr
      let peer := bits a 43 32
      let len := k.data.length
      let why := s.peerReason d g peer
      (bits a 8 0 ≠ 0 ∨ len = 0 ∨ 256 < len ∨ len % 64 ≠ 0 → did (.remoteSend n) fun t => t.nacked n k 0x0C 0) ∧
      (bits a 8 0 = 0 → 0 < len → len ≤ 256 → len % 64 = 0 →
        (why ≠ 0 → did (.remoteSend n) fun t => t.nacked n k 9 why ∧ ∀ i, t.peer d i = s.peer d i) ∧
        (why = 0 → s.lacksRoom d k = false → did (.remoteSend n) fun t => t.owed n k ∧ t.tiles = s.tiles ∧
          s.keepsRequest t d { peer, space := 0, seq := 0, op := 3, why := .remoteSend { k.h with tag := n }, meadow := g } ∧
          s.sentData t d peer 0 fun f => f.op = 3 ∧ f.payload = k.data ∧ f.id = bits a 31 20 + fld (bits a 19 17) 12 + fld (bits a 16 9) 15))) ∧
    (k.objectWrite 1 = true →
      let id := bits k.h.addr 43 12
      let r := leNat (k.data.take 64)
      let refused := did (.reductionArm n) fun t => t.nacked n k 0x0C 0 ∧ (t.die d).red = (s.die d).red
      (s.findRed d id = none → s.freeRed d = none → refused) ∧
      (∀ e, s.findRed d id = some e ∨ (s.findRed d id = none ∧ s.freeRed d = some e) →
        let x := (s.redOf d e).getD { id, type := bits r 2 0 }
        (armOk r = false ∨ 0xFFFFFE00 ≤ id ∨ x.armed = true → refused) ∧
        (armOk r = true → id < 0xFFFFFE00 → x.armed = false → x.type = bits r 2 0 →
          (x.count < bits r 33 17 → did (.reductionArm n) fun t => t.nacked n k 0 0 ∧ t.redOf d e = some (x.arm r g) ∧ ∀ q, (t.tile q).cistern = (s.tile q).cistern) ∧
          (x.count = bits r 33 17 → x.delivering = false → (x.arm r g).mismatches = 0 → bit r 16 = false → s.meshParts g (bits r 127 64) (bits r 15 3) ≠ 0 →
            did (.reductionArm n) fun t => t.nacked n k 0 0 ∧ t.redOf d e = some { x.arm r g with delivering := true } ∧ (∀ q, (t.tile q).cistern = (s.tile q).cistern) ∧
              s.undertakes t d (s.meshParts g (bits r 127 64) (bits r 15 3)) (.deliver e)))))

/-- The page store (R239, R242 to R247, R249 to R251): a request that the store does not serve is answered 0x1A, a bad one 0x19, an unknown handle 0x14. ALLOC takes a Free frame of its die, else asks the other die, which at
the end evicts; a handle of the other die's goes there. FREE, PAGE_WRITE, PAGE_READ and ATTEND act on the frame as its state allows; an ATTEND's end answers its records. A frame that is not sealed in time is freed. A
page command is answered 0x0C where its record is bad; else the tile's packet waits while local data is read or the requests go to the peer. -/
def Obligations.Pages : Prop :=
  ∀ (s : State),
    let did (c : Instr) (f : State → Prop) : Prop := ∃ t, exec c s = .next t ∧ f t
    (∀ f s1 i g, s.requests f s1 i g → f.space = 0 → s1.bufferFree f.die f.payload.length = true →
      ∀ x ∈ [(PageReq.isAlloc, Instr.alloc f), (PageReq.isWrite, Instr.pageWrite f), (PageReq.isFree, Instr.free f), (PageReq.isRead, Instr.pageRead f), (fun r => r.op == 7 && r.subop == 1, Instr.attend f)],
      let d : Nat := f.die
      let r := framePage f
      x.1 r = true →
      let refused (why : Nat) : Prop := did x.2 fun t => t.answered i f why [] ∧ t.tiles = s1.tiles ∧ (t.die d).pages = (s1.die d).pages
      (bits f.id 31 28 ≠ 0 → refused 0x19) ∧
      (bits f.id 31 28 = 0 →
        (s1.obe Ob.role g ≠ 3 → refused 0x1A) ∧
        (s1.obe Ob.role g = 3 →
          (s1.pageFieldsOk g r = false → refused 0x19) ∧
          (s1.pageFieldsOk g r = true →
            (r.isAlloc = true →
              (∀ y, s1.pickFree d g = some y → did x.2 fun t => s1.allocates t d i f.type (s1.frame d (frameKey y.1 y.2)).gen y ∧
                t.answered i f 0 (toLE 8 (pageHandle y.1 y.2 (s1.frame d (frameKey y.1 y.2)).gen g)) ∧ t.tiles = s1.tiles) ∧
              (s1.pickFree d g = none → did x.2 fun t => s1.undertakes t d 1 (.forwarded i f.seq g 8 0 f.type) ∧
                ∃ z, t.pkt s1.nextPkt = some z ∧ z.h.cls = 0 ∧ z.h.op = 8 ∧ z.h.dstKind = 2 - d ∧ z.h.meadow = g)) ∧
            (r.isAlloc = false →
              (s1.pageKnown g r.handle = false → refused 0x14) ∧
              (s1.pageKnown g r.handle = true →
                (pageDie r.tile ≠ d → did x.2 fun t => s1.undertakes t d 1 (.forwarded i f.seq g r.op r.subop r.flags) ∧
                  ∃ z, t.pkt s1.nextPkt = some z ∧ z.h.cls = 0 ∧ z.h.op = r.op ∧ z.h.dstKind = 2 - d ∧ z.h.addr = r.handle ∧ z.data = r.payload) ∧
                (pageDie r.tile = d → s1.PageTaken d g r (.peer i f.seq) (fun t why bs => t.answered i f why bs) (did x.2)))))))) ∧
    (∀ (p : Phys) l g a rest, (s.tile p).logical = some l → (s.tile p).meadow = some g → (s.tile p).power.state ≠ .t3 →
      let d := pageDie l
      let q : AttendQ := Tbl.get {} (s.die d).attends l
      q.held = a :: rest → did (.attendDone p) fun t =>
        Tbl.get {} (t.die d).attends l = { held := rest ++ q.queued.take 1, queued := q.queued.drop 1 } ∧
        (let fr := s.frame d (frameKey l a.frame); t.frame d (frameKey l a.frame) = if fr.freeing = true ∧ fr.pendingOps ≤ 1 then { fr with pendingOps := fr.pendingOps - 1 }.freed else { fr with pendingOps := fr.pendingOps - 1 }) ∧
        (∀ i seq, a.client = .peer i seq → (∀ bs, s.attendResult p g a = some bs → t.toldPeer d i seq 7 0 bs) ∧ (s.attendResult p g a = none → t.toldPeer d i seq 7 0x0F []))) ∧
    (∀ (n : PacketId) k, s.netWf → n < s.nextPkt → s.atSink n = some k →
      let d := k.target - 4608
      let g := k.h.meadow
      (k.h.cls = 0 → 4608 ≤ k.target → k.target < 4610 → k.h.op = 7 ∨ k.h.op = 8 → k.h.srcKind ≠ 0 →
        let r : PageReq := { op := k.h.op, subop := bits k.h.arg0 7 0, handle := k.h.addr, flags := bits k.h.arg0 23 16, chunk := bits k.h.arg0 40 24, scale := bits k.h.arg1 31 0, payload := k.data }
        let peer := bits k.h.arg1 43 32
        (r.op = 8 → r.subop = 0 →
          (∀ y, s.pickFree d g = some y → let gen := (s.frame d (frameKey y.1 y.2)).gen
            did (.forwardedPageRequest n) fun t => s.allocates t d peer r.flags gen y ∧ t.toldDie s.nextPkt k 0 (pageHandle y.1 y.2 gen g) []) ∧
          (s.pickFree d g = none → did (.forwardedPageRequest n) fun t => t.toldDie s.nextPkt k 0x18 0 [])) ∧
        (r.op = 8 → r.subop = 3 →
          (∀ y, s.pickEvict d g = some y → let gen := (s.frame d (frameKey y.1 y.2)).freed.gen
            did (.forwardedPageRequest n) fun t => s.allocates t d peer r.flags gen y ∧ t.toldDie s.nextPkt k 0 (pageHandle y.1 y.2 gen g) []) ∧
          (s.pickEvict d g = none → did (.forwardedPageRequest n) fun t => t.toldDie s.nextPkt k 0x18 0 [])) ∧
        (¬ (r.op = 8 ∧ (r.subop = 0 ∨ r.subop = 3)) → s.PageTaken d g r (.otherDie k.h) (fun t why bs => t.toldDie s.nextPkt k why 0 bs) (did (.forwardedPageRequest n)))) ∧
      (∀ j i seq g op subop flags, k.h.cls = 2 → 4608 ≤ k.target → k.target < 4610 → s.dieJob d k.h.tag = some j → j.work = .forwarded i seq g op subop flags →
        let why := if k.h.status = 0 then 0 else k.h.detail
        let alloc := op = 8 ∧ (subop = 0 ∨ subop = 3)
        (alloc → why = 0 → did (.pageForwardReply n) fun t => t.toldPeer d i seq 8 0 (toLE 8 k.h.arg0) ∧ t.dieJob d k.h.tag = none) ∧
        (op = 8 → subop = 0 → why ≠ 0 →
          (∀ y, s.pickEvict d g = some y → let gen := (s.frame d (frameKey y.1 y.2)).freed.gen
            did (.pageForwardReply n) fun t => s.allocates t d i flags gen y ∧ t.toldPeer d i seq 8 0 (toLE 8 (pageHandle y.1 y.2 gen g))) ∧
          (s.pickEvict d g = none → did (.pageForwardReply n) fun t => s.undertakes t d 1 (.forwarded i seq g 8 3 flags))) ∧
        (op = 8 → subop = 3 → why ≠ 0 → did (.pageForwardReply n) fun t => t.toldPeer d i seq 8 why [] ∧ t.dieJob d k.h.tag = none) ∧
        (¬ alloc → did (.pageForwardReply n) fun t => t.toldPeer d i seq op why k.data ∧ t.dieJob d k.h.tag = none)) ∧
      (k.objectWrite 6 = true → ∀ x ∈ [(1, Instr.pageCommandPut n), (2, Instr.pageCommandGet n), (3, Instr.pageCommandAttend n), (4, Instr.pageCommandFree n)],
        let r := leNat (k.data.take 64)
        let why := s.peerReason d g (pcPeer r)
        let parts := s.meshParts g (pcResult r) 64
        pcOp r = x.1 →
        (pageCmdOk r = false ∨ bits k.h.addr 43 0 ≠ 0 ∨ k.data.length ≠ 64 → did x.2 fun t => t.nacked n k 0x0C 0) ∧
        (pageCmdOk r = true → bits k.h.addr 43 0 = 0 → k.data.length = 64 →
          (why ≠ 0 → parts ≠ 0 → did x.2 fun t => t.owed n k ∧ s.undertakes t d parts (.cmdWrite n) ∧ t.tiles = s.tiles ∧ ∃ c, t.cmd d n = some c ∧ c.failed = why ∧ c.phase = 5) ∧
          (why ≠ 0 → parts = 0 → did x.2 fun t => t.nacked n k 9 3 ∧ t.cmd d n = none) ∧
          (why = 0 → s.lacksRoom d k = false →
            let given (c : PageCmd) : Prop := c.record = r ∧ c.meadow = g ∧ c.handle = pcHandle r ∧ c.failed = 0
            (∀ len, (x.1 = 1 ∧ len = s.pageSize g) ∨ (x.1 = 3 ∧ len = pcQueries r * s.pageWidth g) → let m := s.meshParts g (pcData r) len
              m ≠ 0 → did x.2 fun t => t.owed n k ∧ s.undertakes t d m (.cmdRead n) ∧ t.tiles = s.tiles ∧ ∃ c, t.cmd d n = some c ∧ given c ∧ c.phase = 0) ∧
            (x.1 = 2 → let m := s.pageSize g / 4096
              did x.2 fun t => t.owed n k ∧ t.tiles = s.tiles ∧ (∃ c, t.cmd d n = some c ∧ given c ∧ c.phase = 2 ∧ c.waiting = m) ∧
                (t.die d).outReqs.length = (s.die d).outReqs.length + m ∧ ∀ j < m, ∃ q ∈ (t.die d).outReqs, q.peer = pcPeer r ∧ q.op = 7 ∧ q.why = .page n (4096 * j)) ∧
            (x.1 = 4 → did x.2 fun t => t.owed n k ∧ t.tiles = s.tiles ∧ (∃ c, t.cmd d n = some c ∧ given c ∧ c.phase = 2 ∧ c.waiting = 1) ∧
              s.keepsRequest t d { peer := pcPeer r, space := 0, seq := 0, op := 8, why := .page n 0, meadow := g }))))) ∧
    (∀ (die : Die) fr, let y := s.frame die fr
      y.state = .allocated → s.ob Ob.page_seal_timeout * 1000 < s.now - y.allocAt → did (.pageSealTimeout die fr) fun t => t.frame die fr = y.freed ∧
        s.countedAt t Ob.page_counts (s.obe Ob.tile_meadow (fr / 1024)) 2 ∧ t.tiles = s.tiles ∧ t.net = s.net)

/-- The host's side, tiles' power entries, recovery (R265, R336, R355 to R361, R366, R367, R385, R386): a result post is refused, kept until it is next, or delivered with its record; acknowledgements and consumed counts
move the queues; a doorbell's values wait in order and go out as SENDs; BAR2 accesses become C1 packets under their entry, or are counted. An entry that was refused is tried again when another unit would refuse it, or
none; a tile in T2 returns after 10 µs. In recovery mode an image is installed, and a leave boots the active slot. -/
def Obligations.HostQueuesWakes : Prop :=
  ∀ (s : State),
    let did (c : Instr) (f : State → Prop) : Prop := ∃ t, exec c s = .next t ∧ f t
    (∀ (n : PacketId) k, s.netWf → n < s.nextPkt → s.atSink n = some k → k.h.cls ≤ 1 → k.h.op = 2 → 4608 ≤ k.target → k.postAperture = true →
      let q := bits k.h.addr 39 20
      let x := postOf n k.data
      let good := q < 64 ∧ bits k.h.addr 19 0 = 0 ∧ k.h.bytes = 64 ∧ k.data.length = 64 ∧ postClean k.data = true
      let y := s.rq q
      let e := s.rqNext q x.stream
      let known := x.seq < e ∨ (∃ z, y.busy = some z ∧ z.stream = x.stream ∧ z.seq = x.seq) ∨ ∃ z ∈ y.held, z.stream = x.stream ∧ z.seq = x.seq
      (¬ good → did (.resultPost n) fun t => t.nacked n k 0x0A 0 ∧ t.host = s.host) ∧
      (good → s.postOk q k.h.meadow x = false → did (.resultPost n) fun t => t.nacked n k 0x0A 0 ∧ s.countedAt t Ob.rq_counts q 2 ∧ t.host = s.host) ∧
      (good → s.postOk q k.h.meadow x = true →
        (known → did (.resultPost n) fun t => t.nacked n k 0 0 ∧ s.countedAt t Ob.rq_counts q 1 ∧ t.host = s.host) ∧
        (¬ known → e < x.seq ∨ y.busy.isSome = true →
          (y.held.length < 256 → did (.resultPost n) fun t => t.owed n k ∧ t.rq q = { y with held := y.held ++ [x] } ∧ t.tiles = s.tiles) ∧
          (256 ≤ y.held.length → did (.resultPost n) fun t => t.nacked n k 0x0A 0 ∧ s.countedAt t Ob.rq_counts q 2 ∧ t.host = s.host)) ∧
        (x.seq = e → y.busy = none → y.held = [] →
          (s.rqRoom q = false → did (.resultPost n) fun t => t.nacked n k 0x0A 0 ∧ s.countedAt t Ob.rq_counts q 2 ∧ t.host = s.host) ∧
          (s.rqRoom q = true →
            (x.length = 0 → did (.resultPost n) fun t => t.nacked n k 0 0 ∧ (t.rq q).next = y.next + 1 ∧ t.rqNext q x.stream = x.seq + 1 ∧
              t.host.msix = s.host.msix ++ (if bit (s.obe Ob.rq_vector q) 6 = true then [bits (s.obe Ob.rq_vector q) 5 0] else []) ∧
              (let rcd := x.body ++ toLE 8 (y.next + 1)
               (s.obe Ob.rq_mode q = 2 → (t.rq q).mmio = y.mmio ++ [{ ring := y.next, record := rcd, payload := List.replicate 32 0 }]) ∧
               (s.obe Ob.rq_mode q ≠ 2 → ∀ i < 32, t.hostByte (s.obe Ob.rq_record_base q + 32 * (y.next % s.obe Ob.rq_entries q) + i) = rcd.getD i 0))) ∧
            (x.length ≠ 0 → let m := s.meshParts k.h.meadow x.payload x.length
              (m ≠ 0 → did (.resultPost n) fun t => t.owed n k ∧ (t.rq q).busy = some x ∧ s.undertakes t 0 m (.post q) ∧ t.tiles = s.tiles) ∧
              (m = 0 → did (.resultPost n) fun t => t.nacked n k 0x0A 0 ∧ s.countedAt t Ob.rq_counts q 2)))))) ∧
    (s.host.linkUp = true →
      (∀ (q : Fin 64) (v : BitVec 64), let y := s.rq q
        let sets (c : Instr) (z : RQueue) : Prop := did c fun t => t.rq q = z ∧ (∀ i, i ≠ q.val → t.rq i = s.rq i) ∧ t.tiles = s.tiles ∧ t.net = s.net
        sets (.rqConsumedWrite q v) { y with consumed := max y.consumed v.toNat } ∧
          (∀ h rest, y.mmio = h :: rest → h.ring = v.toNat → sets (.mmioAcknowledge q v) { y with mmio := rest }) ∧
          ((∀ h rest, y.mmio = h :: rest → h.ring ≠ v.toNat) → sets (.mmioAcknowledge q v) { y with ackIgnored := y.ackIgnored + 1 })) ∧
      (∀ (d : Fin 256) (v : BitVec 64), let y := s.doorbell d
        let sets (z : Doorbell) : Prop := did (.doorbellWrite d v) fun t => t.doorbell d = z ∧ (∀ i, i ≠ d.val → t.doorbell i = s.doorbell i) ∧ t.tiles = s.tiles ∧ t.net = s.net
        (bit (s.obe Ob.doorbell_target d) 23 = false ∨ 64 ≤ y.vals.length → sets { y with refused := (y.refused + 1) % 2 ^ 32 }) ∧
          (bit (s.obe Ob.doorbell_target d) 23 = true → y.vals.length < 64 → sets { y with vals := y.vals ++ [(v.toNat, s.host.bar2Writes)] })) ∧
      (∀ (off : Nat) (bytes : Bytes), bytes ≠ [] → off + bytes.length ≤ bar2Bytes → let r := s.bar2Allowed off bytes.length 0
        let refused := did (.bar2Write off bytes) fun t => t.obe Ob.bar2_refused 0 = (s.obe Ob.bar2_refused 0 + 1) % 2 ^ 64 ∧ t.net = s.net ∧ t.tiles = s.tiles ∧ t.dies = s.dies
        (r = none → refused) ∧
          (∀ e, r = some e → let m := s.meshParts (s.obe Ob.bar2_meadow e) (s.bar2Addr e off) bytes.length
            (m = 0 → refused) ∧
              (m ≠ 0 → did (.bar2Write off bytes) fun t => s.undertakes t 0 m .bar2Write ∧ t.host.bar2Writes = s.host.bar2Writes ++ [(s.die 0).nextJob] ∧ t.nextPkt = s.nextPkt + m ∧ t.tiles = s.tiles))) ∧
      (∀ off len : Nat, 0 < len → off + len ≤ bar2Bytes → let r := s.bar2Allowed off len 1
        let refused := did (.bar2Read off len) fun t => t.host.bar2Data = List.replicate len 0xFF ∧ t.obe Ob.bar2_refused 1 = (s.obe Ob.bar2_refused 1 + 1) % 2 ^ 64 ∧ t.net = s.net ∧ t.tiles = s.tiles
        (r = none → refused) ∧
          (∀ e, r = some e → let m := s.meshParts (s.obe Ob.bar2_meadow e) (s.bar2Addr e off) len
            (m = 0 → refused) ∧ (m ≠ 0 → did (.bar2Read off len) fun t => s.undertakes t 0 m (.bar2Read len) ∧ t.nextPkt = s.nextPkt + m ∧ t.tiles = s.tiles)))) ∧
    (∀ (d : Fin 256) v before rest, (s.doorbell d).vals = (v, before) :: rest → (s.doorbell d).outstanding = false → (∀ w ∈ before, w ∉ s.host.bar2Writes) → let r := s.obe Ob.doorbell_target d
      did (.doorbellTakeUp d) fun t => t.doorbell d = { s.doorbell d with vals := rest, outstanding := true } ∧ s.undertakes t 0 1 (.doorbell d) ∧ t.tiles = s.tiles ∧
        ∃ z, t.pkt s.nextPkt = some z ∧ z.h.cls = 4 ∧ z.h.op = 3 ∧ z.h.meadow = bits r 31 24 ∧ z.h.dst = bits r 11 0 ∧ z.h.src = 0xFFF ∧ z.data = toLE 64 v ∧ z.h.arg1 = s.now + us (s.ob Ob.doorbell_expiry)) ∧
    (∀ p : Phys, let x := s.tile p
      let depth := x.power.commanded.getD x.power.depth
      let r := s.refuser p depth
      (x.power.refused = true → x.power.state = .t1 → depth = 1 ∨ depth = 2 → x.allWaiting = true ∨ x.power.commanded.isSome = true → r ≠ x.power.lastRefuser →
        (r ≠ 0 → did (.powerEntryRetry p) fun t => x.RefusedEntry (t.tile p) r ∧ ∀ q, q ≠ p.val → t.tile q = s.tile q) ∧
        (r = 0 → x.power.commanded = none → did (.powerEntryRetry p) fun t => t.tile p = { x with power := { x.power with refused := false, entering := some (depth, s.now) } } ∧
          (∀ q, q ≠ p.val → t.tile q = s.tile q) ∧ t.dict = s.dict ∧ t.net = s.net) ∧
        (r = 0 → x.power.commanded.isSome = true → did (.powerEntryRetry p) fun t => (t.tile p).power.state = (if depth = 2 then .t3 else .t2) ∧ (t.tile p).power.refused = false ∧ (t.tile p).power.lastDepth = depth + 1 ∧
          (t.tile p).cistern = (if depth = 2 then [] else x.cistern) ∧ ∀ q, q ≠ p.val → (t.tile q).cistern = (s.tile q).cistern)) ∧
      (x.power.state = .t2 → x.power.partWoken = true → x.power.entering = none → 10000 ≤ s.now - x.ni.lastServed →
        (s.refuser p 1 = 0 → did (.t2ReturnTimer p) fun t => t.tile p = { x with power := { x.power with refused := false, entering := some (1, s.now) } } ∧ (∀ q, q ≠ p.val → t.tile q = s.tile q) ∧ t.net = s.net) ∧
        (s.refuser p 1 ≠ 0 → did (.t2ReturnTimer p) fun t => x.RefusedEntry (t.tile p) (s.refuser p 1) ∧ ∀ q, q ≠ p.val → t.tile q = s.tile q))) ∧
    (∀ src, s.boot.steward = .recovery → s.reaches src = true → (∀ n, src = .session n → (s.sess n).opened = true) →
      let bs := s.recImage
      let n := s.fw.lastFailed.getD 0
      let images := (pkgComps bs).map fun c => (c, pkgBody bs c)
      let refused (reason comp : Nat) : Prop := s.served (.recoveryInstall src) src Ob.rec_command 0 fun x => x.fw = s.fw ∧ x.ob Ob.upd_status = reason + fld comp 8 ∧
        (s.told x fun r => r.kind = 0x0A00 ∧ r.detail = reason) ∧ x.boot = s.boot ∧ x.tiles = s.tiles
      (pkgDelta bs = true ∨ pkgField bs 3 1 ≠ 0x17 → refused 4 0) ∧
      (pkgDelta bs = false → pkgField bs 3 1 = 0x17 →
        (∀ r, s.untried.pkgCheck bs (s.fw.slot n) = some r → refused r.1 r.2) ∧
        (s.untried.pkgCheck bs (s.fw.slot n) = none → pkgWrong bs images = none → s.fw.record.seq + 1 < 2 ^ 32 → s.served (.recoveryInstall src) src Ob.rec_command 0 fun x =>
          x.fw.record.active = n ∧ x.fw.record.trial = false ∧ x.fw.slot n = (s.fw.slot n).install bs images ∧ x.fused.security = min 64 (max s.fused.security (pkgField bs 2 1)) ∧
            (s.told x fun r => r.kind = 0x0A06 ∧ r.detail = n) ∧ x.boot.steward = .recovery ∧ x.tiles = s.tiles)) ∧
      (s.slotGood s.fw.record.active = true → s.fw.record.seq + 1 < 2 ^ 32 → s.served (.recoveryLeave src) src Ob.rec_command 0 fun x =>
        x.boot.steward = .booting ∧ x.boot.bootAt = s.now ∧ x.fw.record.recovery = false ∧ x.fw.record.active = s.fw.record.active ∧ x.fw.slots = s.fw.slots ∧ x.ob Ob.bringup_stage = 0 ∧
          (∀ i : Session, (x.sess i).opened = false) ∧ x.txn = {} ∧ x.tiles = s.tiles ∧ x.net = s.net))
end

