-- ==== Sys2Proof/Laws/Table.lean ====
section
/-! SUPPORT. The laws of the sparse tables and byte memories: read after write, a write leaves every other number alone, and
every write keeps the canonical form. -/

namespace Sys2Proof.Machine

variable {α : Type} {d : α}

@[simp] theorem Tbl.get_nil (k : Nat) : Tbl.get d [] k = d := rfl

theorem Tbl.get_above_self (t : Tbl α) (k : Nat) : Tbl.get d (Tbl.above k t) k = d := by
  induction t with
  | nil => rfl
  | cons e t ih =>
    obtain ⟨j, w⟩ := e
    by_cases h : j ≤ k
    · simpa [Tbl.above, h] using ih
    · have h1 : k ≠ j := by omega
      have h2 : k < j := by omega
      simp [Tbl.above, h, Tbl.get, h1, h2]

theorem Tbl.get_above_gt (t : Tbl α) {k n : Nat} (h : k < n) : Tbl.get d (Tbl.above k t) n = Tbl.get d t n := by
  induction t with
  | nil => rfl
  | cons e t ih =>
    obtain ⟨j, w⟩ := e
    by_cases hj : j ≤ k
    · have h1 : n ≠ j := by omega
      have h2 : ¬ n < j := by omega
      simpa [Tbl.above, hj, Tbl.get, h1, h2] using ih
    · simp [Tbl.above, hj]

theorem Tbl.get_above_lt (t : Tbl α) {k n : Nat} (h : n ≤ k) : Tbl.get d (Tbl.above k t) n = d := by
  induction t with
  | nil => rfl
  | cons e t ih =>
    obtain ⟨j, w⟩ := e
    by_cases hj : j ≤ k
    · simpa [Tbl.above, hj] using ih
    · have h1 : n ≠ j := by omega
      have h2 : n < j := by omega
      simp [Tbl.above, hj, Tbl.get, h1, h2]

variable [DecidableEq α]

/-- A read of the number just written gives the value written. -/
@[simp] theorem Tbl.get_put_self (t : Tbl α) (k : Nat) (v : α) : Tbl.get d (Tbl.put d t k v) k = v := by
  induction t with
  | nil => by_cases h : v = d <;> simp [Tbl.put, Tbl.get, h]
  | cons e t ih =>
    obtain ⟨j, w⟩ := e
    rcases Nat.lt_trichotomy k j with h | h | h
    · have h1 : k ≠ j := by omega
      by_cases hv : v = d <;> simp [Tbl.put, Tbl.get, h1, h, hv]
    · subst h
      by_cases hv : v = d
      · simp [Tbl.put, hv, Tbl.get_above_self]
      · simp [Tbl.put, Tbl.get, hv]
    · have h1 : k ≠ j := by omega
      have h2 : ¬ k < j := by omega
      simp [Tbl.put, Tbl.get, h1, h2, ih]

/-- A write leaves every other number alone. -/
theorem Tbl.get_put_ne (t : Tbl α) {k n : Nat} (v : α) (hn : n ≠ k) :
    Tbl.get d (Tbl.put d t k v) n = Tbl.get d t n := by
  induction t with
  | nil =>
    by_cases h : v = d
    · simp [Tbl.put, h]
    · simp [Tbl.put, Tbl.get, h, hn]
  | cons e t ih =>
    obtain ⟨j, w⟩ := e
    rcases Nat.lt_trichotomy k j with h | h | h
    · have h1 : k ≠ j := by omega
      by_cases hv : v = d
      · simp [Tbl.put, h1, h, hv]
      · rcases Nat.lt_or_gt_of_ne hn with hk | hk
        · have h3 : n ≠ j := by omega
          have h4 : n < j := by omega
          simp [Tbl.put, Tbl.get, h1, h, hv, hn, hk, h3, h4]
        · have h3 : ¬ n < k := by omega
          simp [Tbl.put, Tbl.get, h1, h, hv, hn, h3]
    · subst h
      rcases Nat.lt_or_gt_of_ne hn with hk | hk
      · by_cases hv : v = d
        · simp [Tbl.put, hv, Tbl.get, hn, hk, Tbl.get_above_lt t (Nat.le_of_lt hk)]
        · simp [Tbl.put, hv, Tbl.get, hn, hk]
      · have h3 : ¬ n < k := by omega
        by_cases hv : v = d
        · simp [Tbl.put, hv, Tbl.get, hn, h3, Tbl.get_above_gt t hk]
        · simp [Tbl.put, hv, Tbl.get, hn, h3]
    · have h1 : k ≠ j := by omega
      have h2 : ¬ k < j := by omega
      simp [Tbl.put, Tbl.get, h1, h2, ih]

/-- A read after a write, in one equation. -/
theorem Tbl.get_put (t : Tbl α) (k n : Nat) (v : α) :
    Tbl.get d (Tbl.put d t k v) n = if n = k then v else Tbl.get d t n := by
  by_cases h : n = k
  · simp [h]
  · simp [h, Tbl.get_put_ne t v h]

theorem Tbl.get_mod (t : Tbl α) (k n : Nat) (f : α → α) :
    Tbl.get d (Tbl.mod d t k f) n = if n = k then f (Tbl.get d t k) else Tbl.get d t n := by
  rw [Tbl.mod, Tbl.get_put]

theorem Tbl.wfFrom_weaken (t : Tbl α) {lo : Option Nat} {m : Nat} (hm : ∀ n, lo = some n → n ≤ m)
    (h : Tbl.wfFrom d (some m) t = true) : Tbl.wfFrom d lo t = true := by
  cases t with
  | nil => rfl
  | cons e t =>
    obtain ⟨j, w⟩ := e
    cases lo with
    | none => simp [Tbl.wfFrom] at h ⊢; exact ⟨h.1.2, h.2⟩
    | some n =>
      have := hm n rfl
      simp [Tbl.wfFrom] at h ⊢
      exact ⟨⟨by omega, h.1.2⟩, h.2⟩

theorem Tbl.above_wf (t : Tbl α) {k : Nat} (h : Tbl.wfFrom d (some k) t = true) : Tbl.above k t = t := by
  cases t with
  | nil => rfl
  | cons e t =>
    obtain ⟨j, w⟩ := e
    simp [Tbl.wfFrom] at h
    have : ¬ j ≤ k := by omega
    simp [Tbl.above, this]

theorem Tbl.put_wfFrom (t : Tbl α) (k : Nat) (v : α) (lo : Option Nat) (hk : ∀ n, lo = some n → n < k)
    (h : Tbl.wfFrom d lo t = true) : Tbl.wfFrom d lo (Tbl.put d t k v) = true := by
  induction t generalizing lo with
  | nil =>
    by_cases hv : v = d
    · simp [Tbl.put, hv, Tbl.wfFrom]
    · cases lo with
      | none => simp [Tbl.put, hv, Tbl.wfFrom]
      | some n => simp [Tbl.put, hv, Tbl.wfFrom, hk n rfl]
  | cons e t ih =>
    obtain ⟨j, w⟩ := e
    have hl : Tbl.wfFrom d (some j) t = true := by simp [Tbl.wfFrom] at h; exact h.2
    have hw : w ≠ d := by simp [Tbl.wfFrom] at h; exact h.1.2
    have hj : ∀ n, lo = some n → n < j := by
      intro n hn; subst hn; simp [Tbl.wfFrom] at h; exact h.1.1
    rcases Nat.lt_trichotomy k j with hkj | hkj | hkj
    · have h1 : k ≠ j := by omega
      by_cases hv : v = d
      · simpa [Tbl.put, h1, hkj, hv] using h
      · cases lo with
        | none => simp [Tbl.put, h1, hkj, hv, Tbl.wfFrom, hw, hl]
        | some n => simp [Tbl.put, h1, hkj, hv, Tbl.wfFrom, hw, hl, hk n rfl]
    · subst hkj
      by_cases hv : v = d
      · simp only [Tbl.put, hv, if_true, Tbl.above_wf t hl]
        exact Tbl.wfFrom_weaken t (fun n hn => Nat.le_of_lt (hj n hn)) hl
      · cases lo with
        | none => simp [Tbl.put, hv, Tbl.wfFrom, hl]
        | some n => simp [Tbl.put, hv, Tbl.wfFrom, hl, hk n rfl]
    · have h1 : k ≠ j := by omega
      have h2 : ¬ k < j := by omega
      have := ih (some j) (by intro n hn; cases hn; exact hkj) hl
      cases lo with
      | none => simp [Tbl.put, h1, h2, Tbl.wfFrom, hw, this]
      | some n => simp [Tbl.put, h1, h2, Tbl.wfFrom, hw, this, hj n rfl]

/-- A write keeps the canonical form. -/
@[simp] theorem Tbl.put_wf (t : Tbl α) (k : Nat) (v : α) (h : Tbl.wf d t = true) :
    Tbl.wf d (Tbl.put d t k v) = true :=
  Tbl.put_wfFrom t k v none (by intro n hn; cases hn) h

theorem Tbl.mod_wf (t : Tbl α) (k : Nat) (f : α → α) (h : Tbl.wf d t = true) :
    Tbl.wf d (Tbl.mod d t k f) = true := Tbl.put_wf t k _ h

@[simp] theorem Tbl.nil_wf : Tbl.wf d ([] : Tbl α) = true := rfl

/-- A fold of writes keeps the canonical form. -/
theorem Tbl.foldl_wf {β : Type} (g : Tbl α → β → Tbl α) (hg : ∀ t x, Tbl.wf d t = true → Tbl.wf d (g t x) = true)
    (l : List β) (t : Tbl α) (h : Tbl.wf d t = true) : Tbl.wf d (l.foldl g t) = true := by
  induction l generalizing t with
  | nil => exact h
  | cons x l ih => exact ih _ (hg t x h)

theorem Tbl.mapVals_wf (t : Tbl α) (f : Nat → α → α) (h : Tbl.wf d t = true) :
    Tbl.wf d (Tbl.mapVals d t f) = true :=
  Tbl.foldl_wf _ (fun t x ht => Tbl.put_wf t x.1 _ ht) _ _ h

theorem Tbl.filter_wfFrom (t : Tbl α) (f : Nat × α → Bool) (lo : Option Nat) (h : Tbl.wfFrom d lo t = true) :
    Tbl.wfFrom d lo (t.filter f) = true := by
  induction t generalizing lo with
  | nil => rfl
  | cons e t ih =>
    obtain ⟨j, w⟩ := e
    have hl : Tbl.wfFrom d (some j) t = true := by simp [Tbl.wfFrom] at h; exact h.2
    by_cases hf : f (j, w) = true
    · have := ih (some j) hl
      simp only [List.filter_cons, hf, if_true]
      simp [Tbl.wfFrom] at h ⊢
      exact ⟨h.1, this⟩
    · simp only [List.filter_cons, hf]
      apply ih
      refine Tbl.wfFrom_weaken t ?_ hl
      intro n hn; subst hn; simp [Tbl.wfFrom] at h; omega

/-- Leaving entries out keeps the canonical form. -/
theorem Tbl.filter_wf (t : Tbl α) (f : Nat × α → Bool) (h : Tbl.wf d t = true) : Tbl.wf d (t.filter f) = true :=
  Tbl.filter_wfFrom t f none h

/-! Byte memories. -/

@[simp] theorem Mem.read_write_self (m : Mem) (a : Nat) (b : Byte) : (Mem.write m a b).read a = b :=
  Tbl.get_put_self (d := (0 : Byte)) m a b

theorem Mem.read_write (m : Mem) (a c : Nat) (b : Byte) : (Mem.write m a b).read c = if c = a then b else m.read c :=
  Tbl.get_put (d := (0 : Byte)) m a c b

@[simp] theorem Mem.write_wf (m : Mem) (a : Nat) (b : Byte) (h : m.wf = true) : (Mem.write m a b).wf = true :=
  Tbl.put_wf (d := (0 : Byte)) m a b h

/-- Writing a string of bytes leaves every byte outside it alone. -/
theorem Mem.read_writeBytes_out (bs : Bytes) (m : Mem) (a c : Nat) (h : c < a ∨ a + bs.length ≤ c) :
    (Mem.writeBytes m a bs).read c = m.read c := by
  induction bs generalizing m a with
  | nil => rfl
  | cons b bs ih =>
    have hc : c ≠ a := by simp at h; omega
    rw [Mem.writeBytes, ih _ _ (by simp at h; omega), Mem.read_write, if_neg hc]

/-- A read of byte `i` of a string just written gives that byte. -/
theorem Mem.read_writeBytes_in (bs : Bytes) (m : Mem) (a i : Nat) (h : i < bs.length) :
    (Mem.writeBytes m a bs).read (a + i) = bs[i] := by
  induction bs generalizing m a i with
  | nil => simp at h
  | cons b bs ih =>
    cases i with
    | zero =>
      rw [Mem.writeBytes, Nat.add_zero, Mem.read_writeBytes_out bs _ _ _ (Or.inl (by omega))]
      simp
    | succ i =>
      have := ih (m.write a b) (a + 1) i (by simpa using h)
      rw [Mem.writeBytes, show a + (i + 1) = a + 1 + i by omega, this]
      simp

@[simp] theorem Mem.writeBytes_wf (bs : Bytes) (m : Mem) (a : Nat) (h : m.wf = true) :
    (Mem.writeBytes m a bs).wf = true := by
  induction bs generalizing m a with
  | nil => exact h
  | cons b bs ih => exact ih _ _ (Mem.write_wf m a b h)

@[simp] theorem Mem.writeLE_wf (m : Mem) (a n v : Nat) (h : m.wf = true) : (Mem.writeLE m a n v).wf = true :=
  Mem.writeBytes_wf _ m a h

@[simp] theorem Mem.zero_wf (m : Mem) (a n : Nat) (h : m.wf = true) : (Mem.zero m a n).wf = true :=
  Tbl.filter_wf m _ h

@[simp] theorem toLE_length (n v : Nat) : (toLE n v).length = n := by
  induction n generalizing v with
  | zero => rfl
  | succ n ih => simp [toLE, ih]

/-- The value of the bytes of a number. -/
@[simp] theorem leNat_toLE (n v : Nat) : leNat (toLE n v) = v % 256 ^ n := by
  induction n generalizing v with
  | zero => simp [toLE, leNat, Nat.mod_one]
  | succ n ih =>
    simp only [toLE, leNat, ih, BitVec.toNat_ofNat]
    have e : 256 ^ (n + 1) = 256 * 256 ^ n := by rw [Nat.pow_succ, Nat.mul_comm]
    rw [e, Nat.mod_mul]

theorem toLE_drop (n o v : Nat) (h : o ≤ n) : (toLE n v).drop o = toLE (n - o) (v / 256 ^ o) := by
  induction o generalizing n v with
  | zero => simp
  | succ o ih =>
    obtain ⟨m, rfl⟩ : ∃ m, n = m + 1 := ⟨n - 1, by omega⟩
    simp only [toLE, List.drop_succ_cons]
    rw [ih m (v / 256) (by omega), Nat.div_div_eq_div_mul, Nat.pow_succ, Nat.mul_comm]
    congr 1
    omega

theorem toLE_take (n m v : Nat) (h : m ≤ n) : (toLE n v).take m = toLE m v := by
  induction m generalizing n v with
  | zero => simp [toLE]
  | succ m ih =>
    obtain ⟨k, rfl⟩ : ∃ k, n = k + 1 := ⟨n - 1, by omega⟩
    simp only [toLE, List.take_succ_cons]
    rw [ih k (v / 256) (by omega)]

theorem toLE_getElem (n v i : Nat) (h : i < (toLE n v).length) : (toLE n v)[i] = BitVec.ofNat 8 (v / 256 ^ i) := by
  induction n generalizing v i with
  | zero => simp [toLE] at h
  | succ n ih =>
    cases i with
    | zero => simp [toLE]
    | succ i =>
      simp only [toLE, List.getElem_cons_succ]
      rw [ih, Nat.div_div_eq_div_mul, Nat.pow_succ, Nat.mul_comm]

end Sys2Proof.Machine
end

