-- ==== Sys2Proof/Laws/State.lean ====
section
/-! SUPPORT. The laws of the updates of the state: what each named update leaves unchanged, field by field, and what it reads
back as. -/

namespace Sys2Proof.Machine

@[simp] theorem State.putObe_pending (s : State) (key e v : Nat) : (s.putObe key e v).pending = s.pending := rfl
@[simp] theorem State.putObe_now (s : State) (key e v : Nat) : (s.putObe key e v).now = s.now := rfl
@[simp] theorem State.putObe_slew (s : State) (key e v : Nat) : (s.putObe key e v).slew = s.slew := rfl
@[simp] theorem State.putObe_slewPhase (s : State) (key e v : Nat) : (s.putObe key e v).slewPhase = s.slewPhase := rfl
@[simp] theorem State.putObe_sluiceAt (s : State) (key e v : Nat) : (s.putObe key e v).sluiceAt = s.sluiceAt := rfl
@[simp] theorem State.putObe_free (s : State) (key e v : Nat) : (s.putObe key e v).free = s.free := rfl
@[simp] theorem State.putObe_fused (s : State) (key e v : Nat) : (s.putObe key e v).fused = s.fused := rfl
@[simp] theorem State.putObe_pins (s : State) (key e v : Nat) : (s.putObe key e v).pins = s.pins := rfl
@[simp] theorem State.putObe_boot (s : State) (key e v : Nat) : (s.putObe key e v).boot = s.boot := rfl
@[simp] theorem State.putObe_fw (s : State) (key e v : Nat) : (s.putObe key e v).fw = s.fw := rfl
@[simp] theorem State.putObe_txn (s : State) (key e v : Nat) : (s.putObe key e v).txn = s.txn := rfl
@[simp] theorem State.putObe_migs (s : State) (key e v : Nat) : (s.putObe key e v).migs = s.migs := rfl
@[simp] theorem State.putObe_errs (s : State) (key e v : Nat) : (s.putObe key e v).errs = s.errs := rfl
@[simp] theorem State.putObe_defects (s : State) (key e v : Nat) : (s.putObe key e v).defects = s.defects := rfl
@[simp] theorem State.putObe_tiles (s : State) (key e v : Nat) : (s.putObe key e v).tiles = s.tiles := rfl
@[simp] theorem State.putObe_routers (s : State) (key e v : Nat) : (s.putObe key e v).routers = s.routers := rfl
@[simp] theorem State.putObe_net (s : State) (key e v : Nat) : (s.putObe key e v).net = s.net := rfl
@[simp] theorem State.putObe_nextPkt (s : State) (key e v : Nat) : (s.putObe key e v).nextPkt = s.nextPkt := rfl
@[simp] theorem State.putObe_dies (s : State) (key e v : Nat) : (s.putObe key e v).dies = s.dies := rfl
@[simp] theorem State.putObe_host (s : State) (key e v : Nat) : (s.putObe key e v).host = s.host := rfl
@[simp] theorem State.putObe_jobs (s : State) (key e v : Nat) : (s.putObe key e v).jobs = s.jobs := rfl
@[simp] theorem State.putObe_dumps (s : State) (key e v : Nat) : (s.putObe key e v).dumps = s.dumps := rfl
@[simp] theorem State.putObe_test (s : State) (key e v : Nat) : (s.putObe key e v).test = s.test := rfl
@[simp] theorem State.putObe_power (s : State) (key e v : Nat) : (s.putObe key e v).power = s.power := rfl
@[simp] theorem State.putObe_telemetry (s : State) (key e v : Nat) : (s.putObe key e v).telemetry = s.telemetry := rfl

@[simp] theorem State.putOb_pending (s : State) (key v : Nat) : (s.putOb key v).pending = s.pending := rfl
@[simp] theorem State.putOb_now (s : State) (key v : Nat) : (s.putOb key v).now = s.now := rfl
@[simp] theorem State.putOb_slew (s : State) (key v : Nat) : (s.putOb key v).slew = s.slew := rfl
@[simp] theorem State.putOb_slewPhase (s : State) (key v : Nat) : (s.putOb key v).slewPhase = s.slewPhase := rfl
@[simp] theorem State.putOb_sluiceAt (s : State) (key v : Nat) : (s.putOb key v).sluiceAt = s.sluiceAt := rfl
@[simp] theorem State.putOb_free (s : State) (key v : Nat) : (s.putOb key v).free = s.free := rfl
@[simp] theorem State.putOb_fused (s : State) (key v : Nat) : (s.putOb key v).fused = s.fused := rfl
@[simp] theorem State.putOb_pins (s : State) (key v : Nat) : (s.putOb key v).pins = s.pins := rfl
@[simp] theorem State.putOb_boot (s : State) (key v : Nat) : (s.putOb key v).boot = s.boot := rfl
@[simp] theorem State.putOb_fw (s : State) (key v : Nat) : (s.putOb key v).fw = s.fw := rfl
@[simp] theorem State.putOb_txn (s : State) (key v : Nat) : (s.putOb key v).txn = s.txn := rfl
@[simp] theorem State.putOb_migs (s : State) (key v : Nat) : (s.putOb key v).migs = s.migs := rfl
@[simp] theorem State.putOb_errs (s : State) (key v : Nat) : (s.putOb key v).errs = s.errs := rfl
@[simp] theorem State.putOb_defects (s : State) (key v : Nat) : (s.putOb key v).defects = s.defects := rfl
@[simp] theorem State.putOb_tiles (s : State) (key v : Nat) : (s.putOb key v).tiles = s.tiles := rfl
@[simp] theorem State.putOb_routers (s : State) (key v : Nat) : (s.putOb key v).routers = s.routers := rfl
@[simp] theorem State.putOb_net (s : State) (key v : Nat) : (s.putOb key v).net = s.net := rfl
@[simp] theorem State.putOb_nextPkt (s : State) (key v : Nat) : (s.putOb key v).nextPkt = s.nextPkt := rfl
@[simp] theorem State.putOb_dies (s : State) (key v : Nat) : (s.putOb key v).dies = s.dies := rfl
@[simp] theorem State.putOb_host (s : State) (key v : Nat) : (s.putOb key v).host = s.host := rfl
@[simp] theorem State.putOb_jobs (s : State) (key v : Nat) : (s.putOb key v).jobs = s.jobs := rfl
@[simp] theorem State.putOb_dumps (s : State) (key v : Nat) : (s.putOb key v).dumps = s.dumps := rfl
@[simp] theorem State.putOb_test (s : State) (key v : Nat) : (s.putOb key v).test = s.test := rfl
@[simp] theorem State.putOb_power (s : State) (key v : Nat) : (s.putOb key v).power = s.power := rfl
@[simp] theorem State.putOb_telemetry (s : State) (key v : Nat) : (s.putOb key v).telemetry = s.telemetry := rfl

@[simp] theorem State.addObe_pending (s : State) (key e n w : Nat) : (s.addObe key e n w).pending = s.pending := rfl
@[simp] theorem State.addObe_now (s : State) (key e n w : Nat) : (s.addObe key e n w).now = s.now := rfl
@[simp] theorem State.addObe_slew (s : State) (key e n w : Nat) : (s.addObe key e n w).slew = s.slew := rfl
@[simp] theorem State.addObe_slewPhase (s : State) (key e n w : Nat) : (s.addObe key e n w).slewPhase = s.slewPhase := rfl
@[simp] theorem State.addObe_sluiceAt (s : State) (key e n w : Nat) : (s.addObe key e n w).sluiceAt = s.sluiceAt := rfl
@[simp] theorem State.addObe_free (s : State) (key e n w : Nat) : (s.addObe key e n w).free = s.free := rfl
@[simp] theorem State.addObe_fused (s : State) (key e n w : Nat) : (s.addObe key e n w).fused = s.fused := rfl
@[simp] theorem State.addObe_pins (s : State) (key e n w : Nat) : (s.addObe key e n w).pins = s.pins := rfl
@[simp] theorem State.addObe_boot (s : State) (key e n w : Nat) : (s.addObe key e n w).boot = s.boot := rfl
@[simp] theorem State.addObe_fw (s : State) (key e n w : Nat) : (s.addObe key e n w).fw = s.fw := rfl
@[simp] theorem State.addObe_txn (s : State) (key e n w : Nat) : (s.addObe key e n w).txn = s.txn := rfl
@[simp] theorem State.addObe_migs (s : State) (key e n w : Nat) : (s.addObe key e n w).migs = s.migs := rfl
@[simp] theorem State.addObe_errs (s : State) (key e n w : Nat) : (s.addObe key e n w).errs = s.errs := rfl
@[simp] theorem State.addObe_defects (s : State) (key e n w : Nat) : (s.addObe key e n w).defects = s.defects := rfl
@[simp] theorem State.addObe_tiles (s : State) (key e n w : Nat) : (s.addObe key e n w).tiles = s.tiles := rfl
@[simp] theorem State.addObe_routers (s : State) (key e n w : Nat) : (s.addObe key e n w).routers = s.routers := rfl
@[simp] theorem State.addObe_net (s : State) (key e n w : Nat) : (s.addObe key e n w).net = s.net := rfl
@[simp] theorem State.addObe_nextPkt (s : State) (key e n w : Nat) : (s.addObe key e n w).nextPkt = s.nextPkt := rfl
@[simp] theorem State.addObe_dies (s : State) (key e n w : Nat) : (s.addObe key e n w).dies = s.dies := rfl
@[simp] theorem State.addObe_host (s : State) (key e n w : Nat) : (s.addObe key e n w).host = s.host := rfl
@[simp] theorem State.addObe_jobs (s : State) (key e n w : Nat) : (s.addObe key e n w).jobs = s.jobs := rfl
@[simp] theorem State.addObe_dumps (s : State) (key e n w : Nat) : (s.addObe key e n w).dumps = s.dumps := rfl
@[simp] theorem State.addObe_test (s : State) (key e n w : Nat) : (s.addObe key e n w).test = s.test := rfl
@[simp] theorem State.addObe_power (s : State) (key e n w : Nat) : (s.addObe key e n w).power = s.power := rfl
@[simp] theorem State.addObe_telemetry (s : State) (key e n w : Nat) : (s.addObe key e n w).telemetry = s.telemetry := rfl

@[simp] theorem State.addRec_pending (s : State) (key e i n : Nat) : (s.addRec key e i n).pending = s.pending := rfl
@[simp] theorem State.addRec_now (s : State) (key e i n : Nat) : (s.addRec key e i n).now = s.now := rfl
@[simp] theorem State.addRec_slew (s : State) (key e i n : Nat) : (s.addRec key e i n).slew = s.slew := rfl
@[simp] theorem State.addRec_slewPhase (s : State) (key e i n : Nat) : (s.addRec key e i n).slewPhase = s.slewPhase := rfl
@[simp] theorem State.addRec_sluiceAt (s : State) (key e i n : Nat) : (s.addRec key e i n).sluiceAt = s.sluiceAt := rfl
@[simp] theorem State.addRec_free (s : State) (key e i n : Nat) : (s.addRec key e i n).free = s.free := rfl
@[simp] theorem State.addRec_fused (s : State) (key e i n : Nat) : (s.addRec key e i n).fused = s.fused := rfl
@[simp] theorem State.addRec_pins (s : State) (key e i n : Nat) : (s.addRec key e i n).pins = s.pins := rfl
@[simp] theorem State.addRec_boot (s : State) (key e i n : Nat) : (s.addRec key e i n).boot = s.boot := rfl
@[simp] theorem State.addRec_fw (s : State) (key e i n : Nat) : (s.addRec key e i n).fw = s.fw := rfl
@[simp] theorem State.addRec_txn (s : State) (key e i n : Nat) : (s.addRec key e i n).txn = s.txn := rfl
@[simp] theorem State.addRec_migs (s : State) (key e i n : Nat) : (s.addRec key e i n).migs = s.migs := rfl
@[simp] theorem State.addRec_errs (s : State) (key e i n : Nat) : (s.addRec key e i n).errs = s.errs := rfl
@[simp] theorem State.addRec_defects (s : State) (key e i n : Nat) : (s.addRec key e i n).defects = s.defects := rfl
@[simp] theorem State.addRec_tiles (s : State) (key e i n : Nat) : (s.addRec key e i n).tiles = s.tiles := rfl
@[simp] theorem State.addRec_routers (s : State) (key e i n : Nat) : (s.addRec key e i n).routers = s.routers := rfl
@[simp] theorem State.addRec_net (s : State) (key e i n : Nat) : (s.addRec key e i n).net = s.net := rfl
@[simp] theorem State.addRec_nextPkt (s : State) (key e i n : Nat) : (s.addRec key e i n).nextPkt = s.nextPkt := rfl
@[simp] theorem State.addRec_dies (s : State) (key e i n : Nat) : (s.addRec key e i n).dies = s.dies := rfl
@[simp] theorem State.addRec_host (s : State) (key e i n : Nat) : (s.addRec key e i n).host = s.host := rfl
@[simp] theorem State.addRec_jobs (s : State) (key e i n : Nat) : (s.addRec key e i n).jobs = s.jobs := rfl
@[simp] theorem State.addRec_dumps (s : State) (key e i n : Nat) : (s.addRec key e i n).dumps = s.dumps := rfl
@[simp] theorem State.addRec_test (s : State) (key e i n : Nat) : (s.addRec key e i n).test = s.test := rfl
@[simp] theorem State.addRec_power (s : State) (key e i n : Nat) : (s.addRec key e i n).power = s.power := rfl
@[simp] theorem State.addRec_telemetry (s : State) (key e i n : Nat) : (s.addRec key e i n).telemetry = s.telemetry := rfl

@[simp] theorem State.setTile_pending (s : State) (p : Nat) (t : Tile) : (s.setTile p t).pending = s.pending := rfl
@[simp] theorem State.setTile_now (s : State) (p : Nat) (t : Tile) : (s.setTile p t).now = s.now := rfl
@[simp] theorem State.setTile_slew (s : State) (p : Nat) (t : Tile) : (s.setTile p t).slew = s.slew := rfl
@[simp] theorem State.setTile_slewPhase (s : State) (p : Nat) (t : Tile) : (s.setTile p t).slewPhase = s.slewPhase := rfl
@[simp] theorem State.setTile_sluiceAt (s : State) (p : Nat) (t : Tile) : (s.setTile p t).sluiceAt = s.sluiceAt := rfl
@[simp] theorem State.setTile_free (s : State) (p : Nat) (t : Tile) : (s.setTile p t).free = s.free := rfl
@[simp] theorem State.setTile_fused (s : State) (p : Nat) (t : Tile) : (s.setTile p t).fused = s.fused := rfl
@[simp] theorem State.setTile_pins (s : State) (p : Nat) (t : Tile) : (s.setTile p t).pins = s.pins := rfl
@[simp] theorem State.setTile_boot (s : State) (p : Nat) (t : Tile) : (s.setTile p t).boot = s.boot := rfl
@[simp] theorem State.setTile_fw (s : State) (p : Nat) (t : Tile) : (s.setTile p t).fw = s.fw := rfl
@[simp] theorem State.setTile_dict (s : State) (p : Nat) (t : Tile) : (s.setTile p t).dict = s.dict := rfl
@[simp] theorem State.setTile_txn (s : State) (p : Nat) (t : Tile) : (s.setTile p t).txn = s.txn := rfl
@[simp] theorem State.setTile_migs (s : State) (p : Nat) (t : Tile) : (s.setTile p t).migs = s.migs := rfl
@[simp] theorem State.setTile_errs (s : State) (p : Nat) (t : Tile) : (s.setTile p t).errs = s.errs := rfl
@[simp] theorem State.setTile_defects (s : State) (p : Nat) (t : Tile) : (s.setTile p t).defects = s.defects := rfl
@[simp] theorem State.setTile_routers (s : State) (p : Nat) (t : Tile) : (s.setTile p t).routers = s.routers := rfl
@[simp] theorem State.setTile_net (s : State) (p : Nat) (t : Tile) : (s.setTile p t).net = s.net := rfl
@[simp] theorem State.setTile_nextPkt (s : State) (p : Nat) (t : Tile) : (s.setTile p t).nextPkt = s.nextPkt := rfl
@[simp] theorem State.setTile_dies (s : State) (p : Nat) (t : Tile) : (s.setTile p t).dies = s.dies := rfl
@[simp] theorem State.setTile_host (s : State) (p : Nat) (t : Tile) : (s.setTile p t).host = s.host := rfl
@[simp] theorem State.setTile_jobs (s : State) (p : Nat) (t : Tile) : (s.setTile p t).jobs = s.jobs := rfl
@[simp] theorem State.setTile_dumps (s : State) (p : Nat) (t : Tile) : (s.setTile p t).dumps = s.dumps := rfl
@[simp] theorem State.setTile_test (s : State) (p : Nat) (t : Tile) : (s.setTile p t).test = s.test := rfl
@[simp] theorem State.setTile_power (s : State) (p : Nat) (t : Tile) : (s.setTile p t).power = s.power := rfl
@[simp] theorem State.setTile_telemetry (s : State) (p : Nat) (t : Tile) : (s.setTile p t).telemetry = s.telemetry := rfl

@[simp] theorem State.modTile_pending (s : State) (p : Nat) (f : Tile → Tile) : (s.modTile p f).pending = s.pending := rfl
@[simp] theorem State.modTile_now (s : State) (p : Nat) (f : Tile → Tile) : (s.modTile p f).now = s.now := rfl
@[simp] theorem State.modTile_slew (s : State) (p : Nat) (f : Tile → Tile) : (s.modTile p f).slew = s.slew := rfl
@[simp] theorem State.modTile_slewPhase (s : State) (p : Nat) (f : Tile → Tile) : (s.modTile p f).slewPhase = s.slewPhase := rfl
@[simp] theorem State.modTile_sluiceAt (s : State) (p : Nat) (f : Tile → Tile) : (s.modTile p f).sluiceAt = s.sluiceAt := rfl
@[simp] theorem State.modTile_free (s : State) (p : Nat) (f : Tile → Tile) : (s.modTile p f).free = s.free := rfl
@[simp] theorem State.modTile_fused (s : State) (p : Nat) (f : Tile → Tile) : (s.modTile p f).fused = s.fused := rfl
@[simp] theorem State.modTile_pins (s : State) (p : Nat) (f : Tile → Tile) : (s.modTile p f).pins = s.pins := rfl
@[simp] theorem State.modTile_boot (s : State) (p : Nat) (f : Tile → Tile) : (s.modTile p f).boot = s.boot := rfl
@[simp] theorem State.modTile_fw (s : State) (p : Nat) (f : Tile → Tile) : (s.modTile p f).fw = s.fw := rfl
@[simp] theorem State.modTile_dict (s : State) (p : Nat) (f : Tile → Tile) : (s.modTile p f).dict = s.dict := rfl
@[simp] theorem State.modTile_txn (s : State) (p : Nat) (f : Tile → Tile) : (s.modTile p f).txn = s.txn := rfl
@[simp] theorem State.modTile_migs (s : State) (p : Nat) (f : Tile → Tile) : (s.modTile p f).migs = s.migs := rfl
@[simp] theorem State.modTile_errs (s : State) (p : Nat) (f : Tile → Tile) : (s.modTile p f).errs = s.errs := rfl
@[simp] theorem State.modTile_defects (s : State) (p : Nat) (f : Tile → Tile) : (s.modTile p f).defects = s.defects := rfl
@[simp] theorem State.modTile_routers (s : State) (p : Nat) (f : Tile → Tile) : (s.modTile p f).routers = s.routers := rfl
@[simp] theorem State.modTile_net (s : State) (p : Nat) (f : Tile → Tile) : (s.modTile p f).net = s.net := rfl
@[simp] theorem State.modTile_nextPkt (s : State) (p : Nat) (f : Tile → Tile) : (s.modTile p f).nextPkt = s.nextPkt := rfl
@[simp] theorem State.modTile_dies (s : State) (p : Nat) (f : Tile → Tile) : (s.modTile p f).dies = s.dies := rfl
@[simp] theorem State.modTile_host (s : State) (p : Nat) (f : Tile → Tile) : (s.modTile p f).host = s.host := rfl
@[simp] theorem State.modTile_jobs (s : State) (p : Nat) (f : Tile → Tile) : (s.modTile p f).jobs = s.jobs := rfl
@[simp] theorem State.modTile_dumps (s : State) (p : Nat) (f : Tile → Tile) : (s.modTile p f).dumps = s.dumps := rfl
@[simp] theorem State.modTile_test (s : State) (p : Nat) (f : Tile → Tile) : (s.modTile p f).test = s.test := rfl
@[simp] theorem State.modTile_power (s : State) (p : Nat) (f : Tile → Tile) : (s.modTile p f).power = s.power := rfl
@[simp] theorem State.modTile_telemetry (s : State) (p : Nat) (f : Tile → Tile) : (s.modTile p f).telemetry = s.telemetry := rfl

@[simp] theorem State.modRouter_pending (s : State) (p : Nat) (f : Router → Router) : (s.modRouter p f).pending = s.pending := rfl
@[simp] theorem State.modRouter_now (s : State) (p : Nat) (f : Router → Router) : (s.modRouter p f).now = s.now := rfl
@[simp] theorem State.modRouter_slew (s : State) (p : Nat) (f : Router → Router) : (s.modRouter p f).slew = s.slew := rfl
@[simp] theorem State.modRouter_slewPhase (s : State) (p : Nat) (f : Router → Router) : (s.modRouter p f).slewPhase = s.slewPhase := rfl
@[simp] theorem State.modRouter_sluiceAt (s : State) (p : Nat) (f : Router → Router) : (s.modRouter p f).sluiceAt = s.sluiceAt := rfl
@[simp] theorem State.modRouter_free (s : State) (p : Nat) (f : Router → Router) : (s.modRouter p f).free = s.free := rfl
@[simp] theorem State.modRouter_fused (s : State) (p : Nat) (f : Router → Router) : (s.modRouter p f).fused = s.fused := rfl
@[simp] theorem State.modRouter_pins (s : State) (p : Nat) (f : Router → Router) : (s.modRouter p f).pins = s.pins := rfl
@[simp] theorem State.modRouter_boot (s : State) (p : Nat) (f : Router → Router) : (s.modRouter p f).boot = s.boot := rfl
@[simp] theorem State.modRouter_fw (s : State) (p : Nat) (f : Router → Router) : (s.modRouter p f).fw = s.fw := rfl
@[simp] theorem State.modRouter_dict (s : State) (p : Nat) (f : Router → Router) : (s.modRouter p f).dict = s.dict := rfl
@[simp] theorem State.modRouter_txn (s : State) (p : Nat) (f : Router → Router) : (s.modRouter p f).txn = s.txn := rfl
@[simp] theorem State.modRouter_migs (s : State) (p : Nat) (f : Router → Router) : (s.modRouter p f).migs = s.migs := rfl
@[simp] theorem State.modRouter_errs (s : State) (p : Nat) (f : Router → Router) : (s.modRouter p f).errs = s.errs := rfl
@[simp] theorem State.modRouter_defects (s : State) (p : Nat) (f : Router → Router) : (s.modRouter p f).defects = s.defects := rfl
@[simp] theorem State.modRouter_tiles (s : State) (p : Nat) (f : Router → Router) : (s.modRouter p f).tiles = s.tiles := rfl
@[simp] theorem State.modRouter_net (s : State) (p : Nat) (f : Router → Router) : (s.modRouter p f).net = s.net := rfl
@[simp] theorem State.modRouter_nextPkt (s : State) (p : Nat) (f : Router → Router) : (s.modRouter p f).nextPkt = s.nextPkt := rfl
@[simp] theorem State.modRouter_dies (s : State) (p : Nat) (f : Router → Router) : (s.modRouter p f).dies = s.dies := rfl
@[simp] theorem State.modRouter_host (s : State) (p : Nat) (f : Router → Router) : (s.modRouter p f).host = s.host := rfl
@[simp] theorem State.modRouter_jobs (s : State) (p : Nat) (f : Router → Router) : (s.modRouter p f).jobs = s.jobs := rfl
@[simp] theorem State.modRouter_dumps (s : State) (p : Nat) (f : Router → Router) : (s.modRouter p f).dumps = s.dumps := rfl
@[simp] theorem State.modRouter_test (s : State) (p : Nat) (f : Router → Router) : (s.modRouter p f).test = s.test := rfl
@[simp] theorem State.modRouter_power (s : State) (p : Nat) (f : Router → Router) : (s.modRouter p f).power = s.power := rfl
@[simp] theorem State.modRouter_telemetry (s : State) (p : Nat) (f : Router → Router) : (s.modRouter p f).telemetry = s.telemetry := rfl

@[simp] theorem State.modDie_pending (s : State) (d : Nat) (f : DieState → DieState) : (s.modDie d f).pending = s.pending := rfl
@[simp] theorem State.modDie_now (s : State) (d : Nat) (f : DieState → DieState) : (s.modDie d f).now = s.now := rfl
@[simp] theorem State.modDie_slew (s : State) (d : Nat) (f : DieState → DieState) : (s.modDie d f).slew = s.slew := rfl
@[simp] theorem State.modDie_slewPhase (s : State) (d : Nat) (f : DieState → DieState) : (s.modDie d f).slewPhase = s.slewPhase := rfl
@[simp] theorem State.modDie_sluiceAt (s : State) (d : Nat) (f : DieState → DieState) : (s.modDie d f).sluiceAt = s.sluiceAt := rfl
@[simp] theorem State.modDie_free (s : State) (d : Nat) (f : DieState → DieState) : (s.modDie d f).free = s.free := rfl
@[simp] theorem State.modDie_fused (s : State) (d : Nat) (f : DieState → DieState) : (s.modDie d f).fused = s.fused := rfl
@[simp] theorem State.modDie_pins (s : State) (d : Nat) (f : DieState → DieState) : (s.modDie d f).pins = s.pins := rfl
@[simp] theorem State.modDie_boot (s : State) (d : Nat) (f : DieState → DieState) : (s.modDie d f).boot = s.boot := rfl
@[simp] theorem State.modDie_fw (s : State) (d : Nat) (f : DieState → DieState) : (s.modDie d f).fw = s.fw := rfl
@[simp] theorem State.modDie_dict (s : State) (d : Nat) (f : DieState → DieState) : (s.modDie d f).dict = s.dict := rfl
@[simp] theorem State.modDie_txn (s : State) (d : Nat) (f : DieState → DieState) : (s.modDie d f).txn = s.txn := rfl
@[simp] theorem State.modDie_migs (s : State) (d : Nat) (f : DieState → DieState) : (s.modDie d f).migs = s.migs := rfl
@[simp] theorem State.modDie_errs (s : State) (d : Nat) (f : DieState → DieState) : (s.modDie d f).errs = s.errs := rfl
@[simp] theorem State.modDie_defects (s : State) (d : Nat) (f : DieState → DieState) : (s.modDie d f).defects = s.defects := rfl
@[simp] theorem State.modDie_tiles (s : State) (d : Nat) (f : DieState → DieState) : (s.modDie d f).tiles = s.tiles := rfl
@[simp] theorem State.modDie_routers (s : State) (d : Nat) (f : DieState → DieState) : (s.modDie d f).routers = s.routers := rfl
@[simp] theorem State.modDie_net (s : State) (d : Nat) (f : DieState → DieState) : (s.modDie d f).net = s.net := rfl
@[simp] theorem State.modDie_nextPkt (s : State) (d : Nat) (f : DieState → DieState) : (s.modDie d f).nextPkt = s.nextPkt := rfl
@[simp] theorem State.modDie_host (s : State) (d : Nat) (f : DieState → DieState) : (s.modDie d f).host = s.host := rfl
@[simp] theorem State.modDie_jobs (s : State) (d : Nat) (f : DieState → DieState) : (s.modDie d f).jobs = s.jobs := rfl
@[simp] theorem State.modDie_dumps (s : State) (d : Nat) (f : DieState → DieState) : (s.modDie d f).dumps = s.dumps := rfl
@[simp] theorem State.modDie_test (s : State) (d : Nat) (f : DieState → DieState) : (s.modDie d f).test = s.test := rfl
@[simp] theorem State.modDie_power (s : State) (d : Nat) (f : DieState → DieState) : (s.modDie d f).power = s.power := rfl
@[simp] theorem State.modDie_telemetry (s : State) (d : Nat) (f : DieState → DieState) : (s.modDie d f).telemetry = s.telemetry := rfl

@[simp] theorem State.modJob_pending (s : State) (g : Nat) (f : JobSt → JobSt) : (s.modJob g f).pending = s.pending := rfl
@[simp] theorem State.modJob_now (s : State) (g : Nat) (f : JobSt → JobSt) : (s.modJob g f).now = s.now := rfl
@[simp] theorem State.modJob_slew (s : State) (g : Nat) (f : JobSt → JobSt) : (s.modJob g f).slew = s.slew := rfl
@[simp] theorem State.modJob_slewPhase (s : State) (g : Nat) (f : JobSt → JobSt) : (s.modJob g f).slewPhase = s.slewPhase := rfl
@[simp] theorem State.modJob_sluiceAt (s : State) (g : Nat) (f : JobSt → JobSt) : (s.modJob g f).sluiceAt = s.sluiceAt := rfl
@[simp] theorem State.modJob_free (s : State) (g : Nat) (f : JobSt → JobSt) : (s.modJob g f).free = s.free := rfl
@[simp] theorem State.modJob_fused (s : State) (g : Nat) (f : JobSt → JobSt) : (s.modJob g f).fused = s.fused := rfl
@[simp] theorem State.modJob_pins (s : State) (g : Nat) (f : JobSt → JobSt) : (s.modJob g f).pins = s.pins := rfl
@[simp] theorem State.modJob_boot (s : State) (g : Nat) (f : JobSt → JobSt) : (s.modJob g f).boot = s.boot := rfl
@[simp] theorem State.modJob_fw (s : State) (g : Nat) (f : JobSt → JobSt) : (s.modJob g f).fw = s.fw := rfl
@[simp] theorem State.modJob_dict (s : State) (g : Nat) (f : JobSt → JobSt) : (s.modJob g f).dict = s.dict := rfl
@[simp] theorem State.modJob_txn (s : State) (g : Nat) (f : JobSt → JobSt) : (s.modJob g f).txn = s.txn := rfl
@[simp] theorem State.modJob_migs (s : State) (g : Nat) (f : JobSt → JobSt) : (s.modJob g f).migs = s.migs := rfl
@[simp] theorem State.modJob_errs (s : State) (g : Nat) (f : JobSt → JobSt) : (s.modJob g f).errs = s.errs := rfl
@[simp] theorem State.modJob_defects (s : State) (g : Nat) (f : JobSt → JobSt) : (s.modJob g f).defects = s.defects := rfl
@[simp] theorem State.modJob_tiles (s : State) (g : Nat) (f : JobSt → JobSt) : (s.modJob g f).tiles = s.tiles := rfl
@[simp] theorem State.modJob_routers (s : State) (g : Nat) (f : JobSt → JobSt) : (s.modJob g f).routers = s.routers := rfl
@[simp] theorem State.modJob_net (s : State) (g : Nat) (f : JobSt → JobSt) : (s.modJob g f).net = s.net := rfl
@[simp] theorem State.modJob_nextPkt (s : State) (g : Nat) (f : JobSt → JobSt) : (s.modJob g f).nextPkt = s.nextPkt := rfl
@[simp] theorem State.modJob_dies (s : State) (g : Nat) (f : JobSt → JobSt) : (s.modJob g f).dies = s.dies := rfl
@[simp] theorem State.modJob_host (s : State) (g : Nat) (f : JobSt → JobSt) : (s.modJob g f).host = s.host := rfl
@[simp] theorem State.modJob_dumps (s : State) (g : Nat) (f : JobSt → JobSt) : (s.modJob g f).dumps = s.dumps := rfl
@[simp] theorem State.modJob_test (s : State) (g : Nat) (f : JobSt → JobSt) : (s.modJob g f).test = s.test := rfl
@[simp] theorem State.modJob_power (s : State) (g : Nat) (f : JobSt → JobSt) : (s.modJob g f).power = s.power := rfl
@[simp] theorem State.modJob_telemetry (s : State) (g : Nat) (f : JobSt → JobSt) : (s.modJob g f).telemetry = s.telemetry := rfl

@[simp] theorem State.modMig_pending (s : State) (m : Nat) (f : Migration → Migration) : (s.modMig m f).pending = s.pending := rfl
@[simp] theorem State.modMig_now (s : State) (m : Nat) (f : Migration → Migration) : (s.modMig m f).now = s.now := rfl
@[simp] theorem State.modMig_slew (s : State) (m : Nat) (f : Migration → Migration) : (s.modMig m f).slew = s.slew := rfl
@[simp] theorem State.modMig_slewPhase (s : State) (m : Nat) (f : Migration → Migration) : (s.modMig m f).slewPhase = s.slewPhase := rfl
@[simp] theorem State.modMig_sluiceAt (s : State) (m : Nat) (f : Migration → Migration) : (s.modMig m f).sluiceAt = s.sluiceAt := rfl
@[simp] theorem State.modMig_free (s : State) (m : Nat) (f : Migration → Migration) : (s.modMig m f).free = s.free := rfl
@[simp] theorem State.modMig_fused (s : State) (m : Nat) (f : Migration → Migration) : (s.modMig m f).fused = s.fused := rfl
@[simp] theorem State.modMig_pins (s : State) (m : Nat) (f : Migration → Migration) : (s.modMig m f).pins = s.pins := rfl
@[simp] theorem State.modMig_boot (s : State) (m : Nat) (f : Migration → Migration) : (s.modMig m f).boot = s.boot := rfl
@[simp] theorem State.modMig_fw (s : State) (m : Nat) (f : Migration → Migration) : (s.modMig m f).fw = s.fw := rfl
@[simp] theorem State.modMig_dict (s : State) (m : Nat) (f : Migration → Migration) : (s.modMig m f).dict = s.dict := rfl
@[simp] theorem State.modMig_txn (s : State) (m : Nat) (f : Migration → Migration) : (s.modMig m f).txn = s.txn := rfl
@[simp] theorem State.modMig_errs (s : State) (m : Nat) (f : Migration → Migration) : (s.modMig m f).errs = s.errs := rfl
@[simp] theorem State.modMig_defects (s : State) (m : Nat) (f : Migration → Migration) : (s.modMig m f).defects = s.defects := rfl
@[simp] theorem State.modMig_tiles (s : State) (m : Nat) (f : Migration → Migration) : (s.modMig m f).tiles = s.tiles := rfl
@[simp] theorem State.modMig_routers (s : State) (m : Nat) (f : Migration → Migration) : (s.modMig m f).routers = s.routers := rfl
@[simp] theorem State.modMig_net (s : State) (m : Nat) (f : Migration → Migration) : (s.modMig m f).net = s.net := rfl
@[simp] theorem State.modMig_nextPkt (s : State) (m : Nat) (f : Migration → Migration) : (s.modMig m f).nextPkt = s.nextPkt := rfl
@[simp] theorem State.modMig_dies (s : State) (m : Nat) (f : Migration → Migration) : (s.modMig m f).dies = s.dies := rfl
@[simp] theorem State.modMig_host (s : State) (m : Nat) (f : Migration → Migration) : (s.modMig m f).host = s.host := rfl
@[simp] theorem State.modMig_jobs (s : State) (m : Nat) (f : Migration → Migration) : (s.modMig m f).jobs = s.jobs := rfl
@[simp] theorem State.modMig_dumps (s : State) (m : Nat) (f : Migration → Migration) : (s.modMig m f).dumps = s.dumps := rfl
@[simp] theorem State.modMig_test (s : State) (m : Nat) (f : Migration → Migration) : (s.modMig m f).test = s.test := rfl
@[simp] theorem State.modMig_power (s : State) (m : Nat) (f : Migration → Migration) : (s.modMig m f).power = s.power := rfl
@[simp] theorem State.modMig_telemetry (s : State) (m : Nat) (f : Migration → Migration) : (s.modMig m f).telemetry = s.telemetry := rfl

@[simp] theorem State.setPkt_pending (s : State) (n : Nat) (k : Packet) : (s.setPkt n k).pending = s.pending := rfl
@[simp] theorem State.setPkt_now (s : State) (n : Nat) (k : Packet) : (s.setPkt n k).now = s.now := rfl
@[simp] theorem State.setPkt_slew (s : State) (n : Nat) (k : Packet) : (s.setPkt n k).slew = s.slew := rfl
@[simp] theorem State.setPkt_slewPhase (s : State) (n : Nat) (k : Packet) : (s.setPkt n k).slewPhase = s.slewPhase := rfl
@[simp] theorem State.setPkt_sluiceAt (s : State) (n : Nat) (k : Packet) : (s.setPkt n k).sluiceAt = s.sluiceAt := rfl
@[simp] theorem State.setPkt_free (s : State) (n : Nat) (k : Packet) : (s.setPkt n k).free = s.free := rfl
@[simp] theorem State.setPkt_fused (s : State) (n : Nat) (k : Packet) : (s.setPkt n k).fused = s.fused := rfl
@[simp] theorem State.setPkt_pins (s : State) (n : Nat) (k : Packet) : (s.setPkt n k).pins = s.pins := rfl
@[simp] theorem State.setPkt_boot (s : State) (n : Nat) (k : Packet) : (s.setPkt n k).boot = s.boot := rfl
@[simp] theorem State.setPkt_fw (s : State) (n : Nat) (k : Packet) : (s.setPkt n k).fw = s.fw := rfl
@[simp] theorem State.setPkt_dict (s : State) (n : Nat) (k : Packet) : (s.setPkt n k).dict = s.dict := rfl
@[simp] theorem State.setPkt_txn (s : State) (n : Nat) (k : Packet) : (s.setPkt n k).txn = s.txn := rfl
@[simp] theorem State.setPkt_migs (s : State) (n : Nat) (k : Packet) : (s.setPkt n k).migs = s.migs := rfl
@[simp] theorem State.setPkt_errs (s : State) (n : Nat) (k : Packet) : (s.setPkt n k).errs = s.errs := rfl
@[simp] theorem State.setPkt_defects (s : State) (n : Nat) (k : Packet) : (s.setPkt n k).defects = s.defects := rfl
@[simp] theorem State.setPkt_tiles (s : State) (n : Nat) (k : Packet) : (s.setPkt n k).tiles = s.tiles := rfl
@[simp] theorem State.setPkt_routers (s : State) (n : Nat) (k : Packet) : (s.setPkt n k).routers = s.routers := rfl
@[simp] theorem State.setPkt_nextPkt (s : State) (n : Nat) (k : Packet) : (s.setPkt n k).nextPkt = s.nextPkt := rfl
@[simp] theorem State.setPkt_dies (s : State) (n : Nat) (k : Packet) : (s.setPkt n k).dies = s.dies := rfl
@[simp] theorem State.setPkt_host (s : State) (n : Nat) (k : Packet) : (s.setPkt n k).host = s.host := rfl
@[simp] theorem State.setPkt_jobs (s : State) (n : Nat) (k : Packet) : (s.setPkt n k).jobs = s.jobs := rfl
@[simp] theorem State.setPkt_dumps (s : State) (n : Nat) (k : Packet) : (s.setPkt n k).dumps = s.dumps := rfl
@[simp] theorem State.setPkt_test (s : State) (n : Nat) (k : Packet) : (s.setPkt n k).test = s.test := rfl
@[simp] theorem State.setPkt_power (s : State) (n : Nat) (k : Packet) : (s.setPkt n k).power = s.power := rfl
@[simp] theorem State.setPkt_telemetry (s : State) (n : Nat) (k : Packet) : (s.setPkt n k).telemetry = s.telemetry := rfl

@[simp] theorem State.dropPkt_pending (s : State) (n : Nat) : (s.dropPkt n).pending = s.pending := rfl
@[simp] theorem State.dropPkt_now (s : State) (n : Nat) : (s.dropPkt n).now = s.now := rfl
@[simp] theorem State.dropPkt_slew (s : State) (n : Nat) : (s.dropPkt n).slew = s.slew := rfl
@[simp] theorem State.dropPkt_slewPhase (s : State) (n : Nat) : (s.dropPkt n).slewPhase = s.slewPhase := rfl
@[simp] theorem State.dropPkt_sluiceAt (s : State) (n : Nat) : (s.dropPkt n).sluiceAt = s.sluiceAt := rfl
@[simp] theorem State.dropPkt_free (s : State) (n : Nat) : (s.dropPkt n).free = s.free := rfl
@[simp] theorem State.dropPkt_fused (s : State) (n : Nat) : (s.dropPkt n).fused = s.fused := rfl
@[simp] theorem State.dropPkt_pins (s : State) (n : Nat) : (s.dropPkt n).pins = s.pins := rfl
@[simp] theorem State.dropPkt_boot (s : State) (n : Nat) : (s.dropPkt n).boot = s.boot := rfl
@[simp] theorem State.dropPkt_fw (s : State) (n : Nat) : (s.dropPkt n).fw = s.fw := rfl
@[simp] theorem State.dropPkt_dict (s : State) (n : Nat) : (s.dropPkt n).dict = s.dict := rfl
@[simp] theorem State.dropPkt_txn (s : State) (n : Nat) : (s.dropPkt n).txn = s.txn := rfl
@[simp] theorem State.dropPkt_migs (s : State) (n : Nat) : (s.dropPkt n).migs = s.migs := rfl
@[simp] theorem State.dropPkt_errs (s : State) (n : Nat) : (s.dropPkt n).errs = s.errs := rfl
@[simp] theorem State.dropPkt_defects (s : State) (n : Nat) : (s.dropPkt n).defects = s.defects := rfl
@[simp] theorem State.dropPkt_tiles (s : State) (n : Nat) : (s.dropPkt n).tiles = s.tiles := rfl
@[simp] theorem State.dropPkt_routers (s : State) (n : Nat) : (s.dropPkt n).routers = s.routers := rfl
@[simp] theorem State.dropPkt_nextPkt (s : State) (n : Nat) : (s.dropPkt n).nextPkt = s.nextPkt := rfl
@[simp] theorem State.dropPkt_dies (s : State) (n : Nat) : (s.dropPkt n).dies = s.dies := rfl
@[simp] theorem State.dropPkt_host (s : State) (n : Nat) : (s.dropPkt n).host = s.host := rfl
@[simp] theorem State.dropPkt_jobs (s : State) (n : Nat) : (s.dropPkt n).jobs = s.jobs := rfl
@[simp] theorem State.dropPkt_dumps (s : State) (n : Nat) : (s.dropPkt n).dumps = s.dumps := rfl
@[simp] theorem State.dropPkt_test (s : State) (n : Nat) : (s.dropPkt n).test = s.test := rfl
@[simp] theorem State.dropPkt_power (s : State) (n : Nat) : (s.dropPkt n).power = s.power := rfl
@[simp] theorem State.dropPkt_telemetry (s : State) (n : Nat) : (s.dropPkt n).telemetry = s.telemetry := rfl

@[simp] theorem State.newPkt_pending (s : State) (k : Packet) : (s.newPkt k).pending = s.pending := rfl
@[simp] theorem State.newPkt_now (s : State) (k : Packet) : (s.newPkt k).now = s.now := rfl
@[simp] theorem State.newPkt_slew (s : State) (k : Packet) : (s.newPkt k).slew = s.slew := rfl
@[simp] theorem State.newPkt_slewPhase (s : State) (k : Packet) : (s.newPkt k).slewPhase = s.slewPhase := rfl
@[simp] theorem State.newPkt_sluiceAt (s : State) (k : Packet) : (s.newPkt k).sluiceAt = s.sluiceAt := rfl
@[simp] theorem State.newPkt_free (s : State) (k : Packet) : (s.newPkt k).free = s.free := rfl
@[simp] theorem State.newPkt_fused (s : State) (k : Packet) : (s.newPkt k).fused = s.fused := rfl
@[simp] theorem State.newPkt_pins (s : State) (k : Packet) : (s.newPkt k).pins = s.pins := rfl
@[simp] theorem State.newPkt_boot (s : State) (k : Packet) : (s.newPkt k).boot = s.boot := rfl
@[simp] theorem State.newPkt_fw (s : State) (k : Packet) : (s.newPkt k).fw = s.fw := rfl
@[simp] theorem State.newPkt_dict (s : State) (k : Packet) : (s.newPkt k).dict = s.dict := rfl
@[simp] theorem State.newPkt_txn (s : State) (k : Packet) : (s.newPkt k).txn = s.txn := rfl
@[simp] theorem State.newPkt_migs (s : State) (k : Packet) : (s.newPkt k).migs = s.migs := rfl
@[simp] theorem State.newPkt_errs (s : State) (k : Packet) : (s.newPkt k).errs = s.errs := rfl
@[simp] theorem State.newPkt_defects (s : State) (k : Packet) : (s.newPkt k).defects = s.defects := rfl
@[simp] theorem State.newPkt_tiles (s : State) (k : Packet) : (s.newPkt k).tiles = s.tiles := rfl
@[simp] theorem State.newPkt_routers (s : State) (k : Packet) : (s.newPkt k).routers = s.routers := rfl
@[simp] theorem State.newPkt_dies (s : State) (k : Packet) : (s.newPkt k).dies = s.dies := rfl
@[simp] theorem State.newPkt_host (s : State) (k : Packet) : (s.newPkt k).host = s.host := rfl
@[simp] theorem State.newPkt_jobs (s : State) (k : Packet) : (s.newPkt k).jobs = s.jobs := rfl
@[simp] theorem State.newPkt_dumps (s : State) (k : Packet) : (s.newPkt k).dumps = s.dumps := rfl
@[simp] theorem State.newPkt_test (s : State) (k : Packet) : (s.newPkt k).test = s.test := rfl
@[simp] theorem State.newPkt_power (s : State) (k : Packet) : (s.newPkt k).power = s.power := rfl
@[simp] theorem State.newPkt_telemetry (s : State) (k : Packet) : (s.newPkt k).telemetry = s.telemetry := rfl

@[simp] theorem State.hostWrite_pending (s : State) (a : Nat) (bs : Bytes) : (s.hostWrite a bs).pending = s.pending := rfl
@[simp] theorem State.hostWrite_now (s : State) (a : Nat) (bs : Bytes) : (s.hostWrite a bs).now = s.now := rfl
@[simp] theorem State.hostWrite_slew (s : State) (a : Nat) (bs : Bytes) : (s.hostWrite a bs).slew = s.slew := rfl
@[simp] theorem State.hostWrite_slewPhase (s : State) (a : Nat) (bs : Bytes) : (s.hostWrite a bs).slewPhase = s.slewPhase := rfl
@[simp] theorem State.hostWrite_sluiceAt (s : State) (a : Nat) (bs : Bytes) : (s.hostWrite a bs).sluiceAt = s.sluiceAt := rfl
@[simp] theorem State.hostWrite_free (s : State) (a : Nat) (bs : Bytes) : (s.hostWrite a bs).free = s.free := rfl
@[simp] theorem State.hostWrite_fused (s : State) (a : Nat) (bs : Bytes) : (s.hostWrite a bs).fused = s.fused := rfl
@[simp] theorem State.hostWrite_pins (s : State) (a : Nat) (bs : Bytes) : (s.hostWrite a bs).pins = s.pins := rfl
@[simp] theorem State.hostWrite_boot (s : State) (a : Nat) (bs : Bytes) : (s.hostWrite a bs).boot = s.boot := rfl
@[simp] theorem State.hostWrite_fw (s : State) (a : Nat) (bs : Bytes) : (s.hostWrite a bs).fw = s.fw := rfl
@[simp] theorem State.hostWrite_dict (s : State) (a : Nat) (bs : Bytes) : (s.hostWrite a bs).dict = s.dict := rfl
@[simp] theorem State.hostWrite_txn (s : State) (a : Nat) (bs : Bytes) : (s.hostWrite a bs).txn = s.txn := rfl
@[simp] theorem State.hostWrite_migs (s : State) (a : Nat) (bs : Bytes) : (s.hostWrite a bs).migs = s.migs := rfl
@[simp] theorem State.hostWrite_errs (s : State) (a : Nat) (bs : Bytes) : (s.hostWrite a bs).errs = s.errs := rfl
@[simp] theorem State.hostWrite_defects (s : State) (a : Nat) (bs : Bytes) : (s.hostWrite a bs).defects = s.defects := rfl
@[simp] theorem State.hostWrite_tiles (s : State) (a : Nat) (bs : Bytes) : (s.hostWrite a bs).tiles = s.tiles := rfl
@[simp] theorem State.hostWrite_routers (s : State) (a : Nat) (bs : Bytes) : (s.hostWrite a bs).routers = s.routers := rfl
@[simp] theorem State.hostWrite_net (s : State) (a : Nat) (bs : Bytes) : (s.hostWrite a bs).net = s.net := rfl
@[simp] theorem State.hostWrite_nextPkt (s : State) (a : Nat) (bs : Bytes) : (s.hostWrite a bs).nextPkt = s.nextPkt := rfl
@[simp] theorem State.hostWrite_dies (s : State) (a : Nat) (bs : Bytes) : (s.hostWrite a bs).dies = s.dies := rfl
@[simp] theorem State.hostWrite_jobs (s : State) (a : Nat) (bs : Bytes) : (s.hostWrite a bs).jobs = s.jobs := rfl
@[simp] theorem State.hostWrite_dumps (s : State) (a : Nat) (bs : Bytes) : (s.hostWrite a bs).dumps = s.dumps := rfl
@[simp] theorem State.hostWrite_test (s : State) (a : Nat) (bs : Bytes) : (s.hostWrite a bs).test = s.test := rfl
@[simp] theorem State.hostWrite_power (s : State) (a : Nat) (bs : Bytes) : (s.hostWrite a bs).power = s.power := rfl
@[simp] theorem State.hostWrite_telemetry (s : State) (a : Nat) (bs : Bytes) : (s.hostWrite a bs).telemetry = s.telemetry := rfl

@[simp] theorem State.drew_pending (s : State) : (s.drew).pending = s.pending := rfl
@[simp] theorem State.drew_now (s : State) : (s.drew).now = s.now := rfl
@[simp] theorem State.drew_slew (s : State) : (s.drew).slew = s.slew := rfl
@[simp] theorem State.drew_slewPhase (s : State) : (s.drew).slewPhase = s.slewPhase := rfl
@[simp] theorem State.drew_sluiceAt (s : State) : (s.drew).sluiceAt = s.sluiceAt := rfl
@[simp] theorem State.drew_fused (s : State) : (s.drew).fused = s.fused := rfl
@[simp] theorem State.drew_pins (s : State) : (s.drew).pins = s.pins := rfl
@[simp] theorem State.drew_boot (s : State) : (s.drew).boot = s.boot := rfl
@[simp] theorem State.drew_fw (s : State) : (s.drew).fw = s.fw := rfl
@[simp] theorem State.drew_dict (s : State) : (s.drew).dict = s.dict := rfl
@[simp] theorem State.drew_txn (s : State) : (s.drew).txn = s.txn := rfl
@[simp] theorem State.drew_migs (s : State) : (s.drew).migs = s.migs := rfl
@[simp] theorem State.drew_errs (s : State) : (s.drew).errs = s.errs := rfl
@[simp] theorem State.drew_defects (s : State) : (s.drew).defects = s.defects := rfl
@[simp] theorem State.drew_tiles (s : State) : (s.drew).tiles = s.tiles := rfl
@[simp] theorem State.drew_routers (s : State) : (s.drew).routers = s.routers := rfl
@[simp] theorem State.drew_net (s : State) : (s.drew).net = s.net := rfl
@[simp] theorem State.drew_nextPkt (s : State) : (s.drew).nextPkt = s.nextPkt := rfl
@[simp] theorem State.drew_dies (s : State) : (s.drew).dies = s.dies := rfl
@[simp] theorem State.drew_host (s : State) : (s.drew).host = s.host := rfl
@[simp] theorem State.drew_jobs (s : State) : (s.drew).jobs = s.jobs := rfl
@[simp] theorem State.drew_dumps (s : State) : (s.drew).dumps = s.dumps := rfl
@[simp] theorem State.drew_test (s : State) : (s.drew).test = s.test := rfl
@[simp] theorem State.drew_power (s : State) : (s.drew).power = s.power := rfl
@[simp] theorem State.drew_telemetry (s : State) : (s.drew).telemetry = s.telemetry := rfl

@[simp] theorem State.alert_pending (s : State) (k : Nat) : (s.alert k).pending = s.pending := rfl
@[simp] theorem State.alert_now (s : State) (k : Nat) : (s.alert k).now = s.now := rfl
@[simp] theorem State.alert_slew (s : State) (k : Nat) : (s.alert k).slew = s.slew := rfl
@[simp] theorem State.alert_slewPhase (s : State) (k : Nat) : (s.alert k).slewPhase = s.slewPhase := rfl
@[simp] theorem State.alert_sluiceAt (s : State) (k : Nat) : (s.alert k).sluiceAt = s.sluiceAt := rfl
@[simp] theorem State.alert_free (s : State) (k : Nat) : (s.alert k).free = s.free := rfl
@[simp] theorem State.alert_fused (s : State) (k : Nat) : (s.alert k).fused = s.fused := rfl
@[simp] theorem State.alert_pins (s : State) (k : Nat) : (s.alert k).pins = s.pins := rfl
@[simp] theorem State.alert_boot (s : State) (k : Nat) : (s.alert k).boot = s.boot := rfl
@[simp] theorem State.alert_fw (s : State) (k : Nat) : (s.alert k).fw = s.fw := rfl
@[simp] theorem State.alert_txn (s : State) (k : Nat) : (s.alert k).txn = s.txn := rfl
@[simp] theorem State.alert_migs (s : State) (k : Nat) : (s.alert k).migs = s.migs := rfl
@[simp] theorem State.alert_errs (s : State) (k : Nat) : (s.alert k).errs = s.errs := rfl
@[simp] theorem State.alert_defects (s : State) (k : Nat) : (s.alert k).defects = s.defects := rfl
@[simp] theorem State.alert_tiles (s : State) (k : Nat) : (s.alert k).tiles = s.tiles := rfl
@[simp] theorem State.alert_routers (s : State) (k : Nat) : (s.alert k).routers = s.routers := rfl
@[simp] theorem State.alert_net (s : State) (k : Nat) : (s.alert k).net = s.net := rfl
@[simp] theorem State.alert_nextPkt (s : State) (k : Nat) : (s.alert k).nextPkt = s.nextPkt := rfl
@[simp] theorem State.alert_dies (s : State) (k : Nat) : (s.alert k).dies = s.dies := rfl
@[simp] theorem State.alert_host (s : State) (k : Nat) : (s.alert k).host = s.host := rfl
@[simp] theorem State.alert_jobs (s : State) (k : Nat) : (s.alert k).jobs = s.jobs := rfl
@[simp] theorem State.alert_dumps (s : State) (k : Nat) : (s.alert k).dumps = s.dumps := rfl
@[simp] theorem State.alert_test (s : State) (k : Nat) : (s.alert k).test = s.test := rfl
@[simp] theorem State.alert_power (s : State) (k : Nat) : (s.alert k).power = s.power := rfl
@[simp] theorem State.alert_telemetry (s : State) (k : Nat) : (s.alert k).telemetry = s.telemetry := rfl

/-! What each accessor reads after an update of something else. -/

@[simp] theorem State.putObe_tile (s : State) (key e v : Nat) (q : Nat) :
    (s.putObe key e v).tile q = s.tile q := rfl
@[simp] theorem State.putObe_router (s : State) (key e v : Nat) (q : Nat) :
    (s.putObe key e v).router q = s.router q := rfl
@[simp] theorem State.putObe_die (s : State) (key e v : Nat) (q : Nat) :
    (s.putObe key e v).die q = s.die q := rfl
@[simp] theorem State.putObe_job (s : State) (key e v : Nat) (q : Nat) :
    (s.putObe key e v).job q = s.job q := rfl
@[simp] theorem State.putObe_mig (s : State) (key e v : Nat) (q : Nat) :
    (s.putObe key e v).mig q = s.mig q := rfl
@[simp] theorem State.putObe_pkt (s : State) (key e v : Nat) (q : Nat) :
    (s.putObe key e v).pkt q = s.pkt q := rfl
@[simp] theorem State.putObe_hostByte (s : State) (key e v : Nat) (q : Nat) :
    (s.putObe key e v).hostByte q = s.hostByte q := rfl
@[simp] theorem State.putObe_stewardUp (s : State) (key e v : Nat) :
    (s.putObe key e v).stewardUp = s.stewardUp := rfl
@[simp] theorem State.putObe_variant (s : State) (key e v : Nat) :
    (s.putObe key e v).variant = s.variant := rfl

@[simp] theorem State.putOb_tile (s : State) (key v : Nat) (q : Nat) :
    (s.putOb key v).tile q = s.tile q := rfl
@[simp] theorem State.putOb_router (s : State) (key v : Nat) (q : Nat) :
    (s.putOb key v).router q = s.router q := rfl
@[simp] theorem State.putOb_die (s : State) (key v : Nat) (q : Nat) :
    (s.putOb key v).die q = s.die q := rfl
@[simp] theorem State.putOb_job (s : State) (key v : Nat) (q : Nat) :
    (s.putOb key v).job q = s.job q := rfl
@[simp] theorem State.putOb_mig (s : State) (key v : Nat) (q : Nat) :
    (s.putOb key v).mig q = s.mig q := rfl
@[simp] theorem State.putOb_pkt (s : State) (key v : Nat) (q : Nat) :
    (s.putOb key v).pkt q = s.pkt q := rfl
@[simp] theorem State.putOb_hostByte (s : State) (key v : Nat) (q : Nat) :
    (s.putOb key v).hostByte q = s.hostByte q := rfl
@[simp] theorem State.putOb_stewardUp (s : State) (key v : Nat) :
    (s.putOb key v).stewardUp = s.stewardUp := rfl
@[simp] theorem State.putOb_variant (s : State) (key v : Nat) :
    (s.putOb key v).variant = s.variant := rfl

@[simp] theorem State.addObe_tile (s : State) (key e n w : Nat) (q : Nat) :
    (s.addObe key e n w).tile q = s.tile q := rfl
@[simp] theorem State.addObe_router (s : State) (key e n w : Nat) (q : Nat) :
    (s.addObe key e n w).router q = s.router q := rfl
@[simp] theorem State.addObe_die (s : State) (key e n w : Nat) (q : Nat) :
    (s.addObe key e n w).die q = s.die q := rfl
@[simp] theorem State.addObe_job (s : State) (key e n w : Nat) (q : Nat) :
    (s.addObe key e n w).job q = s.job q := rfl
@[simp] theorem State.addObe_mig (s : State) (key e n w : Nat) (q : Nat) :
    (s.addObe key e n w).mig q = s.mig q := rfl
@[simp] theorem State.addObe_pkt (s : State) (key e n w : Nat) (q : Nat) :
    (s.addObe key e n w).pkt q = s.pkt q := rfl
@[simp] theorem State.addObe_hostByte (s : State) (key e n w : Nat) (q : Nat) :
    (s.addObe key e n w).hostByte q = s.hostByte q := rfl
@[simp] theorem State.addObe_stewardUp (s : State) (key e n w : Nat) :
    (s.addObe key e n w).stewardUp = s.stewardUp := rfl
@[simp] theorem State.addObe_variant (s : State) (key e n w : Nat) :
    (s.addObe key e n w).variant = s.variant := rfl

@[simp] theorem State.addRec_tile (s : State) (key e i n : Nat) (q : Nat) :
    (s.addRec key e i n).tile q = s.tile q := rfl
@[simp] theorem State.addRec_router (s : State) (key e i n : Nat) (q : Nat) :
    (s.addRec key e i n).router q = s.router q := rfl
@[simp] theorem State.addRec_die (s : State) (key e i n : Nat) (q : Nat) :
    (s.addRec key e i n).die q = s.die q := rfl
@[simp] theorem State.addRec_job (s : State) (key e i n : Nat) (q : Nat) :
    (s.addRec key e i n).job q = s.job q := rfl
@[simp] theorem State.addRec_mig (s : State) (key e i n : Nat) (q : Nat) :
    (s.addRec key e i n).mig q = s.mig q := rfl
@[simp] theorem State.addRec_pkt (s : State) (key e i n : Nat) (q : Nat) :
    (s.addRec key e i n).pkt q = s.pkt q := rfl
@[simp] theorem State.addRec_hostByte (s : State) (key e i n : Nat) (q : Nat) :
    (s.addRec key e i n).hostByte q = s.hostByte q := rfl
@[simp] theorem State.addRec_stewardUp (s : State) (key e i n : Nat) :
    (s.addRec key e i n).stewardUp = s.stewardUp := rfl
@[simp] theorem State.addRec_variant (s : State) (key e i n : Nat) :
    (s.addRec key e i n).variant = s.variant := rfl

@[simp] theorem State.setTile_obe (s : State) (p : Nat) (t : Tile) (key2 e2 : Nat) :
    (s.setTile p t).obe key2 e2 = s.obe key2 e2 := rfl
@[simp] theorem State.setTile_ob (s : State) (p : Nat) (t : Tile) (key2 : Nat) :
    (s.setTile p t).ob key2 = s.ob key2 := rfl
@[simp] theorem State.setTile_router (s : State) (p : Nat) (t : Tile) (q : Nat) :
    (s.setTile p t).router q = s.router q := rfl
@[simp] theorem State.setTile_die (s : State) (p : Nat) (t : Tile) (q : Nat) :
    (s.setTile p t).die q = s.die q := rfl
@[simp] theorem State.setTile_job (s : State) (p : Nat) (t : Tile) (q : Nat) :
    (s.setTile p t).job q = s.job q := rfl
@[simp] theorem State.setTile_mig (s : State) (p : Nat) (t : Tile) (q : Nat) :
    (s.setTile p t).mig q = s.mig q := rfl
@[simp] theorem State.setTile_pkt (s : State) (p : Nat) (t : Tile) (q : Nat) :
    (s.setTile p t).pkt q = s.pkt q := rfl
@[simp] theorem State.setTile_hostByte (s : State) (p : Nat) (t : Tile) (q : Nat) :
    (s.setTile p t).hostByte q = s.hostByte q := rfl
@[simp] theorem State.setTile_stewardUp (s : State) (p : Nat) (t : Tile) :
    (s.setTile p t).stewardUp = s.stewardUp := rfl
@[simp] theorem State.setTile_variant (s : State) (p : Nat) (t : Tile) :
    (s.setTile p t).variant = s.variant := rfl

@[simp] theorem State.modTile_obe (s : State) (p : Nat) (f : Tile → Tile) (key2 e2 : Nat) :
    (s.modTile p f).obe key2 e2 = s.obe key2 e2 := rfl
@[simp] theorem State.modTile_ob (s : State) (p : Nat) (f : Tile → Tile) (key2 : Nat) :
    (s.modTile p f).ob key2 = s.ob key2 := rfl
@[simp] theorem State.modTile_router (s : State) (p : Nat) (f : Tile → Tile) (q : Nat) :
    (s.modTile p f).router q = s.router q := rfl
@[simp] theorem State.modTile_die (s : State) (p : Nat) (f : Tile → Tile) (q : Nat) :
    (s.modTile p f).die q = s.die q := rfl
@[simp] theorem State.modTile_job (s : State) (p : Nat) (f : Tile → Tile) (q : Nat) :
    (s.modTile p f).job q = s.job q := rfl
@[simp] theorem State.modTile_mig (s : State) (p : Nat) (f : Tile → Tile) (q : Nat) :
    (s.modTile p f).mig q = s.mig q := rfl
@[simp] theorem State.modTile_pkt (s : State) (p : Nat) (f : Tile → Tile) (q : Nat) :
    (s.modTile p f).pkt q = s.pkt q := rfl
@[simp] theorem State.modTile_hostByte (s : State) (p : Nat) (f : Tile → Tile) (q : Nat) :
    (s.modTile p f).hostByte q = s.hostByte q := rfl
@[simp] theorem State.modTile_stewardUp (s : State) (p : Nat) (f : Tile → Tile) :
    (s.modTile p f).stewardUp = s.stewardUp := rfl
@[simp] theorem State.modTile_variant (s : State) (p : Nat) (f : Tile → Tile) :
    (s.modTile p f).variant = s.variant := rfl

@[simp] theorem State.modRouter_obe (s : State) (p : Nat) (f : Router → Router) (key2 e2 : Nat) :
    (s.modRouter p f).obe key2 e2 = s.obe key2 e2 := rfl
@[simp] theorem State.modRouter_ob (s : State) (p : Nat) (f : Router → Router) (key2 : Nat) :
    (s.modRouter p f).ob key2 = s.ob key2 := rfl
@[simp] theorem State.modRouter_tile (s : State) (p : Nat) (f : Router → Router) (q : Nat) :
    (s.modRouter p f).tile q = s.tile q := rfl
@[simp] theorem State.modRouter_die (s : State) (p : Nat) (f : Router → Router) (q : Nat) :
    (s.modRouter p f).die q = s.die q := rfl
@[simp] theorem State.modRouter_job (s : State) (p : Nat) (f : Router → Router) (q : Nat) :
    (s.modRouter p f).job q = s.job q := rfl
@[simp] theorem State.modRouter_mig (s : State) (p : Nat) (f : Router → Router) (q : Nat) :
    (s.modRouter p f).mig q = s.mig q := rfl
@[simp] theorem State.modRouter_pkt (s : State) (p : Nat) (f : Router → Router) (q : Nat) :
    (s.modRouter p f).pkt q = s.pkt q := rfl
@[simp] theorem State.modRouter_hostByte (s : State) (p : Nat) (f : Router → Router) (q : Nat) :
    (s.modRouter p f).hostByte q = s.hostByte q := rfl
@[simp] theorem State.modRouter_stewardUp (s : State) (p : Nat) (f : Router → Router) :
    (s.modRouter p f).stewardUp = s.stewardUp := rfl
@[simp] theorem State.modRouter_variant (s : State) (p : Nat) (f : Router → Router) :
    (s.modRouter p f).variant = s.variant := rfl

@[simp] theorem State.modDie_obe (s : State) (d : Nat) (f : DieState → DieState) (key2 e2 : Nat) :
    (s.modDie d f).obe key2 e2 = s.obe key2 e2 := rfl
@[simp] theorem State.modDie_ob (s : State) (d : Nat) (f : DieState → DieState) (key2 : Nat) :
    (s.modDie d f).ob key2 = s.ob key2 := rfl
@[simp] theorem State.modDie_tile (s : State) (d : Nat) (f : DieState → DieState) (q : Nat) :
    (s.modDie d f).tile q = s.tile q := rfl
@[simp] theorem State.modDie_router (s : State) (d : Nat) (f : DieState → DieState) (q : Nat) :
    (s.modDie d f).router q = s.router q := rfl
@[simp] theorem State.modDie_job (s : State) (d : Nat) (f : DieState → DieState) (q : Nat) :
    (s.modDie d f).job q = s.job q := rfl
@[simp] theorem State.modDie_mig (s : State) (d : Nat) (f : DieState → DieState) (q : Nat) :
    (s.modDie d f).mig q = s.mig q := rfl
@[simp] theorem State.modDie_pkt (s : State) (d : Nat) (f : DieState → DieState) (q : Nat) :
    (s.modDie d f).pkt q = s.pkt q := rfl
@[simp] theorem State.modDie_hostByte (s : State) (d : Nat) (f : DieState → DieState) (q : Nat) :
    (s.modDie d f).hostByte q = s.hostByte q := rfl
@[simp] theorem State.modDie_stewardUp (s : State) (d : Nat) (f : DieState → DieState) :
    (s.modDie d f).stewardUp = s.stewardUp := rfl
@[simp] theorem State.modDie_variant (s : State) (d : Nat) (f : DieState → DieState) :
    (s.modDie d f).variant = s.variant := rfl

@[simp] theorem State.modJob_obe (s : State) (g : Nat) (f : JobSt → JobSt) (key2 e2 : Nat) :
    (s.modJob g f).obe key2 e2 = s.obe key2 e2 := rfl
@[simp] theorem State.modJob_ob (s : State) (g : Nat) (f : JobSt → JobSt) (key2 : Nat) :
    (s.modJob g f).ob key2 = s.ob key2 := rfl
@[simp] theorem State.modJob_tile (s : State) (g : Nat) (f : JobSt → JobSt) (q : Nat) :
    (s.modJob g f).tile q = s.tile q := rfl
@[simp] theorem State.modJob_router (s : State) (g : Nat) (f : JobSt → JobSt) (q : Nat) :
    (s.modJob g f).router q = s.router q := rfl
@[simp] theorem State.modJob_die (s : State) (g : Nat) (f : JobSt → JobSt) (q : Nat) :
    (s.modJob g f).die q = s.die q := rfl
@[simp] theorem State.modJob_mig (s : State) (g : Nat) (f : JobSt → JobSt) (q : Nat) :
    (s.modJob g f).mig q = s.mig q := rfl
@[simp] theorem State.modJob_pkt (s : State) (g : Nat) (f : JobSt → JobSt) (q : Nat) :
    (s.modJob g f).pkt q = s.pkt q := rfl
@[simp] theorem State.modJob_hostByte (s : State) (g : Nat) (f : JobSt → JobSt) (q : Nat) :
    (s.modJob g f).hostByte q = s.hostByte q := rfl
@[simp] theorem State.modJob_stewardUp (s : State) (g : Nat) (f : JobSt → JobSt) :
    (s.modJob g f).stewardUp = s.stewardUp := rfl
@[simp] theorem State.modJob_variant (s : State) (g : Nat) (f : JobSt → JobSt) :
    (s.modJob g f).variant = s.variant := rfl

@[simp] theorem State.modMig_obe (s : State) (m : Nat) (f : Migration → Migration) (key2 e2 : Nat) :
    (s.modMig m f).obe key2 e2 = s.obe key2 e2 := rfl
@[simp] theorem State.modMig_ob (s : State) (m : Nat) (f : Migration → Migration) (key2 : Nat) :
    (s.modMig m f).ob key2 = s.ob key2 := rfl
@[simp] theorem State.modMig_tile (s : State) (m : Nat) (f : Migration → Migration) (q : Nat) :
    (s.modMig m f).tile q = s.tile q := rfl
@[simp] theorem State.modMig_router (s : State) (m : Nat) (f : Migration → Migration) (q : Nat) :
    (s.modMig m f).router q = s.router q := rfl
@[simp] theorem State.modMig_die (s : State) (m : Nat) (f : Migration → Migration) (q : Nat) :
    (s.modMig m f).die q = s.die q := rfl
@[simp] theorem State.modMig_job (s : State) (m : Nat) (f : Migration → Migration) (q : Nat) :
    (s.modMig m f).job q = s.job q := rfl
@[simp] theorem State.modMig_pkt (s : State) (m : Nat) (f : Migration → Migration) (q : Nat) :
    (s.modMig m f).pkt q = s.pkt q := rfl
@[simp] theorem State.modMig_hostByte (s : State) (m : Nat) (f : Migration → Migration) (q : Nat) :
    (s.modMig m f).hostByte q = s.hostByte q := rfl
@[simp] theorem State.modMig_stewardUp (s : State) (m : Nat) (f : Migration → Migration) :
    (s.modMig m f).stewardUp = s.stewardUp := rfl
@[simp] theorem State.modMig_variant (s : State) (m : Nat) (f : Migration → Migration) :
    (s.modMig m f).variant = s.variant := rfl

@[simp] theorem State.setPkt_obe (s : State) (n : Nat) (k : Packet) (key2 e2 : Nat) :
    (s.setPkt n k).obe key2 e2 = s.obe key2 e2 := rfl
@[simp] theorem State.setPkt_ob (s : State) (n : Nat) (k : Packet) (key2 : Nat) :
    (s.setPkt n k).ob key2 = s.ob key2 := rfl
@[simp] theorem State.setPkt_tile (s : State) (n : Nat) (k : Packet) (q : Nat) :
    (s.setPkt n k).tile q = s.tile q := rfl
@[simp] theorem State.setPkt_router (s : State) (n : Nat) (k : Packet) (q : Nat) :
    (s.setPkt n k).router q = s.router q := rfl
@[simp] theorem State.setPkt_die (s : State) (n : Nat) (k : Packet) (q : Nat) :
    (s.setPkt n k).die q = s.die q := rfl
@[simp] theorem State.setPkt_job (s : State) (n : Nat) (k : Packet) (q : Nat) :
    (s.setPkt n k).job q = s.job q := rfl
@[simp] theorem State.setPkt_mig (s : State) (n : Nat) (k : Packet) (q : Nat) :
    (s.setPkt n k).mig q = s.mig q := rfl
@[simp] theorem State.setPkt_hostByte (s : State) (n : Nat) (k : Packet) (q : Nat) :
    (s.setPkt n k).hostByte q = s.hostByte q := rfl
@[simp] theorem State.setPkt_stewardUp (s : State) (n : Nat) (k : Packet) :
    (s.setPkt n k).stewardUp = s.stewardUp := rfl
@[simp] theorem State.setPkt_variant (s : State) (n : Nat) (k : Packet) :
    (s.setPkt n k).variant = s.variant := rfl

@[simp] theorem State.dropPkt_obe (s : State) (n : Nat) (key2 e2 : Nat) :
    (s.dropPkt n).obe key2 e2 = s.obe key2 e2 := rfl
@[simp] theorem State.dropPkt_ob (s : State) (n : Nat) (key2 : Nat) :
    (s.dropPkt n).ob key2 = s.ob key2 := rfl
@[simp] theorem State.dropPkt_tile (s : State) (n : Nat) (q : Nat) :
    (s.dropPkt n).tile q = s.tile q := rfl
@[simp] theorem State.dropPkt_router (s : State) (n : Nat) (q : Nat) :
    (s.dropPkt n).router q = s.router q := rfl
@[simp] theorem State.dropPkt_die (s : State) (n : Nat) (q : Nat) :
    (s.dropPkt n).die q = s.die q := rfl
@[simp] theorem State.dropPkt_job (s : State) (n : Nat) (q : Nat) :
    (s.dropPkt n).job q = s.job q := rfl
@[simp] theorem State.dropPkt_mig (s : State) (n : Nat) (q : Nat) :
    (s.dropPkt n).mig q = s.mig q := rfl
@[simp] theorem State.dropPkt_hostByte (s : State) (n : Nat) (q : Nat) :
    (s.dropPkt n).hostByte q = s.hostByte q := rfl
@[simp] theorem State.dropPkt_stewardUp (s : State) (n : Nat) :
    (s.dropPkt n).stewardUp = s.stewardUp := rfl
@[simp] theorem State.dropPkt_variant (s : State) (n : Nat) :
    (s.dropPkt n).variant = s.variant := rfl

@[simp] theorem State.newPkt_obe (s : State) (k : Packet) (key2 e2 : Nat) :
    (s.newPkt k).obe key2 e2 = s.obe key2 e2 := rfl
@[simp] theorem State.newPkt_ob (s : State) (k : Packet) (key2 : Nat) :
    (s.newPkt k).ob key2 = s.ob key2 := rfl
@[simp] theorem State.newPkt_tile (s : State) (k : Packet) (q : Nat) :
    (s.newPkt k).tile q = s.tile q := rfl
@[simp] theorem State.newPkt_router (s : State) (k : Packet) (q : Nat) :
    (s.newPkt k).router q = s.router q := rfl
@[simp] theorem State.newPkt_die (s : State) (k : Packet) (q : Nat) :
    (s.newPkt k).die q = s.die q := rfl
@[simp] theorem State.newPkt_job (s : State) (k : Packet) (q : Nat) :
    (s.newPkt k).job q = s.job q := rfl
@[simp] theorem State.newPkt_mig (s : State) (k : Packet) (q : Nat) :
    (s.newPkt k).mig q = s.mig q := rfl
@[simp] theorem State.newPkt_hostByte (s : State) (k : Packet) (q : Nat) :
    (s.newPkt k).hostByte q = s.hostByte q := rfl
@[simp] theorem State.newPkt_stewardUp (s : State) (k : Packet) :
    (s.newPkt k).stewardUp = s.stewardUp := rfl
@[simp] theorem State.newPkt_variant (s : State) (k : Packet) :
    (s.newPkt k).variant = s.variant := rfl

@[simp] theorem State.hostWrite_obe (s : State) (a : Nat) (bs : Bytes) (key2 e2 : Nat) :
    (s.hostWrite a bs).obe key2 e2 = s.obe key2 e2 := rfl
@[simp] theorem State.hostWrite_ob (s : State) (a : Nat) (bs : Bytes) (key2 : Nat) :
    (s.hostWrite a bs).ob key2 = s.ob key2 := rfl
@[simp] theorem State.hostWrite_tile (s : State) (a : Nat) (bs : Bytes) (q : Nat) :
    (s.hostWrite a bs).tile q = s.tile q := rfl
@[simp] theorem State.hostWrite_router (s : State) (a : Nat) (bs : Bytes) (q : Nat) :
    (s.hostWrite a bs).router q = s.router q := rfl
@[simp] theorem State.hostWrite_die (s : State) (a : Nat) (bs : Bytes) (q : Nat) :
    (s.hostWrite a bs).die q = s.die q := rfl
@[simp] theorem State.hostWrite_job (s : State) (a : Nat) (bs : Bytes) (q : Nat) :
    (s.hostWrite a bs).job q = s.job q := rfl
@[simp] theorem State.hostWrite_mig (s : State) (a : Nat) (bs : Bytes) (q : Nat) :
    (s.hostWrite a bs).mig q = s.mig q := rfl
@[simp] theorem State.hostWrite_pkt (s : State) (a : Nat) (bs : Bytes) (q : Nat) :
    (s.hostWrite a bs).pkt q = s.pkt q := rfl
@[simp] theorem State.hostWrite_stewardUp (s : State) (a : Nat) (bs : Bytes) :
    (s.hostWrite a bs).stewardUp = s.stewardUp := rfl
@[simp] theorem State.hostWrite_variant (s : State) (a : Nat) (bs : Bytes) :
    (s.hostWrite a bs).variant = s.variant := rfl

@[simp] theorem State.drew_obe (s : State) (key2 e2 : Nat) :
    (s.drew).obe key2 e2 = s.obe key2 e2 := rfl
@[simp] theorem State.drew_ob (s : State) (key2 : Nat) :
    (s.drew).ob key2 = s.ob key2 := rfl
@[simp] theorem State.drew_tile (s : State) (q : Nat) :
    (s.drew).tile q = s.tile q := rfl
@[simp] theorem State.drew_router (s : State) (q : Nat) :
    (s.drew).router q = s.router q := rfl
@[simp] theorem State.drew_die (s : State) (q : Nat) :
    (s.drew).die q = s.die q := rfl
@[simp] theorem State.drew_job (s : State) (q : Nat) :
    (s.drew).job q = s.job q := rfl
@[simp] theorem State.drew_mig (s : State) (q : Nat) :
    (s.drew).mig q = s.mig q := rfl
@[simp] theorem State.drew_pkt (s : State) (q : Nat) :
    (s.drew).pkt q = s.pkt q := rfl
@[simp] theorem State.drew_hostByte (s : State) (q : Nat) :
    (s.drew).hostByte q = s.hostByte q := rfl
@[simp] theorem State.drew_stewardUp (s : State) :
    (s.drew).stewardUp = s.stewardUp := rfl
@[simp] theorem State.drew_variant (s : State) :
    (s.drew).variant = s.variant := rfl

@[simp] theorem State.alert_tile (s : State) (k : Nat) (q : Nat) :
    (s.alert k).tile q = s.tile q := rfl
@[simp] theorem State.alert_router (s : State) (k : Nat) (q : Nat) :
    (s.alert k).router q = s.router q := rfl
@[simp] theorem State.alert_die (s : State) (k : Nat) (q : Nat) :
    (s.alert k).die q = s.die q := rfl
@[simp] theorem State.alert_job (s : State) (k : Nat) (q : Nat) :
    (s.alert k).job q = s.job q := rfl
@[simp] theorem State.alert_mig (s : State) (k : Nat) (q : Nat) :
    (s.alert k).mig q = s.mig q := rfl
@[simp] theorem State.alert_pkt (s : State) (k : Nat) (q : Nat) :
    (s.alert k).pkt q = s.pkt q := rfl
@[simp] theorem State.alert_hostByte (s : State) (k : Nat) (q : Nat) :
    (s.alert k).hostByte q = s.hostByte q := rfl
@[simp] theorem State.alert_stewardUp (s : State) (k : Nat) :
    (s.alert k).stewardUp = s.stewardUp := rfl
@[simp] theorem State.alert_variant (s : State) (k : Nat) :
    (s.alert k).variant = s.variant := rfl

/-! Error reports touch the queue of reports, the dictionary and the count of free values. -/

@[simp] theorem State.raiseFor_now (s : State) (job step : Nat) (r : Report) : (s.raiseFor job step r).now = s.now := by
  unfold State.raiseFor; dsimp only; split <;> split <;> rfl
@[simp] theorem State.raiseFor_slew (s : State) (job step : Nat) (r : Report) : (s.raiseFor job step r).slew = s.slew := by
  unfold State.raiseFor; dsimp only; split <;> split <;> rfl
@[simp] theorem State.raiseFor_slewPhase (s : State) (job step : Nat) (r : Report) : (s.raiseFor job step r).slewPhase = s.slewPhase := by
  unfold State.raiseFor; dsimp only; split <;> split <;> rfl
@[simp] theorem State.raiseFor_sluiceAt (s : State) (job step : Nat) (r : Report) : (s.raiseFor job step r).sluiceAt = s.sluiceAt := by
  unfold State.raiseFor; dsimp only; split <;> split <;> rfl
@[simp] theorem State.raiseFor_pins (s : State) (job step : Nat) (r : Report) : (s.raiseFor job step r).pins = s.pins := by
  unfold State.raiseFor; dsimp only; split <;> split <;> rfl
@[simp] theorem State.raiseFor_boot (s : State) (job step : Nat) (r : Report) : (s.raiseFor job step r).boot = s.boot := by
  unfold State.raiseFor; dsimp only; split <;> split <;> rfl
@[simp] theorem State.raiseFor_fw (s : State) (job step : Nat) (r : Report) : (s.raiseFor job step r).fw = s.fw := by
  unfold State.raiseFor; dsimp only; split <;> split <;> rfl
@[simp] theorem State.raiseFor_txn (s : State) (job step : Nat) (r : Report) : (s.raiseFor job step r).txn = s.txn := by
  unfold State.raiseFor; dsimp only; split <;> split <;> rfl
@[simp] theorem State.raiseFor_migs (s : State) (job step : Nat) (r : Report) : (s.raiseFor job step r).migs = s.migs := by
  unfold State.raiseFor; dsimp only; split <;> split <;> rfl
@[simp] theorem State.raiseFor_defects (s : State) (job step : Nat) (r : Report) : (s.raiseFor job step r).defects = s.defects := by
  unfold State.raiseFor; dsimp only; split <;> split <;> rfl
@[simp] theorem State.raiseFor_tiles (s : State) (job step : Nat) (r : Report) : (s.raiseFor job step r).tiles = s.tiles := by
  unfold State.raiseFor; dsimp only; split <;> split <;> rfl
@[simp] theorem State.raiseFor_routers (s : State) (job step : Nat) (r : Report) : (s.raiseFor job step r).routers = s.routers := by
  unfold State.raiseFor; dsimp only; split <;> split <;> rfl
@[simp] theorem State.raiseFor_net (s : State) (job step : Nat) (r : Report) : (s.raiseFor job step r).net = s.net := by
  unfold State.raiseFor; dsimp only; split <;> split <;> rfl
@[simp] theorem State.raiseFor_nextPkt (s : State) (job step : Nat) (r : Report) : (s.raiseFor job step r).nextPkt = s.nextPkt := by
  unfold State.raiseFor; dsimp only; split <;> split <;> rfl
@[simp] theorem State.raiseFor_dies (s : State) (job step : Nat) (r : Report) : (s.raiseFor job step r).dies = s.dies := by
  unfold State.raiseFor; dsimp only; split <;> split <;> rfl
@[simp] theorem State.raiseFor_host (s : State) (job step : Nat) (r : Report) : (s.raiseFor job step r).host = s.host := by
  unfold State.raiseFor; dsimp only; split <;> split <;> rfl
@[simp] theorem State.raiseFor_jobs (s : State) (job step : Nat) (r : Report) : (s.raiseFor job step r).jobs = s.jobs := by
  unfold State.raiseFor; dsimp only; split <;> split <;> rfl
@[simp] theorem State.raiseFor_dumps (s : State) (job step : Nat) (r : Report) : (s.raiseFor job step r).dumps = s.dumps := by
  unfold State.raiseFor; dsimp only; split <;> split <;> rfl
@[simp] theorem State.raiseFor_test (s : State) (job step : Nat) (r : Report) : (s.raiseFor job step r).test = s.test := by
  unfold State.raiseFor; dsimp only; split <;> split <;> rfl
@[simp] theorem State.raiseFor_power (s : State) (job step : Nat) (r : Report) : (s.raiseFor job step r).power = s.power := by
  unfold State.raiseFor; dsimp only; split <;> split <;> rfl
@[simp] theorem State.raiseFor_telemetry (s : State) (job step : Nat) (r : Report) : (s.raiseFor job step r).telemetry = s.telemetry := by
  unfold State.raiseFor; dsimp only; split <;> split <;> rfl
@[simp] theorem State.raiseFor_tile (s : State) (job step : Nat) (r : Report) (q : Nat) :
    (s.raiseFor job step r).tile q = s.tile q := by simp [State.tile]
@[simp] theorem State.raiseFor_router (s : State) (job step : Nat) (r : Report) (q : Nat) :
    (s.raiseFor job step r).router q = s.router q := by simp [State.router]
@[simp] theorem State.raiseFor_die (s : State) (job step : Nat) (r : Report) (q : Nat) :
    (s.raiseFor job step r).die q = s.die q := by simp [State.die]
@[simp] theorem State.raiseFor_job (s : State) (job step : Nat) (r : Report) (q : Nat) :
    (s.raiseFor job step r).job q = s.job q := by simp [State.job]
@[simp] theorem State.raiseFor_mig (s : State) (job step : Nat) (r : Report) (q : Nat) :
    (s.raiseFor job step r).mig q = s.mig q := by simp [State.mig]
@[simp] theorem State.raiseFor_pkt (s : State) (job step : Nat) (r : Report) (q : Nat) :
    (s.raiseFor job step r).pkt q = s.pkt q := by simp [State.pkt]
@[simp] theorem State.raiseFor_hostByte (s : State) (job step : Nat) (r : Report) (q : Nat) :
    (s.raiseFor job step r).hostByte q = s.hostByte q := by simp [State.hostByte]
@[simp] theorem State.raiseFor_stewardUp (s : State) (job step : Nat) (r : Report) :
    (s.raiseFor job step r).stewardUp = s.stewardUp := by simp [State.stewardUp]

@[simp] theorem State.raise_now (s : State) (r : Report) : (s.raise r).now = s.now := by
  unfold State.raise; split <;> exact State.raiseFor_now _ _ _ _
@[simp] theorem State.raise_slew (s : State) (r : Report) : (s.raise r).slew = s.slew := by
  unfold State.raise; split <;> exact State.raiseFor_slew _ _ _ _
@[simp] theorem State.raise_slewPhase (s : State) (r : Report) : (s.raise r).slewPhase = s.slewPhase := by
  unfold State.raise; split <;> exact State.raiseFor_slewPhase _ _ _ _
@[simp] theorem State.raise_sluiceAt (s : State) (r : Report) : (s.raise r).sluiceAt = s.sluiceAt := by
  unfold State.raise; split <;> exact State.raiseFor_sluiceAt _ _ _ _
@[simp] theorem State.raise_pins (s : State) (r : Report) : (s.raise r).pins = s.pins := by
  unfold State.raise; split <;> exact State.raiseFor_pins _ _ _ _
@[simp] theorem State.raise_boot (s : State) (r : Report) : (s.raise r).boot = s.boot := by
  unfold State.raise; split <;> exact State.raiseFor_boot _ _ _ _
@[simp] theorem State.raise_fw (s : State) (r : Report) : (s.raise r).fw = s.fw := by
  unfold State.raise; split <;> exact State.raiseFor_fw _ _ _ _
@[simp] theorem State.raise_txn (s : State) (r : Report) : (s.raise r).txn = s.txn := by
  unfold State.raise; split <;> exact State.raiseFor_txn _ _ _ _
@[simp] theorem State.raise_migs (s : State) (r : Report) : (s.raise r).migs = s.migs := by
  unfold State.raise; split <;> exact State.raiseFor_migs _ _ _ _
@[simp] theorem State.raise_defects (s : State) (r : Report) : (s.raise r).defects = s.defects := by
  unfold State.raise; split <;> exact State.raiseFor_defects _ _ _ _
@[simp] theorem State.raise_tiles (s : State) (r : Report) : (s.raise r).tiles = s.tiles := by
  unfold State.raise; split <;> exact State.raiseFor_tiles _ _ _ _
@[simp] theorem State.raise_routers (s : State) (r : Report) : (s.raise r).routers = s.routers := by
  unfold State.raise; split <;> exact State.raiseFor_routers _ _ _ _
@[simp] theorem State.raise_net (s : State) (r : Report) : (s.raise r).net = s.net := by
  unfold State.raise; split <;> exact State.raiseFor_net _ _ _ _
@[simp] theorem State.raise_nextPkt (s : State) (r : Report) : (s.raise r).nextPkt = s.nextPkt := by
  unfold State.raise; split <;> exact State.raiseFor_nextPkt _ _ _ _
@[simp] theorem State.raise_dies (s : State) (r : Report) : (s.raise r).dies = s.dies := by
  unfold State.raise; split <;> exact State.raiseFor_dies _ _ _ _
@[simp] theorem State.raise_host (s : State) (r : Report) : (s.raise r).host = s.host := by
  unfold State.raise; split <;> exact State.raiseFor_host _ _ _ _
@[simp] theorem State.raise_jobs (s : State) (r : Report) : (s.raise r).jobs = s.jobs := by
  unfold State.raise; split <;> exact State.raiseFor_jobs _ _ _ _
@[simp] theorem State.raise_dumps (s : State) (r : Report) : (s.raise r).dumps = s.dumps := by
  unfold State.raise; split <;> exact State.raiseFor_dumps _ _ _ _
@[simp] theorem State.raise_test (s : State) (r : Report) : (s.raise r).test = s.test := by
  unfold State.raise; split <;> exact State.raiseFor_test _ _ _ _
@[simp] theorem State.raise_power (s : State) (r : Report) : (s.raise r).power = s.power := by
  unfold State.raise; split <;> exact State.raiseFor_power _ _ _ _
@[simp] theorem State.raise_telemetry (s : State) (r : Report) : (s.raise r).telemetry = s.telemetry := by
  unfold State.raise; split <;> exact State.raiseFor_telemetry _ _ _ _
@[simp] theorem State.raise_tile (s : State) (r : Report) (q : Nat) :
    (s.raise r).tile q = s.tile q := by simp [State.tile]
@[simp] theorem State.raise_router (s : State) (r : Report) (q : Nat) :
    (s.raise r).router q = s.router q := by simp [State.router]
@[simp] theorem State.raise_die (s : State) (r : Report) (q : Nat) :
    (s.raise r).die q = s.die q := by simp [State.die]
@[simp] theorem State.raise_job (s : State) (r : Report) (q : Nat) :
    (s.raise r).job q = s.job q := by simp [State.job]
@[simp] theorem State.raise_mig (s : State) (r : Report) (q : Nat) :
    (s.raise r).mig q = s.mig q := by simp [State.mig]
@[simp] theorem State.raise_pkt (s : State) (r : Report) (q : Nat) :
    (s.raise r).pkt q = s.pkt q := by simp [State.pkt]
@[simp] theorem State.raise_hostByte (s : State) (r : Report) (q : Nat) :
    (s.raise r).hostByte q = s.hostByte q := by simp [State.hostByte]
@[simp] theorem State.raise_stewardUp (s : State) (r : Report) :
    (s.raise r).stewardUp = s.stewardUp := by simp [State.stewardUp]

@[simp] theorem State.raiseTile_now (s : State) (p kind detail : Nat) : (s.raiseTile p kind detail).now = s.now := State.raise_now _ _
@[simp] theorem State.raiseTile_slew (s : State) (p kind detail : Nat) : (s.raiseTile p kind detail).slew = s.slew := State.raise_slew _ _
@[simp] theorem State.raiseTile_slewPhase (s : State) (p kind detail : Nat) : (s.raiseTile p kind detail).slewPhase = s.slewPhase := State.raise_slewPhase _ _
@[simp] theorem State.raiseTile_sluiceAt (s : State) (p kind detail : Nat) : (s.raiseTile p kind detail).sluiceAt = s.sluiceAt := State.raise_sluiceAt _ _
@[simp] theorem State.raiseTile_pins (s : State) (p kind detail : Nat) : (s.raiseTile p kind detail).pins = s.pins := State.raise_pins _ _
@[simp] theorem State.raiseTile_boot (s : State) (p kind detail : Nat) : (s.raiseTile p kind detail).boot = s.boot := State.raise_boot _ _
@[simp] theorem State.raiseTile_fw (s : State) (p kind detail : Nat) : (s.raiseTile p kind detail).fw = s.fw := State.raise_fw _ _
@[simp] theorem State.raiseTile_txn (s : State) (p kind detail : Nat) : (s.raiseTile p kind detail).txn = s.txn := State.raise_txn _ _
@[simp] theorem State.raiseTile_migs (s : State) (p kind detail : Nat) : (s.raiseTile p kind detail).migs = s.migs := State.raise_migs _ _
@[simp] theorem State.raiseTile_defects (s : State) (p kind detail : Nat) : (s.raiseTile p kind detail).defects = s.defects := State.raise_defects _ _
@[simp] theorem State.raiseTile_tiles (s : State) (p kind detail : Nat) : (s.raiseTile p kind detail).tiles = s.tiles := State.raise_tiles _ _
@[simp] theorem State.raiseTile_routers (s : State) (p kind detail : Nat) : (s.raiseTile p kind detail).routers = s.routers := State.raise_routers _ _
@[simp] theorem State.raiseTile_net (s : State) (p kind detail : Nat) : (s.raiseTile p kind detail).net = s.net := State.raise_net _ _
@[simp] theorem State.raiseTile_nextPkt (s : State) (p kind detail : Nat) : (s.raiseTile p kind detail).nextPkt = s.nextPkt := State.raise_nextPkt _ _
@[simp] theorem State.raiseTile_dies (s : State) (p kind detail : Nat) : (s.raiseTile p kind detail).dies = s.dies := State.raise_dies _ _
@[simp] theorem State.raiseTile_host (s : State) (p kind detail : Nat) : (s.raiseTile p kind detail).host = s.host := State.raise_host _ _
@[simp] theorem State.raiseTile_jobs (s : State) (p kind detail : Nat) : (s.raiseTile p kind detail).jobs = s.jobs := State.raise_jobs _ _
@[simp] theorem State.raiseTile_dumps (s : State) (p kind detail : Nat) : (s.raiseTile p kind detail).dumps = s.dumps := State.raise_dumps _ _
@[simp] theorem State.raiseTile_test (s : State) (p kind detail : Nat) : (s.raiseTile p kind detail).test = s.test := State.raise_test _ _
@[simp] theorem State.raiseTile_power (s : State) (p kind detail : Nat) : (s.raiseTile p kind detail).power = s.power := State.raise_power _ _
@[simp] theorem State.raiseTile_telemetry (s : State) (p kind detail : Nat) : (s.raiseTile p kind detail).telemetry = s.telemetry := State.raise_telemetry _ _
@[simp] theorem State.raiseTile_tile (s : State) (p kind detail : Nat) (q : Nat) :
    (s.raiseTile p kind detail).tile q = s.tile q := by simp [State.tile]
@[simp] theorem State.raiseTile_router (s : State) (p kind detail : Nat) (q : Nat) :
    (s.raiseTile p kind detail).router q = s.router q := by simp [State.router]
@[simp] theorem State.raiseTile_die (s : State) (p kind detail : Nat) (q : Nat) :
    (s.raiseTile p kind detail).die q = s.die q := by simp [State.die]
@[simp] theorem State.raiseTile_job (s : State) (p kind detail : Nat) (q : Nat) :
    (s.raiseTile p kind detail).job q = s.job q := by simp [State.job]
@[simp] theorem State.raiseTile_mig (s : State) (p kind detail : Nat) (q : Nat) :
    (s.raiseTile p kind detail).mig q = s.mig q := by simp [State.mig]
@[simp] theorem State.raiseTile_pkt (s : State) (p kind detail : Nat) (q : Nat) :
    (s.raiseTile p kind detail).pkt q = s.pkt q := by simp [State.pkt]
@[simp] theorem State.raiseTile_hostByte (s : State) (p kind detail : Nat) (q : Nat) :
    (s.raiseTile p kind detail).hostByte q = s.hostByte q := by simp [State.hostByte]
@[simp] theorem State.raiseTile_stewardUp (s : State) (p kind detail : Nat) :
    (s.raiseTile p kind detail).stewardUp = s.stewardUp := by simp [State.stewardUp]

@[simp] theorem State.raiseDie_now (s : State) (d kind detail : Nat) : (s.raiseDie d kind detail).now = s.now := State.raise_now _ _
@[simp] theorem State.raiseDie_slew (s : State) (d kind detail : Nat) : (s.raiseDie d kind detail).slew = s.slew := State.raise_slew _ _
@[simp] theorem State.raiseDie_slewPhase (s : State) (d kind detail : Nat) : (s.raiseDie d kind detail).slewPhase = s.slewPhase := State.raise_slewPhase _ _
@[simp] theorem State.raiseDie_sluiceAt (s : State) (d kind detail : Nat) : (s.raiseDie d kind detail).sluiceAt = s.sluiceAt := State.raise_sluiceAt _ _
@[simp] theorem State.raiseDie_pins (s : State) (d kind detail : Nat) : (s.raiseDie d kind detail).pins = s.pins := State.raise_pins _ _
@[simp] theorem State.raiseDie_boot (s : State) (d kind detail : Nat) : (s.raiseDie d kind detail).boot = s.boot := State.raise_boot _ _
@[simp] theorem State.raiseDie_fw (s : State) (d kind detail : Nat) : (s.raiseDie d kind detail).fw = s.fw := State.raise_fw _ _
@[simp] theorem State.raiseDie_txn (s : State) (d kind detail : Nat) : (s.raiseDie d kind detail).txn = s.txn := State.raise_txn _ _
@[simp] theorem State.raiseDie_migs (s : State) (d kind detail : Nat) : (s.raiseDie d kind detail).migs = s.migs := State.raise_migs _ _
@[simp] theorem State.raiseDie_defects (s : State) (d kind detail : Nat) : (s.raiseDie d kind detail).defects = s.defects := State.raise_defects _ _
@[simp] theorem State.raiseDie_tiles (s : State) (d kind detail : Nat) : (s.raiseDie d kind detail).tiles = s.tiles := State.raise_tiles _ _
@[simp] theorem State.raiseDie_routers (s : State) (d kind detail : Nat) : (s.raiseDie d kind detail).routers = s.routers := State.raise_routers _ _
@[simp] theorem State.raiseDie_net (s : State) (d kind detail : Nat) : (s.raiseDie d kind detail).net = s.net := State.raise_net _ _
@[simp] theorem State.raiseDie_nextPkt (s : State) (d kind detail : Nat) : (s.raiseDie d kind detail).nextPkt = s.nextPkt := State.raise_nextPkt _ _
@[simp] theorem State.raiseDie_dies (s : State) (d kind detail : Nat) : (s.raiseDie d kind detail).dies = s.dies := State.raise_dies _ _
@[simp] theorem State.raiseDie_host (s : State) (d kind detail : Nat) : (s.raiseDie d kind detail).host = s.host := State.raise_host _ _
@[simp] theorem State.raiseDie_jobs (s : State) (d kind detail : Nat) : (s.raiseDie d kind detail).jobs = s.jobs := State.raise_jobs _ _
@[simp] theorem State.raiseDie_dumps (s : State) (d kind detail : Nat) : (s.raiseDie d kind detail).dumps = s.dumps := State.raise_dumps _ _
@[simp] theorem State.raiseDie_test (s : State) (d kind detail : Nat) : (s.raiseDie d kind detail).test = s.test := State.raise_test _ _
@[simp] theorem State.raiseDie_power (s : State) (d kind detail : Nat) : (s.raiseDie d kind detail).power = s.power := State.raise_power _ _
@[simp] theorem State.raiseDie_telemetry (s : State) (d kind detail : Nat) : (s.raiseDie d kind detail).telemetry = s.telemetry := State.raise_telemetry _ _
@[simp] theorem State.raiseDie_tile (s : State) (d kind detail : Nat) (q : Nat) :
    (s.raiseDie d kind detail).tile q = s.tile q := by simp [State.tile]
@[simp] theorem State.raiseDie_router (s : State) (d kind detail : Nat) (q : Nat) :
    (s.raiseDie d kind detail).router q = s.router q := by simp [State.router]
@[simp] theorem State.raiseDie_die (s : State) (d kind detail : Nat) (q : Nat) :
    (s.raiseDie d kind detail).die q = s.die q := by simp [State.die]
@[simp] theorem State.raiseDie_job (s : State) (d kind detail : Nat) (q : Nat) :
    (s.raiseDie d kind detail).job q = s.job q := by simp [State.job]
@[simp] theorem State.raiseDie_mig (s : State) (d kind detail : Nat) (q : Nat) :
    (s.raiseDie d kind detail).mig q = s.mig q := by simp [State.mig]
@[simp] theorem State.raiseDie_pkt (s : State) (d kind detail : Nat) (q : Nat) :
    (s.raiseDie d kind detail).pkt q = s.pkt q := by simp [State.pkt]
@[simp] theorem State.raiseDie_hostByte (s : State) (d kind detail : Nat) (q : Nat) :
    (s.raiseDie d kind detail).hostByte q = s.hostByte q := by simp [State.hostByte]
@[simp] theorem State.raiseDie_stewardUp (s : State) (d kind detail : Nat) :
    (s.raiseDie d kind detail).stewardUp = s.stewardUp := by simp [State.stewardUp]

/-- A report reaches the queue with its kind, unit and details (R324, R326). -/
theorem State.raise_queue (s : State) (r : Report) (h : s.boot.steward ≠ .restarting) :
    ∃ x, (s.raise r).errs.queue = s.errs.queue ++ [x] ∧ x.kind = r.kind ∧ x.phys = r.phys ∧ x.unitClass = r.unitClass ∧
      x.task = r.task ∧ x.detail = r.detail ∧ x.detail2 = r.detail2 ∧ x.meadow = r.meadow ∧ x.time = s.now := by
  have hf : ∀ job step, ∃ x, (s.raiseFor job step r).errs.queue = s.errs.queue ++ [x] ∧ x.kind = r.kind ∧ x.phys = r.phys ∧
      x.unitClass = r.unitClass ∧ x.task = r.task ∧ x.detail = r.detail ∧ x.detail2 = r.detail2 ∧ x.meadow = r.meadow ∧
      x.time = s.now := by
    intro job step
    unfold State.raiseFor
    dsimp only
    rw [if_neg (fun hh => h hh.1)]
    exact ⟨_, rfl, rfl, rfl, rfl, rfl, rfl, rfl, rfl, rfl⟩
  unfold State.raise
  split <;> exact hf _ _

/-! Read after write. -/

@[simp] theorem State.tile_setTile_self (s : State) (p : Nat) (t : Tile) : (s.setTile p t).tile p = t := by
  simp [State.tile, State.setTile]

theorem State.tile_setTile (s : State) (p q : Nat) (t : Tile) :
    (s.setTile p t).tile q = if q = p then t else s.tile q := by
  simp [State.tile, State.setTile, Tbl.get_put]

@[simp] theorem State.tile_modTile_self (s : State) (p : Nat) (f : Tile → Tile) :
    (s.modTile p f).tile p = f (s.tile p) := by
  simp [State.modTile]

theorem State.tile_modTile (s : State) (p q : Nat) (f : Tile → Tile) :
    (s.modTile p f).tile q = if q = p then f (s.tile p) else s.tile q := by
  rw [State.modTile, State.tile_setTile]

@[simp] theorem State.router_modRouter_self (s : State) (p : Nat) (f : Router → Router) :
    (s.modRouter p f).router p = f (s.router p) := by
  simp [State.router, State.modRouter]

theorem State.router_modRouter (s : State) (p q : Nat) (f : Router → Router) :
    (s.modRouter p f).router q = if q = p then f (s.router p) else s.router q := by
  simp [State.router, State.modRouter, Tbl.get_put]

@[simp] theorem State.die_modDie_self (s : State) (d : Nat) (f : DieState → DieState) :
    (s.modDie d f).die d = f (s.die d) := by
  simp [State.die, State.modDie]

theorem State.die_modDie (s : State) (d e : Nat) (f : DieState → DieState) :
    (s.modDie d f).die e = if e = d then f (s.die d) else s.die e := by
  simp [State.die, State.modDie, Tbl.get_put]

@[simp] theorem State.job_modJob_self (s : State) (g : Nat) (f : JobSt → JobSt) :
    (s.modJob g f).job g = f (s.job g) := by
  simp [State.job, State.modJob]

theorem State.job_modJob (s : State) (g h : Nat) (f : JobSt → JobSt) :
    (s.modJob g f).job h = if h = g then f (s.job g) else s.job h := by
  simp [State.job, State.modJob, Tbl.get_put]

@[simp] theorem State.mig_modMig_self (s : State) (m : Nat) (f : Migration → Migration) :
    (s.modMig m f).mig m = f (s.mig m) := by
  simp [State.mig, State.modMig]

theorem State.mig_modMig (s : State) (m n : Nat) (f : Migration → Migration) :
    (s.modMig m f).mig n = if n = m then f (s.mig m) else s.mig n := by
  simp [State.mig, State.modMig, Tbl.get_put]

@[simp] theorem State.pkt_setPkt_self (s : State) (n : Nat) (k : Packet) : (s.setPkt n k).pkt n = some k := by
  simp [State.pkt, State.setPkt]

theorem State.pkt_setPkt (s : State) (n m : Nat) (k : Packet) :
    (s.setPkt n k).pkt m = if m = n then some k else s.pkt m := by
  simp [State.pkt, State.setPkt, Tbl.get_put]

@[simp] theorem State.pkt_dropPkt_self (s : State) (n : Nat) : (s.dropPkt n).pkt n = none := by
  simp [State.pkt, State.dropPkt]

theorem State.pkt_dropPkt (s : State) (n m : Nat) : (s.dropPkt n).pkt m = if m = n then none else s.pkt m := by
  simp [State.pkt, State.dropPkt, Tbl.get_put]

@[simp] theorem State.pkt_newPkt_self (s : State) (k : Packet) : (s.newPkt k).pkt s.nextPkt = some k := by
  simp [State.pkt, State.newPkt]

theorem State.pkt_newPkt (s : State) (k : Packet) (m : Nat) :
    (s.newPkt k).pkt m = if m = s.nextPkt then some k else s.pkt m := by
  simp [State.pkt, State.newPkt, Tbl.get_put]

/-- A dictionary value just written reads back. -/
@[simp] theorem State.obe_putObe_self (s : State) (key e v : Nat) : (s.putObe key e v).obe key e = v := by
  unfold State.obe State.putObe valIn putIn
  by_cases h : v = objDefault s.fused key e <;> simp [h]

/-- A write of one element leaves every other element as it was. -/
theorem State.obe_putObe_ne (s : State) {key e key' e' : Nat} (v : Nat) (h : elemKey key' e' ≠ elemKey key e) :
    (s.putObe key e v).obe key' e' = s.obe key' e' := by
  simp [State.obe, State.putObe, valIn, putIn, Tbl.get_put_ne _ _ h]

/-- Elements of one object below 65,536 are told apart, and so are objects. -/
theorem elemKey_inj {key e key' e' : Nat} (he : e < 65536) (he' : e' < 65536) :
    elemKey key' e' = elemKey key e ↔ key' = key ∧ e' = e := by
  unfold elemKey; omega

@[simp] theorem State.ob_putOb_self (s : State) (key v : Nat) : (s.putOb key v).ob key = v :=
  State.obe_putObe_self s key 0 v

theorem State.ob_putOb_ne (s : State) {key key' : Nat} (v : Nat) (h : key' ≠ key) :
    (s.putOb key v).ob key' = s.ob key' :=
  State.obe_putObe_ne s v (by unfold elemKey; omega)

/-- A value of the dictionary is unchanged by what leaves the dictionary and the fuses alone. -/
theorem State.obe_congr {s t : State} (hd : t.dict.vals = s.dict.vals) (hf : t.fused = s.fused) (key e : Nat) :
    t.obe key e = s.obe key e := by
  simp [State.obe, hd, hf]

theorem State.ob_congr {s t : State} (hd : t.dict.vals = s.dict.vals) (hf : t.fused = s.fused) (key : Nat) :
    t.ob key = s.ob key := State.obe_congr hd hf key 0

theorem State.tile_congr {s t : State} (h : t.tiles = s.tiles) (p : Nat) : t.tile p = s.tile p := by
  simp [State.tile, h]

theorem State.pkt_congr {s t : State} (h : t.net = s.net) (n : Nat) : t.pkt n = s.pkt n := by
  simp [State.pkt, h]

end Sys2Proof.Machine
end

