-- ==== Sys2Proof/Laws/Seq.lean ====
section
/-! SUPPORT. The laws of issuing an instruction: what scheduling keeps, and what an instruction that retires, jumps, faults or stalls
leaves (R53 to R61, R75). -/

namespace Sys2Proof.Machine

theorem Task.reg_zero (x : Task) : x.reg 0 = 0 := rfl

theorem Task.reg_setReg (x : Task) (d r : Reg) (v : Word) :
    (x.setReg d v).reg r = if r = 0 then 0 else if r = d then v else x.reg r := by
  unfold Task.reg Task.setReg
  by_cases hr : r = 0
  · rw [if_pos hr, if_pos hr]
  · rw [if_neg hr, if_neg hr, if_neg hr]
    by_cases h : r = d
    · subst h
      rw [if_neg hr, if_pos rfl, Tbl.get_put_self]
    · have : r.toNat ≠ d.toNat := fun e => h (BitVec.eq_of_toNat_eq e)
      rw [if_neg h]
      split
      · rfl
      · exact Tbl.get_put_ne _ _ this

@[simp] theorem Task.setReg_pc (x : Task) (d : Reg) (v : Word) : (x.setReg d v).pc = x.pc := by
  unfold Task.setReg; split <;> rfl

@[simp] theorem Task.setReg_state (x : Task) (d : Reg) (v : Word) : (x.setReg d v).state = x.state := by
  unfold Task.setReg; split <;> rfl

theorem Task.setReg_parity {x : Task} (h : x.parity = []) (d : Reg) (v : Word) : (x.setReg d v).parity = [] := by
  unfold Task.setReg; split
  · exact h
  · dsimp only; rw [h]; rfl

theorem Task.setReg_rest {x : Task} (h : x.parity = []) (d : Reg) (v : Word) :
    { (x.setReg d v).work with regs := [], pc := 0 } = { x.work with regs := [], pc := 0 } := by
  have hp := Task.setReg_parity h d v
  unfold Task.setReg at hp ⊢; split
  · rfl
  · rename_i hd
    rw [if_neg hd] at hp
    dsimp only [Task.work] at hp ⊢
    rw [hp, h]

theorem Tile.task_modTask (t : Tile) (k j : Nat) (f : Task → Task) :
    (t.modTask k f).task j = if j = k then f (t.task k) else t.task j := by
  simp [Tile.task, Tile.modTask, Tbl.get_put]

@[simp] theorem Tile.task_modTask_self (t : Tile) (k : Nat) (f : Task → Task) : (t.modTask k f).task k = f (t.task k) := by
  simp [Tile.task_modTask]

@[simp] theorem Tile.modTask_besides (t : Tile) (k : Nat) (f : Task → Task) : (t.modTask k f).besides = t.besides := rfl

@[simp] theorem Tile.seq_besides (t : Tile) (q : Seq) : ({ t with seq := q } : Tile).besides = t.besides := rfl

@[simp] theorem Tile.modTask_controls (t : Tile) (k : Nat) (f : Task → Task) : (t.modTask k f).seq.controls = t.seq.controls := rfl

@[simp] theorem Tile.modTask_power (t : Tile) (k : Nat) (f : Task → Task) : (t.modTask k f).power = t.power := rfl

/-! What scheduling keeps. -/

/-- Two tiles differ at most in their tasks' places in the schedule. -/
structure Tile.Rescheduled (a b : Tile) : Prop where
  besides : b.besides = a.besides
  controls : b.seq.controls = a.seq.controls
  tasks : ∀ j, (b.task j).work = (a.task j).work
  ecc : b.seq.ecc = a.seq.ecc
  issues : b.seq.issues = a.seq.issues

theorem Tile.Rescheduled.rfl' (a : Tile) : a.Rescheduled a := ⟨rfl, rfl, fun _ => rfl, rfl, rfl⟩

theorem Tile.Rescheduled.trans {a b c : Tile} (h : a.Rescheduled b) (h' : b.Rescheduled c) : a.Rescheduled c :=
  ⟨h'.besides.trans h.besides, h'.controls.trans h.controls, fun j => (h'.tasks j).trans (h.tasks j),
    h'.ecc.trans h.ecc, h'.issues.trans h.issues⟩

theorem Tile.run_rescheduled (t : Tile) (k : Nat) : t.Rescheduled (t.run k) := by
  refine ⟨rfl, rfl, fun j => ?_, rfl, rfl⟩
  have h : (t.run k).task j = (t.modTask k fun x => { x with state := .running, stall := none }).task j := rfl
  rw [h, Tile.task_modTask]
  split
  · rename_i e; subst e; rfl
  · rfl

theorem Tile.ready_rescheduled (t : Tile) (k : Nat) : t.Rescheduled (t.modTask k fun x => { x with state := .ready }) := by
  refine ⟨rfl, rfl, fun j => ?_, rfl, rfl⟩
  rw [Tile.task_modTask]
  split
  · rename_i e; subst e; rfl
  · rfl

theorem Tile.schedule_rescheduled (t : Tile) : t.Rescheduled t.schedule := by
  unfold Tile.schedule
  split
  · exact .rfl' t
  · split
    · exact .rfl' t
    · split
      · split
        · exact (t.ready_rescheduled _).trans (Tile.run_rescheduled _ _)
        · exact .rfl' t
      · exact t.run_rescheduled _

/-- Some task is Ready or Running. -/
def Tile.hasWork (t : Tile) : Bool := t.anyTask fun x => x.state == .ready || x.state == .running

theorem Tile.clock_of_hasWork {t : Tile} (h : t.hasWork = true) (hp : t.power.state = .t0) : t.clock = t := by
  unfold Tile.clock
  rw [hp]
  have h' : (t.anyTask fun x => x.state == .ready || x.state == .running) = true := h
  have : t.power = { t.power with state := .t0 } := by rw [← hp]
  simp only [h', if_true]
  rw [if_neg (fun e => TPower.noConfusion e.2), ← this]

theorem Tile.hasWork_of {t : Tile} {k : Nat} (hk : k < 16) (h : (t.task k).state = .ready ∨ (t.task k).state = .running) :
    t.hasWork = true := by
  unfold Tile.hasWork Tile.anyTask
  rw [List.any_eq_true]
  exact ⟨k, List.mem_range.2 hk, by rcases h with h | h <;> simp [h]⟩

theorem Tile.mem_rotation_lt {t : Tile} {n : Nat} (h : n ∈ t.rotation) : n < 16 := by
  unfold Tile.rotation at h
  simp at h
  obtain ⟨i, -, rfl⟩ := h
  omega

theorem Tile.nextReady_lt {t : Tile} {n : Nat} (h : t.nextReady = some n) : n < 16 := by
  unfold Tile.nextReady at h
  have := List.mem_of_find?_eq_some h
  exact Tile.mem_rotation_lt (List.mem_filter.1 this).1

theorem Tile.schedule_hasWork {t : Tile} (h : t.hasWork = true) : t.schedule.hasWork = true := by
  unfold Tile.schedule
  split
  · exact h
  · split
    · exact h
    · rename_i n hn
      have hn' := Tile.nextReady_lt hn
      have hr : ∀ t' : Tile, (t'.run n).hasWork = true := fun t' =>
        Tile.hasWork_of hn' (Or.inr (by simp [Tile.run, Tile.task, Tile.modTask]))
      split
      · split
        · exact hr _
        · exact h
      · exact hr _

theorem Tile.schedule_power (t : Tile) : t.schedule.power = t.power := by
  have h := congrArg Tile.power t.schedule_rescheduled.besides
  exact h

/-- A tile with a task to run, in T0, is only rescheduled. -/
theorem Tile.settle_rescheduled {t : Tile} (h : t.hasWork = true) (hp : t.power.state = .t0) :
    t.Rescheduled t.settle ∧ t.settle.power = t.power ∧ t.settle.hasWork = true := by
  have h1 := Tile.clock_of_hasWork h hp
  have h2 : t.schedule.clock = t.schedule := Tile.clock_of_hasWork (Tile.schedule_hasWork h) (by rw [t.schedule_power]; exact hp)
  have : t.settle = t.schedule := by unfold Tile.settle; rw [h1, h2]
  rw [this]
  exact ⟨t.schedule_rescheduled, t.schedule_power, Tile.schedule_hasWork h⟩

theorem Tile.not_allWaiting {t : Tile} (h : t.hasWork = true) : t.allWaiting = false := by
  unfold Tile.hasWork Tile.anyTask at h
  rw [List.any_eq_true] at h
  obtain ⟨k, hk, hs⟩ := h
  unfold Tile.allWaiting
  have : (t.anyTask fun x => x.state.live && x.state != .waiting) = true := by
    unfold Tile.anyTask
    rw [List.any_eq_true]
    refine ⟨k, hk, ?_⟩
    simp only [Bool.or_eq_true, beq_iff_eq] at hs
    rcases hs with hs | hs <;> simp [hs, TaskState.live]
  simp [this]

/-- Settling a tile with a task to run, in T0, only reschedules that tile. -/
theorem State.settle_running {s : State} {p : Nat} (h : (s.tile p).hasWork = true) (hp : (s.tile p).power.state = .t0) :
    s.settle p = s.modTile p Tile.settle ∧ (s.tile p).Rescheduled ((s.settle p).tile p) := by
  obtain ⟨hr, hpow, hw⟩ := Tile.settle_rescheduled h hp
  have hl : (s.modTile p Tile.settle).leftRun (s.tile p) p = s.modTile p Tile.settle := by
    unfold State.leftRun
    rw [if_neg]
    simp [hpow, hp]
  have : s.settle p = s.modTile p Tile.settle := by
    unfold State.settle
    rw [hl]
    simp [Tile.not_allWaiting hw]
  rw [this]
  exact ⟨rfl, by simpa using hr⟩

theorem Tile.runner_spec {t : Tile} {k : Nat} (h : t.runner = some k) :
    t.seq.run = true ∧ t.power.state = .t0 ∧ t.frozen = false ∧ k = t.seq.cur ∧ (t.task k).state = .running := by
  unfold Tile.runner Tile.mayIssue at h
  split at h
  · rename_i hc
    simp at hc h
    subst h
    exact ⟨hc.1.1.1, hc.1.1.2, hc.1.2, rfl, hc.2⟩
  · cases h

/-! Issuing. -/

/-- The state in which the effect of an instruction acts: the issue is counted. -/
theorem State.fetched_clean {s : State} {p k : Nat} (h : (s.tile p).fetchPoison k ≠ 1) :
    s.fetched p k = s.modTile p fun t => { t with seq := { t.seq with issues := t.seq.issues + 1 } } := by
  have hb : ((s.tile p).fetchPoison k == 1) = false := by simpa using h
  have h2 : (fun t : Tile => t.countIssue k) (s.tile p) = { s.tile p with seq := { (s.tile p).seq with issues := (s.tile p).seq.issues + 1 } } := by
    simp [Tile.countIssue, h, hb, b2n]
  have : (s.modTile p fun t => t.countIssue k) =
      s.modTile p fun t => { t with seq := { t.seq with issues := t.seq.issues + 1 } } := by
    unfold State.modTile
    rw [h2]
  unfold State.fetched
  dsimp only
  rw [hb, this]
  rfl

theorem issue_eq {s : State} {p k word : Nat} {f : State → Nat → Issue} (h : s.issues p k) :
    issue p word f s = .next (((s.fetched p k).finish p k word (f (s.fetched p k) k)).settle p) := by
  obtain ⟨h1, -, h3, h4, h5⟩ := h
  have : (s.tile p).fetchFault k word = none := by
    unfold Tile.fetchFault
    rw [h3, h4, h5]
    simp
  unfold issue
  rw [h1]
  dsimp only
  rw [this]

/-- What the fetch of an instruction word without a corrected error leaves. -/
theorem State.fetched_spec {s : State} {p k : Nat} (h : (s.tile p).fetchPoison k ≠ 1) :
    (s.fetched p k).besidesTiles = s.besidesTiles ∧ (∀ q, q ≠ p → (s.fetched p k).tile q = s.tile q) ∧
    (s.fetched p k).tile p = { s.tile p with seq := { (s.tile p).seq with issues := (s.tile p).seq.issues + 1 } } := by
  rw [State.fetched_clean h]
  refine ⟨rfl, fun q hq => ?_, by simp⟩
  rw [State.tile_modTile, if_neg hq]

/-- The word of the instruction that issues has no corrected error. -/
theorem State.issues.clean {s : State} {p k : Nat} (h : s.issues p k) : (s.tile p).fetchPoison k ≠ 1 := by
  rw [h.2.2.1]; decide

@[simp] theorem State.fetched_task {s : State} {p k : Nat} (h : s.issues p k) (j : Nat) :
    ((s.fetched p k).tile p).task j = (s.tile p).task j := by
  rw [(State.fetched_spec h.clean).2.2]; rfl

theorem State.fetched_reg {s : State} {p k : Nat} (h : s.issues p k) (r : Reg) :
    (s.fetched p k).reg p k r = s.reg p k r := by
  unfold State.reg; rw [State.fetched_task h]

/-- `u` is `s` with task `k` of tile `p` at `x`, and nothing else changed but counts of the sequencer. -/
structure State.Touched (s u : State) (p k : Nat) (x : Task) : Prop where
  module : u.besidesTiles = s.besidesTiles
  tiles : ∀ q, q ≠ p → u.tile q = s.tile q
  tile : (u.tile p).besides = (s.tile p).besides
  controls : (u.tile p).seq.controls = (s.tile p).seq.controls
  task : (u.tile p).task k = x
  others : ∀ j, j ≠ k → (u.tile p).task j = (s.tile p).task j

theorem State.fetched_touched' {s : State} {p k : Nat} (h : (s.tile p).fetchPoison k ≠ 1) :
    s.Touched (s.fetched p k) p k ((s.tile p).task k) := by
  obtain ⟨hm, ht, hp⟩ := State.fetched_spec h
  exact ⟨hm, ht, by rw [hp]; rfl, by rw [hp]; rfl, by rw [hp]; rfl, fun j _ => by rw [hp]; rfl⟩

theorem State.fetched_touched {s : State} {p k : Nat} (h : s.issues p k) :
    s.Touched (s.fetched p k) p k ((s.tile p).task k) := State.fetched_touched' h.clean

theorem State.Touched.modTask {s u : State} {p k : Nat} {x : Task} (h : s.Touched u p k x) (f : Task → Task) :
    s.Touched (u.modTile p fun t => t.modTask k f) p k (f x) := by
  refine ⟨h.module, fun q hq => ?_, ?_, ?_, ?_, fun j hj => ?_⟩
  · rw [State.tile_modTile, if_neg hq, h.tiles q hq]
  · rw [State.tile_modTile_self, Tile.modTask_besides, h.tile]
  · rw [State.tile_modTile_self, Tile.modTask_controls, h.controls]
  · rw [State.tile_modTile_self, Tile.task_modTask_self, h.task]
  · rw [State.tile_modTile_self, Tile.task_modTask, if_neg hj, h.others j hj]

theorem State.Touched.setReg {s u : State} {p k : Nat} {x : Task} (h : s.Touched u p k x) (d : Reg) (v : Word) :
    s.Touched (u.setReg p k d v) p k (x.setReg d v) := h.modTask _

theorem State.Touched.reg {s u : State} {p k : Nat} {x : Task} (h : s.Touched u p k x) (r : Reg) : u.reg p k r = x.reg r := by
  unfold State.reg; rw [h.task]

/-- The scheduler after an instruction whose task runs on. -/
theorem State.Touched.settle {s u : State} {p k : Nat} {x : Task} (h : s.Touched u p k x) (hk : k < 16) (hs : x.state = .running)
    (hp : (s.tile p).power.state = .t0) :
    s.OnlyTask (u.settle p) p k ∧ (((u.settle p).tile p).task k).work = x.work := by
  have hwork : (u.tile p).hasWork = true := Tile.hasWork_of hk (Or.inr (by rw [h.task]; exact hs))
  have hpower : (u.tile p).power.state = .t0 := by
    have hb := congrArg Tile.power h.tile
    have : (u.tile p).power = (s.tile p).power := hb
    rw [this]; exact hp
  obtain ⟨he, hr⟩ := State.settle_running hwork hpower
  refine ⟨⟨?_, ?_, ?_, ?_, ?_⟩, ?_⟩
  · rw [he]; exact h.module
  · intro q hq
    rw [he, State.tile_modTile, if_neg hq, h.tiles q hq]
  · rw [hr.besides, h.tile]
  · rw [hr.controls, h.controls]
  · intro j hj
    rw [hr.tasks j, h.others j hj]
  · rw [hr.tasks k, h.task]

/-- The task that issued goes on at `pc` with its register `d` at `v`. -/
theorem State.Touched.wrote {s u : State} {p k : Nat} {d : Reg} {v : Word} {pc : BitVec 16} (hi : s.issues p k)
    (h : s.Touched u p k { (((s.tile p).task k).setReg d v) with pc := pc }) : s.Wrote (u.settle p) p k d v pc := by
  obtain ⟨hrun, hpow, hfro, hcur, hst⟩ := Tile.runner_spec hi.1
  obtain ⟨hf, hw⟩ := h.settle hi.2.1 (by simpa using hst) hpow
  have hreg : ∀ r, (u.settle p).reg p k r = (((s.tile p).task k).setReg d v).reg r := by
    intro r
    have hb := congrArg Task.regs hw
    have h1 : (((u.settle p).tile p).task k).regs = (((s.tile p).task k).setReg d v).regs := hb
    unfold State.reg Task.reg
    rw [h1]
  have hc := congrArg Task.pc hw
  refine ⟨?_, ?_, hc, ?_, hf⟩
  · rw [hreg, Task.reg_setReg, if_pos rfl]
  · intro r hr'
    rw [hreg, Task.reg_setReg, if_neg hr']
    unfold State.reg Task.reg
    split <;> rfl
  · rw [hw]
    exact Task.setReg_rest hi.2.2.2.2 d v

/-- An instruction that writes a register and goes on. -/
theorem issue_retire {s : State} {p k word : Nat} {f : State → Nat → Issue} {d : Reg} {v : Word} (h : s.issues p k) (hpc : s.pcInside p k)
    (hf : ∀ u, s.Touched u p k ((s.tile p).task k) → f u k = .retire (u.setReg p k d v)) :
    ∃ t, issue p word f s = .next t ∧ s.Wrote t p k d v (s.nextPc p k) := by
  refine ⟨_, issue_eq h, ?_⟩
  have h0 := State.fetched_touched h
  rw [hf _ h0]
  have h1 := h0.setReg d v
  apply State.Touched.wrote h
  unfold State.finish State.advance
  dsimp only
  rw [if_neg (by rw [h1.task, Task.setReg_pc]; exact hpc)]
  have h2 := h1.modTask fun x => { x with pc := x.pc + 4 }
  simpa [State.nextPc] using h2

/-- An instruction that goes on without writing a register. -/
theorem issue_retire_none {s : State} {p k word : Nat} {f : State → Nat → Issue} (h : s.issues p k) (hpc : s.pcInside p k)
    (hf : ∀ u, s.Touched u p k ((s.tile p).task k) → f u k = .retire u) :
    ∃ t, issue p word f s = .next t ∧ s.Wrote t p k 0 0 (s.nextPc p k) := by
  refine ⟨_, issue_eq h, ?_⟩
  have h0 := State.fetched_touched h
  rw [hf _ h0]
  apply State.Touched.wrote h
  unfold State.finish State.advance
  dsimp only
  rw [if_neg (by rw [h0.task]; exact hpc)]
  have h2 := h0.modTask fun x => { x with pc := x.pc + 4 }
  have : ((s.tile p).task k).setReg 0 0 = (s.tile p).task k := by unfold Task.setReg; rw [if_pos rfl]
  rw [this]
  exact h2

/-- A jump whose target is aligned and inside instruction memory. -/
theorem issue_jump {s : State} {p k word : Nat} {f : State → Nat → Issue} {d : Reg} {v target : Word} (h : s.issues p k)
    (hf : ∀ u, s.Touched u p k ((s.tile p).task k) → f u k = .jump (u.setReg p k d v) target)
    (ha : target.toNat % 4 = 0) (hr : target.toNat < 0x10000) :
    ∃ t, issue p word f s = .next t ∧ s.Wrote t p k d v (target.setWidth 16) := by
  refine ⟨_, issue_eq h, ?_⟩
  have h0 := State.fetched_touched h
  rw [hf _ h0]
  apply State.Touched.wrote h
  unfold State.finish State.jumpTo
  dsimp only
  rw [if_neg (by omega), if_neg (by omega)]
  exact (h0.setReg d v).modTask fun x => { x with pc := target.setWidth 16 }

/-- A jump that writes no register. -/
theorem issue_jump_none {s : State} {p k word : Nat} {f : State → Nat → Issue} {target : Word} (h : s.issues p k)
    (hf : ∀ u, s.Touched u p k ((s.tile p).task k) → f u k = .jump u target)
    (ha : target.toNat % 4 = 0) (hr : target.toNat < 0x10000) :
    ∃ t, issue p word f s = .next t ∧ s.Wrote t p k 0 0 (target.setWidth 16) := by
  refine ⟨_, issue_eq h, ?_⟩
  have h0 := State.fetched_touched h
  rw [hf _ h0]
  apply State.Touched.wrote h
  unfold State.finish State.jumpTo
  dsimp only
  rw [if_neg (by omega), if_neg (by omega)]
  have : ((s.tile p).task k).setReg 0 0 = (s.tile p).task k := by unfold Task.setReg; rw [if_pos rfl]
  rw [this]
  exact h0.modTask fun x => { x with pc := target.setWidth 16 }

/-! What settling keeps whatever it does. -/

theorem Tile.schedule_state (t : Tile) (j : Nat) (h1 : (t.task j).state ≠ .ready) (h2 : (t.task j).state ≠ .running) :
    (t.schedule.task j).state = (t.task j).state := by
  have hn : ∀ n, t.nextReady = some n → j ≠ n := by
    intro n hn e
    subst e
    unfold Tile.nextReady at hn
    have := List.mem_filter.1 (List.mem_of_find?_eq_some hn)
    exact h1 (by simpa using this.2)
  have hrun : ∀ (t' : Tile) n, j ≠ n → ((t'.run n).task j) = t'.task j := by
    intro t' n e
    have h : (t'.run n).task j = (t'.modTask n fun x => { x with state := .running, stall := none }).task j := rfl
    rw [h, Tile.task_modTask, if_neg e]
  unfold Tile.schedule
  split
  · rfl
  · split
    · rfl
    · rename_i n hs
      split
      · split
        · rw [hrun _ _ (hn n hs), Tile.task_modTask]
          split
          · rename_i hc e; subst e; simp at *; contradiction
          · rfl
        · rfl
      · rw [hrun _ _ (hn n hs)]

@[simp] theorem Tile.clock_seq (t : Tile) : t.clock.seq = t.seq := by
  unfold Tile.clock; split <;> rfl

theorem Tile.clock_task (t : Tile) (j : Nat) : t.clock.task j = t.task j := by
  unfold Tile.task; rw [Tile.clock_seq]

theorem Tile.settle_seq (t : Tile) (j : Nat) :
    (t.settle.task j).work = (t.task j).work ∧ t.settle.seq.controls = t.seq.controls := by
  have h := t.clock.schedule_rescheduled
  unfold Tile.settle
  refine ⟨?_, ?_⟩
  · rw [Tile.clock_task, h.tasks j, Tile.clock_task]
  · rw [Tile.clock_seq, h.controls, Tile.clock_seq]

theorem Tile.settle_state (t : Tile) (j : Nat) (h1 : (t.task j).state ≠ .ready) (h2 : (t.task j).state ≠ .running) :
    (t.settle.task j).state = (t.task j).state := by
  unfold Tile.settle
  rw [Tile.clock_task, Tile.schedule_state _ _ (by rw [Tile.clock_task]; exact h1) (by rw [Tile.clock_task]; exact h2),
    Tile.clock_task]

theorem State.leftRun_tiles (s : State) (old : Tile) (p : Nat) : (s.leftRun old p).tiles = s.tiles := by
  unfold State.leftRun; split <;> rfl

theorem State.leftRun_errs (s : State) (old : Tile) (p : Nat) : (s.leftRun old p).errs = s.errs := by
  unfold State.leftRun; split <;> rfl

/-- A refused entry changes the tile's power record and the refusal's count. -/
theorem State.refuseEntry_eq (s : State) (p r : Nat) : ∃ (f : TilePower → TilePower) (d : DictState),
    s.refuseEntry p r = { s.modTile p fun t => { t with power := f t.power } with dict := d } := by
  refine ⟨fun w => { w with state := .t1, refused := true, entering := none, lastDepth := 1, lastRefuser := r, refusals := (w.refusals + 1) % 256 }, (s.refuseEntry p r).dict, ?_⟩
  unfold State.refuseEntry
  dsimp only
  split <;> rfl

/-- The beginning of an entry by WAIT changes the tile's power record and, where it is refused, the refusal's count (R365). -/
theorem State.enterPower_eq (s : State) (p depth : Nat) : ∃ (f : TilePower → TilePower) (d : DictState),
    s.enterPower p depth = { s.modTile p fun t => { t with power := f t.power } with dict := d } := by
  unfold State.enterPower
  split
  · exact ⟨fun w => { w with refused := false, entering := some (depth, s.now) }, s.dict, rfl⟩
  · exact s.refuseEntry_eq p _

theorem State.enterPower_tile (s : State) (p depth : Nat) : ∃ f : TilePower → TilePower,
    ∀ q, (s.enterPower p depth).tile q = if q = p then { s.tile p with power := f (s.tile p).power } else s.tile q := by
  obtain ⟨f, d, h⟩ := s.enterPower_eq p depth
  refine ⟨f, fun q => ?_⟩
  rw [h, ← State.tile_modTile s p q fun t => { t with power := f t.power }]
  rfl

theorem State.enterPower_seq (s : State) (p depth : Nat) : ((s.enterPower p depth).tile p).seq = (s.tile p).seq := by
  obtain ⟨f, h⟩ := s.enterPower_tile p depth
  rw [h, if_pos rfl]

theorem State.enterPower_tile_ne (s : State) (p depth q : Nat) (h : q ≠ p) : (s.enterPower p depth).tile q = s.tile q := by
  obtain ⟨f, h'⟩ := s.enterPower_tile p depth
  rw [h', if_neg h]

theorem State.enterPower_errs (s : State) (p depth : Nat) : (s.enterPower p depth).errs = s.errs := by
  obtain ⟨f, d, h⟩ := s.enterPower_eq p depth
  rw [h]; rfl

/-- Settling a tile changes only the scheduling of its tasks and its power record; the tasks' work and the sequencer's controls stay. -/
theorem State.settle_spec (s : State) (p : Nat) :
    (∀ j, (((s.settle p).tile p).task j).work = ((s.tile p).task j).work) ∧
    ((s.settle p).tile p).seq.controls = (s.tile p).seq.controls ∧
    (∀ j, ((s.tile p).task j).state ≠ .ready → ((s.tile p).task j).state ≠ .running →
      (((s.settle p).tile p).task j).state = ((s.tile p).task j).state) ∧
    (∀ q, q ≠ p → (s.settle p).tile q = s.tile q) ∧ (s.settle p).errs = s.errs := by
  have hp : ((s.modTile p Tile.settle).leftRun (s.tile p) p).tile p = (s.tile p).settle := by
    rw [State.tile_congr (State.leftRun_tiles _ _ _), State.tile_modTile_self]
  have hq : ∀ q, q ≠ p → ((s.modTile p Tile.settle).leftRun (s.tile p) p).tile q = s.tile q := by
    intro q h
    rw [State.tile_congr (State.leftRun_tiles _ _ _), State.tile_modTile, if_neg h]
  have he : ((s.modTile p Tile.settle).leftRun (s.tile p) p).errs = s.errs := by
    rw [State.leftRun_errs]; rfl
  have key : ∃ u : State, s.settle p = u ∧ (u.tile p).seq = (s.tile p).settle.seq ∧ (∀ q, q ≠ p → u.tile q = s.tile q) ∧
      u.errs = s.errs := by
    refine ⟨_, rfl, ?_, ?_, ?_⟩
    · unfold State.settle
      dsimp only
      split
      · split
        · rw [hp]
        · split
          · rw [State.enterPower_seq, hp]
          · rw [State.tile_modTile_self, hp]
      · rw [hp]
    · intro q h
      unfold State.settle
      dsimp only
      split
      · split
        · rw [hq q h]
        · split
          · rw [State.enterPower_tile_ne _ _ _ _ h, hq q h]
          · rw [State.tile_modTile, if_neg h, hq q h]
      · rw [hq q h]
    · unfold State.settle
      dsimp only
      split
      · split
        · rw [he]
        · split
          · rw [State.enterPower_errs, he]
          · rw [State.modTile_errs, he]
      · rw [he]
  obtain ⟨u, rfl, h1, h2, h3⟩ := key
  have ht : ∀ j, ((s.settle p).tile p).task j = (s.tile p).settle.task j := by
    intro j; unfold Tile.task; rw [h1]
  refine ⟨fun j => ?_, ?_, fun j ha hb => ?_, h2, h3⟩
  · rw [ht, (Tile.settle_seq _ j).1]
  · rw [h1, (Tile.settle_seq _ 0).2]
  · rw [ht, Tile.settle_state _ _ ha hb]

theorem Tile.clock_besides (t : Tile) : { t.clock.besides with power := {} } = { t.besides with power := {} } := by
  unfold Tile.clock; split <;> rfl

theorem Tile.settle_besides (t : Tile) : { t.settle.besides with power := {} } = { t.besides with power := {} } := by
  unfold Tile.settle
  rw [Tile.clock_besides, t.clock.schedule_rescheduled.besides, Tile.clock_besides]

/-- Settling a tile leaves the rest of it as it was but for its power record. -/
theorem State.settle_rest (s : State) (p : Nat) :
    { ((s.settle p).tile p).besides with power := {} } = { (s.tile p).besides with power := {} } := by
  have hp : ((s.modTile p Tile.settle).leftRun (s.tile p) p).tile p = (s.tile p).settle := by
    rw [State.tile_congr (State.leftRun_tiles _ _ _), State.tile_modTile_self]
  refine Eq.trans ?_ (Tile.settle_besides _)
  unfold State.settle
  dsimp only
  generalize (s.modTile p Tile.settle).leftRun (s.tile p) p = u at hp ⊢
  rw [hp]
  split
  · split
    · rw [hp]
    · split
      · obtain ⟨f, h⟩ := u.enterPower_tile p (s.tile p).settle.power.depth
        rw [h, if_pos rfl, hp]; rfl
      · rw [State.tile_modTile_self, hp]; rfl
  · rw [hp]

/-- What is unchanged but for its tiles. -/
theorem State.eq_of_besidesTiles {s t : State} (h : t.besidesTiles = s.besidesTiles) : t = { s with tiles := t.tiles } := by
  cases s; cases t
  simp only [State.besidesTiles, State.mk.injEq] at h
  simp only [State.mk.injEq, true_and]
  simp only [true_and] at h
  exact h

/-- A tile in which a task has faulted. -/
def Tile.faulted (t : Tile) (k code word : Nat) (detail : Word) : Tile :=
  let t := t.modTask k fun x => x.fault code word detail
  { t with seq := { t.seq with run := t.seq.run && t.seq.policy } }

theorem Tile.faulted_task_self (t : Tile) (k code word : Nat) (detail : Word) :
    (t.faulted k code word detail).task k = (t.task k).fault code word detail :=
  Tile.task_modTask_self t k fun x => x.fault code word detail

theorem Tile.faulted_task_ne (t : Tile) {k j : Nat} (h : j ≠ k) (code word : Nat) (detail : Word) :
    (t.faulted k code word detail).task j = t.task j := by
  have := Tile.task_modTask t k j fun x => x.fault code word detail
  rw [if_neg h] at this
  exact this

/-- What a task fault does: the tile, then at most a count of uncorrectable errors, then its report, and that of a silent-error
detection where the fault is one. -/
theorem State.taskFault_eq (u : State) (p k code word : Nat) (detail : Word) :
    ∃ (v : State) (r r' : Report), v.tiles = (u.modTile p fun t => t.faulted k code word detail).tiles ∧
      v.errs = u.errs ∧ v.boot = u.boot ∧ (r.kind, r.phys, r.task) = (0x0200, p, k) ∧ (r'.kind, r'.phys, r'.task) = (detectionKind code, p, k) ∧
      u.taskFault p k code word detail = if detectionKind code = 0 then v.raise r else (v.raise r).raise r' := by
  unfold State.taskFault
  dsimp only
  refine ⟨_, _, _, ?_, ?_, ?_, ?_, ?_, rfl⟩
  · split <;> rfl
  · split <;> rfl
  · split <;> rfl
  · rfl
  · rfl

theorem State.taskFault_tile (u : State) (p k code word q : Nat) (detail : Word) :
    (u.taskFault p k code word detail).tile q = if q = p then (u.tile p).faulted k code word detail else u.tile q := by
  obtain ⟨v, r, r', ht, -, -, -, -, h⟩ := u.taskFault_eq p k code word detail
  rw [h]
  split
  · rw [State.raise_tile, State.tile_congr ht, State.tile_modTile]
  · rw [State.raise_tile, State.raise_tile, State.tile_congr ht, State.tile_modTile]

/-- A fault of the task that issued, once the scheduler has acted. -/
theorem State.Touched.faulted {s u : State} {p k : Nat} {x : Task} (h : s.Touched u p k x) (hr : x.regs = ((s.tile p).task k).regs)
    (hpc : x.pc = ((s.tile p).task k).pc) (code word : Nat) (detail : Word) :
    s.Faulted ((u.taskFault p k code word detail).settle p) p k code word detail := by
  obtain ⟨v, r, r', hv, hve, hvb, hk, hk', he⟩ := u.taskFault_eq p k code word detail
  have htile := u.taskFault_tile p k code word p detail
  rw [if_pos rfl] at htile
  have htask : ((u.taskFault p k code word detail).tile p).task k = x.fault code word detail := by
    rw [htile, Tile.faulted_task_self, h.task]
  obtain ⟨h1, h2, h3, h4, h5⟩ := (u.taskFault p k code word detail).settle_spec p
  have hw := h1 k
  have hs := h3 k
  rw [htask] at hw hs
  have e1 := congrArg Task.faultCode hw
  have e2 := congrArg Task.faultPc hw
  have e3 := congrArg Task.faultInstr hw
  have e4 := congrArg Task.faultDetail hw
  have e5 := congrArg Task.regs hw
  have e6 := congrArg Task.pc hw
  dsimp only [Task.work, Task.fault] at e1 e2 e3 e4 e5 e6
  have hc := congrArg Seq.run h2
  rw [htile] at hc
  have a := congrArg Seq.run h.controls
  have b := congrArg Seq.policy h.controls
  have a' : (u.tile p).seq.run = (s.tile p).seq.run := a
  have b' : (u.tile p).seq.policy = (s.tile p).seq.policy := b
  refine ⟨hs (by simp [Task.fault]) (by simp [Task.fault]), e1, e2.trans hpc, e3, e4, ?_, e5.trans hr, e6.trans hpc, ?_, ?_, ?_, ?_⟩
  · rw [← a', ← b']
    dsimp only [Seq.controls, Tile.faulted, Tile.modTask] at hc
    exact hc
  · intro j hj
    rw [h1 j, htile, Tile.faulted_task_ne _ hj, h.others j hj]
  · intro q hq
    rw [h4 q hq, State.taskFault_tile, if_neg hq, h.tiles q hq]
  · rw [State.settle_rest, htile]
    have hb : ∀ t : Tile, (t.faulted k code word detail).besides = t.besides := fun t => rfl
    rw [hb, h.tile]
  · intro hst
    have hu := State.eq_of_besidesTiles h.module
    have hm : u.errs = s.errs := by rw [hu]
    have hb : u.boot = s.boot := by rw [hu]
    obtain ⟨y, hy, hyk, hyp, -, hyt, -⟩ := v.raise_queue r (by rw [hvb, hb]; exact hst)
    rw [h5, he]
    have e : (y.kind, y.phys, y.task) = (0x0200, p, k) := by rw [hyk, hyp, hyt]; exact hk
    split
    · exact ⟨[y], by rw [hy, hve, hm], by rw [← e]; rfl⟩
    · obtain ⟨z, hz, hzk, hzp, -, hzt, -⟩ := (v.raise r).raise_queue r' (by rw [State.raise_boot, hvb, hb]; exact hst)
      have e' : (z.kind, z.phys, z.task) = (detectionKind code, p, k) := by rw [hzk, hzp, hzt]; exact hk'
      exact ⟨[y, z], by rw [hz, hy, hve, hm, List.append_assoc]; rfl, by rw [← e, ← e']; rfl⟩

/-- An instruction whose word has an uncorrectable error (R75). -/
theorem issue_poisoned {s : State} {p k word : Nat} {f : State → Nat → Issue} (hr : (s.tile p).runner = some k)
    (h : 2 ≤ (s.tile p).fetchPoison k) :
    ∃ t, issue p word f s = .next t ∧ s.Faulted t p k 0x09 word (((s.tile p).task k).pc.setWidth 64) := by
  have h0 := State.fetched_touched' (s := s) (p := p) (k := k) (by omega)
  refine ⟨_, ?_, h0.faulted rfl rfl 0x09 word _⟩
  have hf : (s.tile p).fetchFault k word = some (0x09, word, ((s.tile p).task k).pc.toNat) := by
    unfold Tile.fetchFault; rw [if_pos h]
  have hd : BitVec.ofNat 64 ((s.tile p).task k).pc.toNat = ((s.tile p).task k).pc.setWidth 64 := by
    apply BitVec.eq_of_toNat_eq; simp
  unfold issue
  rw [hr]
  dsimp only
  rw [hf]
  dsimp only
  rw [hd]

/-- A reserved word at the pc (R59). -/
theorem issue_reserved {s : State} {p k word : Nat} {f : State → Nat → Issue} (hr : (s.tile p).runner = some k)
    (h : (s.tile p).fetchPoison k = 0) (hw : reservedWord ((s.tile p).wordAt k) = true) :
    ∃ t, issue p word f s = .next t ∧ s.Faulted t p k 0x01 ((s.tile p).wordAt k) 0 := by
  have h0 := State.fetched_touched' (s := s) (p := p) (k := k) (by omega)
  refine ⟨_, ?_, h0.faulted rfl rfl 0x01 _ _⟩
  have hf : (s.tile p).fetchFault k word = some (0x01, (s.tile p).wordAt k, 0) := by
    unfold Tile.fetchFault; rw [if_neg (by omega), if_pos hw]
  unfold issue
  rw [hr]
  dsimp only
  rw [hf]
  rfl

/-- An instruction whose first register with a parity error, of those it reads, is `r` (R75). -/
theorem issue_parity {s : State} {p k word r : Nat} {f : State → Nat → Issue} (hr : (s.tile p).runner = some k)
    (h : (s.tile p).fetchPoison k = 0) (hw : reservedWord ((s.tile p).wordAt k) = false)
    (hp : (wordReads word).find? (fun r => r != 0 && ((s.tile p).task k).parity.contains r) = some r) :
    ∃ t, issue p word f s = .next t ∧ s.Faulted t p k 0x15 word (BitVec.ofNat 64 r) := by
  have h0 := State.fetched_touched' (s := s) (p := p) (k := k) (by omega)
  refine ⟨_, ?_, h0.faulted rfl rfl 0x15 word _⟩
  have hf : (s.tile p).fetchFault k word = some (0x15, word, r) := by
    unfold Tile.fetchFault; rw [if_neg (by omega), if_neg (by rw [hw]; decide), hp]; rfl
  unfold issue
  rw [hr]
  dsimp only
  rw [hf]

/-- An instruction that faults. -/
theorem issue_fault {s : State} {p k word code : Nat} {detail : Word} {f : State → Nat → Issue} (h : s.issues p k)
    (hf : ∀ u, s.Touched u p k ((s.tile p).task k) → f u k = .fault code detail) :
    ∃ t, issue p word f s = .next t ∧ s.Faulted t p k code word detail := by
  refine ⟨_, issue_eq h, ?_⟩
  have h0 := State.fetched_touched h
  rw [hf _ h0]
  exact h0.faulted rfl rfl code word detail

/-- A jump whose target is refused (R61). -/
theorem issue_jump_fault {s : State} {p k word : Nat} {f : State → Nat → Issue} {w : State} {target : Word} (h : s.issues p k)
    (hf : f (s.fetched p k) k = .jump w target) (ht : target.toNat % 4 ≠ 0 ∨ 0x10000 ≤ target.toNat) :
    ∃ t, issue p word f s = .next t ∧ s.Faulted t p k (jumpFault target) word target := by
  refine ⟨_, issue_eq h, ?_⟩
  have h0 := State.fetched_touched h
  rw [hf]
  have : State.finish (s.fetched p k) p k word (.jump w target) = (s.fetched p k).taskFault p k (jumpFault target) word target := by
    unfold State.finish State.jumpTo
    dsimp only
    by_cases ha : target.toNat % 4 ≠ 0
    · rw [if_pos ha]
    · rw [if_neg ha, if_pos (by omega)]
  rw [this]
  exact h0.faulted rfl rfl _ word target

/-- An instruction that retires with effects `w` of its own: they stand, the task goes on at the next word, and the scheduler acts. -/
theorem issue_retire_with {s w : State} {p k word : Nat} {f : State → Nat → Issue} (h : s.issues p k) (hpc : s.pcInside p k)
    (hf : f (s.fetched p k) k = .retire w) (hs : ((w.tile p).task k).state = .running)
    (hp : (w.tile p).power.state = .t0) (hwpc : ((w.tile p).task k).pc = ((s.tile p).task k).pc) :
    ∃ t, issue p word f s = .next t ∧ t.besidesTiles = w.besidesTiles ∧ (∀ q, q ≠ p → t.tile q = w.tile q) ∧
      (t.tile p).besides = (w.tile p).besides ∧ (t.tile p).seq.controls = (w.tile p).seq.controls ∧
      (∀ j, j ≠ k → ((t.tile p).task j).work = ((w.tile p).task j).work) ∧
      ((t.tile p).task k).work = { ((w.tile p).task k).work with pc := s.nextPc p k } := by
  refine ⟨_, issue_eq h, ?_⟩
  rw [hf]
  have hfin : (s.fetched p k).finish p k word (.retire w) = w.modTile p fun t => t.modTask k fun x => { x with pc := x.pc + 4 } := by
    unfold State.finish State.advance
    dsimp only
    rw [if_neg (by rw [hwpc]; exact hpc)]
  rw [hfin]
  have h0 : w.Touched w p k ((w.tile p).task k) := ⟨rfl, fun _ _ => rfl, rfl, rfl, rfl, fun _ _ => rfl⟩
  have h1 := h0.modTask fun x => { x with pc := x.pc + 4 }
  obtain ⟨ho, hw⟩ := h1.settle h.2.1 hs hp
  refine ⟨ho.module, ho.tiles, ho.tile, ho.controls, ho.tasks, ?_⟩
  rw [hw]
  unfold State.nextPc
  rw [← hwpc]
  rfl

/-- A tile with a stalled task is not held waiting. -/
theorem Tile.not_allWaiting_of_stalled {t : Tile} {k : Nat} (hk : k < 16) (h : (t.task k).state = .stalled) : t.allWaiting = false := by
  unfold Tile.allWaiting
  have : (t.anyTask fun x => x.state.live && x.state != .waiting) = true := by
    unfold Tile.anyTask
    rw [List.any_eq_true]
    exact ⟨k, List.mem_range.2 hk, by simp [h, TaskState.live]⟩
  simp [this]

/-- Settling a tile with a stalled task enters no power state below T1. -/
theorem State.settle_stalled {s : State} {p k : Nat} (hk : k < 16) (h : ((s.tile p).task k).state = .stalled) :
    s.settle p = (s.modTile p Tile.settle).leftRun (s.tile p) p := by
  have hp : ((s.modTile p Tile.settle).leftRun (s.tile p) p).tile p = (s.tile p).settle := by
    rw [State.tile_congr (State.leftRun_tiles _ _ _), State.tile_modTile_self]
  have hst : ((s.tile p).settle.task k).state = .stalled := by
    rw [Tile.settle_state _ _ (by rw [h]; decide) (by rw [h]; decide), h]
  unfold State.settle
  dsimp only
  rw [hp, Tile.not_allWaiting_of_stalled hk hst]
  simp

theorem State.leftRun_net (s : State) (old : Tile) (p : Nat) : (s.leftRun old p).net = s.net := by
  unfold State.leftRun; split <;> rfl

theorem State.leftRun_dict (s : State) (old : Tile) (p : Nat) : (s.leftRun old p).dict = s.dict := by
  unfold State.leftRun; split <;> rfl

/-- An instruction that stalls without effect. -/
theorem issue_stall {s : State} {p k word : Nat} {why : Stall} {f : State → Nat → Issue} (h : s.issues p k)
    (hf : ∀ u, s.Touched u p k ((s.tile p).task k) → f u k = .stall why) :
    ∃ t, issue p word f s = .next t ∧ s.Stalled t p k why := by
  refine ⟨_, issue_eq h, ?_⟩
  have h0 := State.fetched_touched h
  rw [hf _ h0]
  have hu := State.eq_of_besidesTiles h0.module
  generalize hv : State.finish (s.fetched p k) p k word (.stall why) = v
  have hvm : v.besidesTiles = s.besidesTiles := by rw [← hv]; exact h0.module
  have hve := State.eq_of_besidesTiles hvm
  have hvt : v.tile p = (let t := ((s.fetched p k).tile p).modTask k fun x => { x with state := .stalled, stall := some why }
       ({ t with seq := { t.seq with stalls := t.seq.stalls + 1 } } : Tile)) := by
    rw [← hv]
    unfold State.finish State.stallTask
    dsimp only
    rw [State.tile_modTile_self]
  have hvq : ∀ q, q ≠ p → v.tile q = s.tile q := by
    intro q hq
    rw [← hv]
    unfold State.finish State.stallTask
    dsimp only
    rw [State.tile_modTile, if_neg hq, h0.tiles q hq]
  have htk : (v.tile p).task k = { ((s.tile p).task k) with state := .stalled, stall := some why } := by
    rw [hvt]
    have := Tile.task_modTask_self ((s.fetched p k).tile p) k fun x => { x with state := .stalled, stall := some why }
    rw [h0.task] at this
    exact this
  have htj : ∀ j, j ≠ k → (v.tile p).task j = (s.tile p).task j := by
    intro j hj
    rw [hvt]
    have := Tile.task_modTask ((s.fetched p k).tile p) k j fun x => { x with state := .stalled, stall := some why }
    rw [if_neg hj, h0.others j hj] at this
    exact this
  have hs := State.settle_stalled (s := v) (p := p) h.2.1 (by rw [htk])
  obtain ⟨h1, -, h3, h4, -⟩ := v.settle_spec p
  have hpt : (v.settle p).tile p = (v.tile p).settle := by
    rw [hs, State.tile_congr (State.leftRun_tiles _ _ _), State.tile_modTile_self]
  have hrun : ((v.tile p).settle.task k).stall = some why := by
    have hn : ∀ t : Tile, (t.task k).state = .stalled → (t.schedule.task k).stall = (t.task k).stall := by
      intro t ht
      have hne : ∀ n, t.nextReady = some n → k ≠ n := by
        intro n hn e
        subst e
        unfold Tile.nextReady at hn
        have := List.mem_filter.1 (List.mem_of_find?_eq_some hn)
        simp [ht] at this
      have hr : ∀ (t' : Tile) n, k ≠ n → ((t'.run n).task k) = t'.task k := by
        intro t' n e
        have h : (t'.run n).task k = (t'.modTask n fun x => { x with state := .running, stall := none }).task k := rfl
        rw [h, Tile.task_modTask, if_neg e]
      unfold Tile.schedule
      split
      · rfl
      · split
        · rfl
        · rename_i n hs
          split
          · split
            · rw [hr _ _ (hne n hs), Tile.task_modTask]
              split
              · rename_i hc _ e; subst e; simp [ht] at hc
              · rfl
            · rfl
          · rw [hr _ _ (hne n hs)]
    unfold Tile.settle
    rw [Tile.clock_task, hn _ (by rw [Tile.clock_task, htk]), Tile.clock_task, htk]
  have hstate : (((v.settle p).tile p).task k).state = .stalled := by
    rw [h3 k (by rw [htk]; simp) (by rw [htk]; simp), htk]
  refine ⟨hstate, by rw [hpt]; exact hrun, ?_, fun j hj => ?_, ?_, fun q hq => ?_, ?_, ?_⟩
  · have := h1 k
    rw [this, htk]
    rfl
  · rw [h1 j, htj j hj]
  · rw [hpt, Tile.settle_besides, hvt]
    dsimp only
    rw [Tile.seq_besides, Tile.modTask_besides, h0.tile]
  · rw [h4 q hq, hvq q hq]
  · rw [hs, State.leftRun_net, State.modTile_net, hve]
  · rw [hs, State.leftRun_dict, State.modTile_dict, hve]

/-- An instruction whose effects leave the schedule alone, and of the registers of its task change at most one. -/
theorem issue_retire_gen {s w : State} {p k word : Nat} {f : State → Nat → Issue} {d : Reg} {v : Word} (h : s.issues p k)
    (hpc : s.pcInside p k) (hf : f (s.fetched p k) k = .retire w)
    (hr : ((w.tile p).task k).regs = (((s.tile p).task k).setReg d v).regs) (hp : ((w.tile p).task k).pc = ((s.tile p).task k).pc)
    (hs : ((w.tile p).task k).state = .running) (hw : (w.tile p).power.state = .t0)
    (ho : ∀ j, j ≠ k → ((w.tile p).task j).work = ((s.tile p).task j).work) (ht : ∀ q, q ≠ p → w.tile q = s.tile q)
    (hc : (w.tile p).seq.controls = (s.tile p).seq.controls) :
    ∃ t, issue p word f s = .next t ∧ s.Retired t p k d v ∧ t.besidesTiles = w.besidesTiles ∧
      (t.tile p).besides = (w.tile p).besides ∧ w.sameTask t p k := by
  obtain ⟨t, h1, h2, h3, h4, h5, h6, h7⟩ := issue_retire_with (word := word) h hpc hf hs hw hp
  have hregs : ((t.tile p).task k).regs = (((s.tile p).task k).setReg d v).regs := by
    have := congrArg Task.regs h7
    dsimp only [Task.work] at this
    rw [this, hr]
  have hreg : ∀ r, t.reg p k r = (((s.tile p).task k).setReg d v).reg r := by
    intro r; unfold State.reg Task.reg; rw [hregs]
  refine ⟨t, h1, ⟨?_, ?_, ?_, ?_, ?_, ?_⟩, h2, h4, ?_⟩
  · rw [hreg, Task.reg_setReg, if_pos rfl]
  · intro r hr'
    rw [hreg, Task.reg_setReg, if_neg hr']
    split
    · rename_i e; rw [e]; rfl
    · rfl
  · have := congrArg Task.pc h7
    dsimp only [Task.work] at this
    exact this
  · intro j hj; rw [h6 j hj, ho j hj]
  · intro q hq; rw [h3 q hq, ht q hq]
  · rw [h5, hc]
  · unfold State.sameTask
    rw [h7]

/-- An instruction that writes a register beside effects of its own, which leave the tasks' registers and the schedule alone. -/
theorem issue_retire_eff {s u : State} {p k word : Nat} {f : State → Nat → Issue} {d : Reg} {v : Word} (h : s.issues p k)
    (hpc : s.pcInside p k) (hf : f (s.fetched p k) k = .retire (u.setReg p k d v))
    (hr : ((u.tile p).task k).regs = ((s.tile p).task k).regs) (hq : ((u.tile p).task k).parity = []) (hp : ((u.tile p).task k).pc = ((s.tile p).task k).pc)
    (hs : ((u.tile p).task k).state = .running) (hw : (u.tile p).power.state = .t0)
    (ho : ∀ j, j ≠ k → ((u.tile p).task j).work = ((s.tile p).task j).work) (ht : ∀ q, q ≠ p → u.tile q = s.tile q)
    (hc : (u.tile p).seq.controls = (s.tile p).seq.controls) :
    ∃ t, issue p word f s = .next t ∧ s.Retired t p k d v ∧ t.besidesTiles = u.besidesTiles ∧
      (t.tile p).besides = (u.tile p).besides ∧ u.sameTask t p k := by
  have htask : ((u.setReg p k d v).tile p).task k = ((u.tile p).task k).setReg d v := by
    unfold State.setReg; rw [State.tile_modTile_self, Tile.task_modTask_self]
  obtain ⟨t, h1, h2, h3, h4, h5⟩ := issue_retire_gen (word := word) (d := d) (v := v) h hpc hf
    (by rw [htask]; unfold Task.setReg; split
        · exact hr
        · dsimp only; rw [hr])
    (by rw [htask, Task.setReg_pc]; exact hp) (by rw [htask, Task.setReg_state]; exact hs)
    (by unfold State.setReg; rw [State.tile_modTile_self, Tile.modTask_power]; exact hw)
    (fun j hj => by rw [← ho j hj]; unfold State.setReg; rw [State.tile_modTile_self, Tile.task_modTask, if_neg hj])
    (fun q hq => by rw [← ht q hq]; unfold State.setReg; rw [State.tile_modTile, if_neg hq])
    (by rw [← hc]; unfold State.setReg; rw [State.tile_modTile_self, Tile.modTask_controls])
  refine ⟨t, h1, h2, h3, ?_, ?_⟩
  · rw [h4]
    unfold State.setReg; rw [State.tile_modTile_self, Tile.modTask_besides]
  · unfold State.sameTask at h5 ⊢
    rw [h5, htask]
    exact Task.setReg_rest hq d v

/-- An instruction that writes no register and changes its own tile besides the sequencer. -/
theorem issue_retire_tile0 {s u : State} {p k word : Nat} {f : State → Nat → Issue} {g : Tile → Tile} (h : s.issues p k)
    (hpc : s.pcInside p k) (hf : f (s.fetched p k) k = .retire u)
    (hu : u.tiles = ((s.fetched p k).modTile p g).tiles) (hg : ∀ x q, g { x with seq := q } = { g x with seq := q })
    (hw : (g (s.tile p)).power.state = (s.tile p).power.state) :
    ∃ t, issue p word f s = .next t ∧ s.Retired t p k 0 0 ∧ t.besidesTiles = u.besidesTiles ∧
      (t.tile p).besides = (g (s.tile p)).besides ∧ s.sameTask t p k := by
  obtain ⟨hm, ht, hp⟩ := State.fetched_spec h.clean
  obtain ⟨-, hpow, -, -, hst⟩ := Tile.runner_spec h.1
  have hup : u.tile p = { g (s.tile p) with seq := { (s.tile p).seq with issues := (s.tile p).seq.issues + 1 } } := by
    rw [State.tile_congr hu, State.tile_modTile_self, hp, hg]
  have htk : ∀ j, (u.tile p).task j = (s.tile p).task j := by intro j; rw [hup]; rfl
  obtain ⟨t, h1, h2, h3, h4, h5⟩ := issue_retire_gen (word := word) (d := 0) (v := 0) h hpc hf (by rw [htk]; unfold Task.setReg; rw [if_pos rfl])
    (by rw [htk]) (by rw [htk]; exact hst) (by rw [hup]; exact hw.trans hpow) (fun j _ => by rw [htk])
    (fun q hq => by rw [State.tile_congr hu, State.tile_modTile, if_neg hq, ht q hq]) (by rw [hup]; rfl)
  refine ⟨t, h1, h2, h3, ?_, ?_⟩
  · rw [h4, hup]; rfl
  · unfold State.sameTask at h5 ⊢
    rw [h5, htk]

/-- An instruction that writes a register and changes its own tile besides the sequencer. -/
theorem issue_retire_tile {s u : State} {p k word : Nat} {f : State → Nat → Issue} {d : Reg} {v : Word} {g : Tile → Tile} (h : s.issues p k)
    (hpc : s.pcInside p k) (hf : f (s.fetched p k) k = .retire (u.setReg p k d v))
    (hu : u.tiles = ((s.fetched p k).modTile p g).tiles) (hg : ∀ x q, g { x with seq := q } = { g x with seq := q })
    (hw : (g (s.tile p)).power.state = (s.tile p).power.state) :
    ∃ t, issue p word f s = .next t ∧ s.Retired t p k d v ∧ t.besidesTiles = u.besidesTiles ∧
      (t.tile p).besides = (g (s.tile p)).besides ∧ s.sameTask t p k := by
  obtain ⟨hm, ht, hp⟩ := State.fetched_spec h.clean
  obtain ⟨-, hpow, -, -, hst⟩ := Tile.runner_spec h.1
  have hup : u.tile p = { g (s.tile p) with seq := { (s.tile p).seq with issues := (s.tile p).seq.issues + 1 } } := by
    rw [State.tile_congr hu, State.tile_modTile_self, hp, hg]
  have htk : ∀ j, (u.tile p).task j = (s.tile p).task j := by intro j; rw [hup]; rfl
  obtain ⟨t, h1, h2, h3, h4, h5⟩ := issue_retire_eff (word := word) h hpc hf (by rw [htk]) (by rw [htk]; exact h.2.2.2.2) (by rw [htk]) (by rw [htk]; exact hst)
    (by rw [hup]; exact hw.trans hpow) (fun j _ => by rw [htk])
    (fun q hq => by rw [State.tile_congr hu, State.tile_modTile, if_neg hq, ht q hq]) (by rw [hup]; rfl)
  refine ⟨t, h1, h2, h3, ?_, ?_⟩
  · rw [h4, hup]; rfl
  · unfold State.sameTask at h5 ⊢
    rw [h5, htk]

/-- A task that is stalled keeps its reason through scheduling. -/
theorem Tile.settle_stall {t : Tile} {k : Nat} (ht : (t.task k).state = .stalled) : (t.settle.task k).stall = (t.task k).stall := by
  have hn : ∀ t : Tile, (t.task k).state = .stalled → (t.schedule.task k).stall = (t.task k).stall := by
    intro t ht
    have hne : ∀ n, t.nextReady = some n → k ≠ n := by
      intro n hn e
      subst e
      unfold Tile.nextReady at hn
      have := List.mem_filter.1 (List.mem_of_find?_eq_some hn)
      simp [ht] at this
    have hr : ∀ (t' : Tile) n, k ≠ n → ((t'.run n).task k) = t'.task k := by
      intro t' n e
      have h : (t'.run n).task k = (t'.modTask n fun x => { x with state := .running, stall := none }).task k := rfl
      rw [h, Tile.task_modTask, if_neg e]
    unfold Tile.schedule
    split
    · rfl
    · split
      · rfl
      · rename_i n hs
        split
        · split
          · rw [hr _ _ (hne n hs), Tile.task_modTask]
            split
            · rename_i hc _ e; subst e; simp [ht] at hc
            · rfl
          · rfl
        · rw [hr _ _ (hne n hs)]
  unfold Tile.settle
  rw [Tile.clock_task, hn _ (by rw [Tile.clock_task, ht]), Tile.clock_task]

theorem State.leftRun_beside (s : State) (old : Tile) (p : Nat) : (s.leftRun old p).besideTiles = s.besideTiles := by
  unfold State.leftRun; split <;> rfl

/-- An instruction that begins an action and stalls until its completion. -/
theorem issue_begun {s u : State} {p k word : Nat} {why : Stall} {f : State → Nat → Issue} (h : s.issues p k)
    (hf : f (s.fetched p k) k = .begun u why) (hk : (u.tile p).task k = (s.tile p).task k)
    (ho : ∀ j, j ≠ k → (u.tile p).task j = (s.tile p).task j) (hq : ∀ q, q ≠ p → u.tile q = s.tile q) :
    ∃ t, issue p word f s = .next t ∧ s.Begun t p k why ∧ (t.tile p).beside = (u.tile p).beside ∧ t.besideTiles = u.besideTiles ∧
      (t.tile p).seq.controls = (u.tile p).seq.controls := by
  refine ⟨_, issue_eq h, ?_⟩
  rw [hf]
  have hfin : (s.fetched p k).finish p k word (.begun u why) = u.stallTask p k why := rfl
  rw [hfin]
  generalize hv : u.stallTask p k why = v
  have hvt : v.tile p = (let t := (u.tile p).modTask k fun x => { x with state := .stalled, stall := some why }
       ({ t with seq := { t.seq with stalls := t.seq.stalls + 1 } } : Tile)) := by
    rw [← hv]; unfold State.stallTask; dsimp only; rw [State.tile_modTile_self]
  have hvq : ∀ q, q ≠ p → v.tile q = s.tile q := by
    intro q hq'; rw [← hv]; unfold State.stallTask; dsimp only; rw [State.tile_modTile, if_neg hq', hq q hq']
  have htk : (v.tile p).task k = { ((s.tile p).task k) with state := .stalled, stall := some why } := by
    rw [hvt]
    have := Tile.task_modTask_self (u.tile p) k fun x => { x with state := .stalled, stall := some why }
    rw [hk] at this; exact this
  have htj : ∀ j, j ≠ k → (v.tile p).task j = (s.tile p).task j := by
    intro j hj; rw [hvt]
    have := Tile.task_modTask (u.tile p) k j fun x => { x with state := .stalled, stall := some why }
    rw [if_neg hj, ho j hj] at this; exact this
  have hs := State.settle_stalled (s := v) (p := p) h.2.1 (by rw [htk])
  obtain ⟨h1, h2, h3, h4, -⟩ := v.settle_spec p
  have hpt : (v.settle p).tile p = (v.tile p).settle := by
    rw [hs, State.tile_congr (State.leftRun_tiles _ _ _), State.tile_modTile_self]
  refine ⟨⟨?_, ?_, ?_, fun j hj => ?_, fun q hq' => ?_⟩, ?_, ?_, ?_⟩
  · rw [h3 k (by rw [htk]; simp) (by rw [htk]; simp), htk]
  · rw [hpt, Tile.settle_stall (by rw [htk]), htk]
  · rw [h1 k, htk]; rfl
  · rw [h1 j, htj j hj]
  · rw [h4 q hq', hvq q hq']
  · unfold Tile.beside
    rw [hpt, Tile.settle_besides, hvt]
    dsimp only
    rw [Tile.seq_besides, Tile.modTask_besides]
  · rw [hs, State.leftRun_beside, ← hv]; rfl
  · rw [h2, hvt]; rfl

end Sys2Proof.Machine
end

