-- ==== Sys2Proof/Laws/Cistern.lean ====
section
/-! SUPPORT. The laws of the cistern: what a write of it changes (R344, R345), that a clean read changes nothing (R103), and the accepted
address forms of loads and stores (R62). -/

namespace Sys2Proof.Machine

/-- The most of a list's second parts, from `m` on, is within a bound as `m` and each of them is. -/
theorem foldl_max_iff (l : List (Nat × Nat)) (m n : Nat) : l.foldl (fun m e => max m e.2) m ≤ n ↔ m ≤ n ∧ ∀ e ∈ l, e.2 ≤ n := by
  induction l generalizing m <;> simp_all [Nat.max_le, and_assoc]

/-- A read of an extent without errors corrects nothing. -/
theorem State.corrected_clean {s : State} {p off len : Nat} (h : (s.tile p).poison off len = 0) : s.corrected p off len = s := by
  have hp := ((foldl_max_iff ..).1 (Nat.le_of_eq h)).2
  have : ((s.tile p).ecc.cistern.filter fun e => e.2 == 1 && off < 8 * e.1 + 8 && 8 * e.1 < off + len) = [] := by
    rw [List.filter_eq_nil_iff]
    intro e he hc
    simp only [Bool.and_eq_true, beq_iff_eq, decide_eq_true_eq] at hc
    have := hp e (List.mem_filter.2 ⟨he, by simp [hc.1.2, hc.2]⟩)
    omega
  unfold State.corrected
  simp [this]

/-- A tile but for what a write of its cistern changes: the bytes, their ECC, the dirty granules, and its network interface, which sends
the duplicates. -/
def Tile.besidesCistern (t : Tile) : Tile := { t with cistern := [], ecc := {}, dirty := [], ni := {} }

/-- Two states have tiles that differ at most in tile `p`'s network interface. -/
def State.SameButNi (s t : State) (p : Nat) : Prop :=
  (∀ q, q ≠ p → t.tile q = s.tile q) ∧ ({ t.tile p with ni := {} } : Tile) = { s.tile p with ni := {} }

theorem State.SameButNi.rfl' (s : State) (p : Nat) : s.SameButNi s p := ⟨fun _ _ => rfl, rfl⟩

theorem State.SameButNi.trans {s t u : State} {p : Nat} (h : s.SameButNi t p) (h' : t.SameButNi u p) : s.SameButNi u p :=
  ⟨fun q hq => (h'.1 q hq).trans (h.1 q hq), h'.2.trans h.2⟩

theorem State.sameButNi_of_tiles {s t : State} (h : t.tiles = s.tiles) (p : Nat) : s.SameButNi t p :=
  ⟨fun q _ => State.tile_congr h q, by rw [State.tile_congr h p]⟩

theorem State.sameButNi_modNi (s : State) (p : Nat) (f : Tile → Ni) : s.SameButNi (s.modTile p fun t => { t with ni := f t }) p :=
  ⟨fun q hq => by rw [State.tile_modTile, if_neg hq], by rw [State.tile_modTile_self]⟩

theorem State.tileRequest_sameButNi (s : State) (p cls op flow dst dstKind addr arg0 arg1 tag deadline : Nat) (data : Bytes) :
    s.SameButNi (s.tileRequest p cls op flow dst dstKind addr arg0 arg1 tag deadline data) p := by
  unfold State.tileRequest State.takeSeq
  dsimp only
  exact (s.sameButNi_modNi p _).trans (State.sameButNi_of_tiles (State.newPkt_tiles _ _) p)

theorem foldl_sameButNi {β : Type} {g : State → β → State} {p : Nat} (h : ∀ (s : State) (x : β), s.SameButNi (g s x) p) (l : List β) (s : State) :
    s.SameButNi (l.foldl g s) p := by
  induction l generalizing s with
  | nil => exact .rfl' s p
  | cons x l ih => exact (h s x).trans (ih _)

/-- What a write of a tile's cistern changes among the tiles: the extent, and the network interface of the same tile. -/
theorem State.cisternWrite_tiles (s : State) (p off : Nat) (bs : Bytes) :
    (s.modTile p fun t => t.cisternPut off bs).SameButNi (s.cisternWrite p off bs) p := by
  unfold State.cisternWrite
  dsimp only
  split
  · have hmove : ∀ (u : State) g l len, u.SameButNi (u.moveAppend g l off len) p := by
      intro u g l len
      unfold State.moveAppend
      refine foldl_sameButNi (fun s x => ?_) _ _
      dsimp only
      split
      · exact State.sameButNi_of_tiles (State.putObe_tiles _ _ _ _) p
      · exact .rfl' _ p
    refine (hmove _ _ _ _).trans (foldl_sameButNi (fun s d => foldl_sameButNi (fun s pc => ?_) _ _) _ _)
    split
    · exact ((s.sameButNi_modNi p _).trans (State.tileRequest_sameButNi _ _ _ _ _ _ _ _ _ _ _ _ _)).trans (State.sameButNi_of_tiles (State.setPkt_tiles _ _ _) p)
    · exact (s.sameButNi_modNi p _).trans (State.tileRequest_sameButNi _ _ _ _ _ _ _ _ _ _ _ _ _)
  · exact .rfl' _ p

theorem State.cisternWrite_cistern (s : State) (p off : Nat) (bs : Bytes) :
    ((s.cisternWrite p off bs).tile p).cistern = (s.tile p).cistern.writeBytes off bs := by
  have h := (s.cisternWrite_tiles p off bs).2
  have h2 := congrArg Tile.cistern h
  dsimp only at h2
  rw [h2, State.tile_modTile_self]
  rfl

theorem State.cisternWrite_seq (s : State) (p off : Nat) (bs : Bytes) :
    ((s.cisternWrite p off bs).tile p).seq = (s.tile p).seq := by
  have h := (s.cisternWrite_tiles p off bs).2
  have h2 := congrArg Tile.seq h
  dsimp only at h2
  rw [h2, State.tile_modTile_self]
  rfl

theorem State.cisternWrite_power (s : State) (p off : Nat) (bs : Bytes) :
    ((s.cisternWrite p off bs).tile p).power = (s.tile p).power := by
  have h := (s.cisternWrite_tiles p off bs).2
  have h2 := congrArg Tile.power h
  dsimp only at h2
  rw [h2, State.tile_modTile_self]
  rfl

theorem State.cisternWrite_tile_ne (s : State) {p q : Nat} (h : q ≠ p) (off : Nat) (bs : Bytes) :
    (s.cisternWrite p off bs).tile q = s.tile q := by
  rw [(s.cisternWrite_tiles p off bs).1 q h, State.tile_modTile, if_neg h]

theorem State.cisternWrite_rest (s : State) (p off : Nat) (bs : Bytes) :
    ((s.cisternWrite p off bs).tile p).besidesCistern = (s.tile p).besidesCistern := by
  have h := (s.cisternWrite_tiles p off bs).2
  have h2 := congrArg Tile.besidesCistern h
  have e : ∀ t : Tile, ({ t with ni := {} } : Tile).besidesCistern = t.besidesCistern := fun _ => rfl
  rw [e, e, State.tile_modTile_self] at h2
  rw [h2]
  rfl

/-! Accepted addresses (R62). -/

theorem bits_eq (n hi lo : Nat) : bits n hi lo = n / 2 ^ lo % 2 ^ (hi + 1 - lo) := by
  unfold bits; rw [Nat.shiftRight_eq_div_pow]

theorem localOffset_of_names {s : State} {p off : Nat} {addr : Word} (h : s.names p addr off) :
    localOffset ((s.tile p).logical.getD 0) addr.toNat = .ok off := by
  obtain ⟨ho, h | ⟨l, hl, hl2, h⟩⟩ := h
  · unfold localOffset
    simp only [bits_eq, Nat.reduceAdd, Nat.reduceSub, Nat.reducePow] at *
    have h1 : addr.toNat / 1152921504606846976 % 16 = 15 := by omega
    have h2 : addr.toNat / 8388608 % 137438953472 = 0 := by omega
    have h3 : addr.toNat % 8388608 = off := by omega
    simp [h1, h2, h3]
  · unfold localOffset
    rw [hl]
    simp only [bits_eq, Nat.reduceAdd, Nat.reduceSub, Nat.reducePow, Option.getD_some] at *
    have h1 : addr.toNat / 1152921504606846976 % 16 = 0 := by omega
    have h2 : addr.toNat / 281474976710656 % 4096 = 0 := by omega
    have h3 : addr.toNat % 8388608 = off := by omega
    have h4 : addr.toNat / 8388608 % 8192 = 0 := by omega
    have h5 : addr.toNat / 68719476736 % 4096 = l := by omega
    simp [h1, h2, h3, h4, h5]

end Sys2Proof.Machine
end

