-- ==== Sys2Proof/Laws/Dict.lean ====
section
/-! SUPPORT. Laws of dictionary writes. -/

namespace Sys2Proof.Machine

/-- The bytes of a number that fits them spell it. -/
theorem leNat_toLE_lt (n v : Nat) (h : v < 2 ^ (8*n)) : leNat (toLE n v) = v := by
  rw [leNat_toLE]; apply Nat.mod_eq_of_lt; rwa [show (256:Nat) ^ n = 2 ^ (8*n) by rw [Nat.pow_mul]]

/-- A write of one element that its transport brings, in range and accepted, is served. -/
theorem dictAccess_served {act : Act} {s x : State} {src : Source} {key e v : Nat} {o : ObjInfo} (hw : s.Writes src key) (ho : objInfo key = some o)
    (hacc : o.acc ≠ 0 ∧ o.acc ≠ 4) (hlo : o.lo ≤ v) (hhi : v ≤ o.hi) (hv : v < 2 ^ (8 * o.size)) (hsz : o.size ≤ 4032 ∧ o.size < 9 ∨ o.size ≤ 4032 ∧ src ≠ .bar0) (hkey : key < 0xF00000) (hok : o.key = key)
    (hp : if src = .bar0 then e = 0 ∧ o.scalar = true ∧ key / 256 * 2048 + key % 256 * 8 + 8 ≤ bar0Bytes else e < o.elems ∧ (o.count = 0 → e = 0) ∧ o.elems ≤ 65536) 
    (hbool : o.ty % 128 = 1 → v ≤ 1)
    (hact : act (s.asked src) src key e v = (x, 0)) : dictAccess act (accessOf src key e v) s = .next (x.respond src (answerTo key e)) := by
  obtain ⟨hr, hl, hop, o', ho', hmay⟩ := hw
  rw [ho] at ho'; cases ho'
  have hlen : ∀ n v, (toLE n v).length = n := toLE_length
  cases src with
  | bar0 =>
    simp only [accessOf, dictAccess, bar0Write, State.slotWrite]
    have hl := hl rfl
    obtain ⟨rfl, hsc, hb⟩ : e = 0 ∧ o.scalar = true ∧ key / 256 * 2048 + key % 256 * 8 + 8 ≤ bar0Bytes := by simpa using hp
    have hk : slotKey (key / 256 * 2048 + key % 256 * 8) = key := by unfold slotKey; omega
    have hv' : ¬ 2 ^ 64 ≤ v := by
      rcases hsz with ⟨_, hsz⟩ | h
      · have : 2 ^ (8 * o.size) ≤ 2 ^ 64 := Nat.pow_le_pow_right (by decide) (by omega)
        omega
      · simp at h
    have hm : (key / 256 * 2048 + key % 256 * 8) % 8 = 0 := by omega
    have hobj : s.object key = some o := by simp [State.object, hr, ho]
    have hb' : ¬ bar0Bytes < key / 256 * 2048 + key % 256 * 8 + 8 := by omega
    have hact' : act s Source.bar0 o.key 0 v = (x, 0) := by rw [hok]; exact hact
    have hv2 : ¬ 2 ^ (8 * o.size) ≤ v := by omega
    have hlo' : ¬ (v < o.lo ∨ o.hi < v) := by omega
    have hkk : ¬ 0xF00000 ≤ key := by omega
    have hbb : ¬(o.ty % 128 = 1 ∧ 1 < v) := by intro ⟨a, b⟩; have := hbool a; omega
    simp only [hb', hv', hl, hr, State.serving, hk, hm, hobj, hsc, hv2, hkk, State.writeObject, hmay, hacc.1, hacc.2, State.writeElems, hlo', hact', List.any_cons, List.any_nil]
    simp [State.respond, hbb]
  | _ => 
    have hsrc : ∀ src', src' ≠ Source.bar0 → accessOf src' key e v = DictAccess.msg src' { op := 2, index := key / 256, sub := key % 256, first := e, count := 1, length := o.size, tag := 0, reserved := 0, data := toLE o.size v } := by
      intro src' h; cases src' <;> simp_all [accessOf]
    have hobj : ∀ y : State, y.boot.steward = .running → y.object key = some o := by intro y h; simp [State.object, h, ho]
    rw [hsrc _ (by simp)]
    obtain ⟨hp1, hp2, hp3⟩ : e < o.elems ∧ (o.count = 0 → e = 0) ∧ o.elems ≤ 65536 := by simpa using hp
    have hs : o.size ≤ 4032 := by rcases hsz with h | h <;> exact h.1
    have hfit : reqFits { op := 2, index := key / 256, sub := key % 256, first := e, count := 1, length := o.size, tag := 0, reserved := 0, data := toLE o.size v } = true := by
      simp [reqFits]; omega
    have hkk : ¬ 0xF000 ≤ key / 256 := by omega
    have hkey' : key / 256 * 256 + key % 256 = key := by omega
    have hvals : valuesOf o.size (toLE o.size v) 1 = [v] := by
      simp only [valuesOf, List.cons.injEq, and_true]
      rw [List.take_of_length_le (Nat.le_of_eq (hlen _ _))]; exact leNat_toLE_lt _ _ hv
    have hlo' : ¬ (v < o.lo ∨ o.hi < v) := by omega
    have hbb : ¬(o.ty % 128 = 1 ∧ 1 < v) := by intro ⟨a, b⟩; have := hbool a; omega
    have hser : ∀ src', mayWrite src' o = true → src' ≠ .bar0 → act (s.asked src') src' key e v = (x, 0) → (s.asked src').boot.steward = .running → 
        (s.asked src').serve act src' { op := 2, index := key / 256, sub := key % 256, first := e, count := 1, length := o.size, tag := 0, reserved := 0, data := toLE o.size v } = (x, answerTo key e) := by
      intro src' hm hb ha hrun
      have hi : ¬ (src' = .i3c ∧ (!i3cIndex (key / 256)) = true ∧ (!decide (0xF000 ≤ key / 256 ∧ (2:Nat) ≠ 2)) = true) := by
        rintro ⟨rfl, h1, -⟩
        unfold mayWrite at hm
        split at hm
        · simp [srcPcie] at hm
        · split at hm
          · exact absurd hm (by decide)
          · simp only [hok] at hm; simp_all
      have hform : ¬ ((o.count = 0 ∧ (e ≠ 0 ∨ (1:Nat) ≠ 1)) ∨ (1:Nat) = 0 ∨ o.elems < e + 1) := by omega
      have hlen' : (toLE o.size v).length = o.size := hlen _ _
      have h4 : ¬ (4032 < o.size) := by omega
      simp only [State.serve, State.serveReq, hlen', hi, hkk, hkey', hobj _ hrun, hform, hvals, State.writeObject, hm, hacc.1, hacc.2, State.writeElems, hlo', hok, ha, List.any_cons, List.any_nil, h4]
      have hi' : ¬ (src' = .i3c ∧ i3cIndex (key / 256) = false) := by
        rintro ⟨rfl, h1⟩; apply hi; simp [h1]
      simp [hbb, answerTo, hi']
    have hrun' : ∀ src', (s.asked src').boot.steward = .running := by intro src'; cases src' <;> exact hr
    have := hser _ hmay (by simp) hact (hrun' _)
    simp only [State.asked] at this
    first
    | (have hl := hl rfl; simp [dictAccess, dictMessage, hfit, State.reaches, srcPcie, hr, State.serving, hl, this])
    | (have h := hop _ rfl; simp [dictAccess, dictMessage, hfit, State.reaches, srcPcie, hr, State.serving, h, this])
    | simp [dictAccess, dictMessage, hfit, State.reaches, srcPcie, hr, State.serving, this]

end Sys2Proof.Machine
end

