-- ==== Sys2Proof/Laws/Exec.lean ====
section
/-! SUPPORT. Each arm of exec as an equation. -/

namespace Sys2Proof.Machine

@[simp] theorem exec_auxPowerGood (st : Straps) (resetHigh : Bool) (s : State) : exec (.auxPowerGood st resetHigh) s = execAuxPowerGood st resetHigh s := rfl
@[simp] theorem exec_bootTimeout (s : State) : exec (.bootTimeout) s = execBootTimeout s := rfl
@[simp] theorem exec_mainPowerApplied (s : State) : exec (.mainPowerApplied) s = execMainPowerApplied s := rfl
@[simp] theorem exec_regulatorStart (s : State) : exec (.regulatorStart) s = execRegulatorStart s := rfl
@[simp] theorem exec_perstDeassert (s : State) : exec (.perstDeassert) s = execPerstDeassert s := rfl
@[simp] theorem exec_perstAssert (s : State) : exec (.perstAssert) s = execPerstAssert s := rfl
@[simp] theorem exec_modResetNAssert (s : State) : exec (.modResetNAssert) s = execModResetNAssert s := rfl
@[simp] theorem exec_auxResetNAssert (s : State) : exec (.auxResetNAssert) s = execAuxResetNAssert s := rfl
@[simp] theorem exec_mainSupplyFault (s : State) : exec (.mainSupplyFault) s = execMainSupplyFault s := rfl
@[simp] theorem exec_auxUndervoltage (s : State) : exec (.auxUndervoltage) s = execAuxUndervoltage s := rfl
@[simp] theorem exec_refclkLoss (clk : RefClk) (s : State) : exec (.refclkLoss clk) s = execRefclkLoss clk s := rfl
@[simp] theorem exec_thermalSample (rs : List SensorReading) (s : State) : exec (.thermalSample rs) s = execThermalSample rs s := rfl
@[simp] theorem exec_shutdownLockoutExpiry (s : State) : exec (.shutdownLockoutExpiry) s = execShutdownLockoutExpiry s := rfl
@[simp] theorem exec_tapReset (s : State) : exec (.tapReset) s = execTapReset s := rfl
@[simp] theorem exec_bypass (s : State) : exec (.bypass) s = execBypass s := rfl
@[simp] theorem exec_idcode (s : State) : exec (.idcode) s = execIdcode s := rfl
@[simp] theorem exec_samplePreload (lands : Nat) (scan : Nat) (s : State) : exec (.samplePreload lands scan) s = execSamplePreload lands scan s := rfl
@[simp] theorem exec_extest (lands : Nat) (scan : Nat) (s : State) : exec (.extest lands scan) s = execExtest lands scan s := rfl
@[simp] theorem exec_extestPulse (lands : Nat) (scan : Nat) (s : State) : exec (.extestPulse lands scan) s = execExtestPulse lands scan s := rfl
@[simp] theorem exec_extestTrain (lands : Nat) (scan : Nat) (s : State) : exec (.extestTrain lands scan) s = execExtestTrain lands scan s := rfl
@[simp] theorem exec_updateBegin (src : Source) (s : State) : exec (.updateBegin src) s = execUpdateBegin src s := rfl
@[simp] theorem exec_updateFetch (src : Source) (s : State) : exec (.updateFetch src) s = execUpdateFetch src s := rfl
@[simp] theorem exec_fetchComplete (bytes : Bytes) (s : State) : exec (.fetchComplete bytes) s = execFetchComplete bytes s := rfl
@[simp] theorem exec_updateVerify (src : Source) (s : State) : exec (.updateVerify src) s = execUpdateVerify src s := rfl
@[simp] theorem exec_updateApply (src : Source) (s : State) : exec (.updateApply src) s = execUpdateApply src s := rfl
@[simp] theorem exec_applyComplete (s : State) : exec (.applyComplete) s = execApplyComplete s := rfl
@[simp] theorem exec_updateActivate (src : Source) (s : State) : exec (.updateActivate src) s = execUpdateActivate src s := rfl
@[simp] theorem exec_updateConfirm (src : Source) (s : State) : exec (.updateConfirm src) s = execUpdateConfirm src s := rfl
@[simp] theorem exec_updateRevert (src : Source) (s : State) : exec (.updateRevert src) s = execUpdateRevert src s := rfl
@[simp] theorem exec_updateCancel (src : Source) (s : State) : exec (.updateCancel src) s = execUpdateCancel src s := rfl
@[simp] theorem exec_recoveryInstall (src : Source) (s : State) : exec (.recoveryInstall src) s = execRecoveryInstall src s := rfl
@[simp] theorem exec_recoveryLeave (src : Source) (s : State) : exec (.recoveryLeave src) s = execRecoveryLeave src s := rfl
@[simp] theorem exec_bringupCommand3 (src : Source) (s : State) : exec (.bringupCommand3 src) s = execBringupCommand3 src s := rfl
@[simp] theorem exec_bringupCommand4 (src : Source) (fs : List Failure) (s : State) : exec (.bringupCommand4 src fs) s = execBringupCommand4 src fs s := rfl
@[simp] theorem exec_bringupCommand5 (src : Source) (s : State) : exec (.bringupCommand5 src) s = execBringupCommand5 src s := rfl
@[simp] theorem exec_bringupCommand6 (src : Source) (s : State) : exec (.bringupCommand6 src) s = execBringupCommand6 src s := rfl
@[simp] theorem exec_bringupCommand7 (src : Source) (s : State) : exec (.bringupCommand7 src) s = execBringupCommand7 src s := rfl
@[simp] theorem exec_stageDone (reason : Nat) (s : State) : exec (.stageDone reason) s = execStageDone reason s := rfl
@[simp] theorem exec_stageLimitExceeded (s : State) : exec (.stageLimitExceeded) s = execStageLimitExceeded s := rfl
@[simp] theorem exec_mapAdopt (src : Source) (v : Nat) (s : State) : exec (.mapAdopt src v) s = execMapAdopt src v s := rfl
@[simp] theorem exec_fuseBurn (src : Source) (v : Nat) (s : State) : exec (.fuseBurn src v) s = execFuseBurn src v s := rfl
@[simp] theorem exec_commission (src : Source) (v : Nat) (s : State) : exec (.commission src v) s = execCommission src v s := rfl
@[simp] theorem exec_decommission (src : Source) (s : State) : exec (.decommission src) s = execDecommission src s := rfl
@[simp] theorem exec_defectNorWrite (s : State) : exec (.defectNorWrite) s = execDefectNorWrite s := rfl
@[simp] theorem exec_bar0Read (off : Nat) (size : Nat) (s : State) : exec (.bar0Read off size) s = execBar0Read off size s := rfl
@[simp] theorem exec_dictWrite (a : DictAccess) (s : State) : exec (.dictWrite a) s = execDictWrite a s := rfl
@[simp] theorem exec_rwtStage (a : DictAccess) (s : State) : exec (.rwtStage a) s = execRwtStage a s := rfl
@[simp] theorem exec_dictRead (src : Source) (r : DictReq) (s : State) : exec (.dictRead src r) s = execDictRead src r s := rfl
@[simp] theorem exec_readStaged (src : Source) (r : DictReq) (s : State) : exec (.readStaged src r) s = execReadStaged src r s := rfl
@[simp] theorem exec_describe (src : Source) (r : DictReq) (s : State) : exec (.describe src r) s = execDescribe src r s := rfl
@[simp] theorem exec_spdm (n : Session) (m : SpdmMsg) (s : State) : exec (.spdm n m) s = execSpdm n m s := rfl
@[simp] theorem exec_mailboxGo (reg : BitVec 64) (buf : Bytes) (s : State) : exec (.mailboxGo reg buf) s = execMailboxGo reg buf s := rfl
@[simp] theorem exec_trashandiDict (f : Frame) (s : State) : exec (.trashandiDict f) s = execTrashandiDict f s := rfl
@[simp] theorem exec_sessionIdleTimeout (n : Session) (s : State) : exec (.sessionIdleTimeout n) s = execSessionIdleTimeout n s := rfl
@[simp] theorem exec_settingsJournalWrite (s : State) : exec (.settingsJournalWrite) s = execSettingsJournalWrite s := rfl
@[simp] theorem exec_settingsErase (src : Source) (v : Nat) (s : State) : exec (.settingsErase src v) s = execSettingsErase src v s := rfl
@[simp] theorem exec_alertCauseClear (src : Source) (mask : BitVec 32) (s : State) : exec (.alertCauseClear src mask) s = execAlertCauseClear src mask s := rfl
@[simp] theorem exec_fmRootHashWrite (src : Source) (hash : Bytes) (s : State) : exec (.fmRootHashWrite src hash) s = execFmRootHashWrite src hash s := rfl
@[simp] theorem exec_stewardLockstepMismatch (s : State) : exec (.stewardLockstepMismatch) s = execStewardLockstepMismatch s := rfl
@[simp] theorem exec_stewardRestartComplete (s : State) : exec (.stewardRestartComplete) s = execStewardRestartComplete s := rfl
@[simp] theorem exec_energyGrantRepeat (s : State) : exec (.energyGrantRepeat) s = execEnergyGrantRepeat s := rfl
@[simp] theorem exec_txnOpen (src : Source) (s : State) : exec (.txnOpen src) s = execTxnOpen src s := rfl
@[simp] theorem exec_txnCommit (src : Source) (s : State) : exec (.txnCommit src) s = execTxnCommit src s := rfl
@[simp] theorem exec_txnAbort (src : Source) (s : State) : exec (.txnAbort src) s = execTxnAbort src s := rfl
@[simp] theorem exec_commitPrepared (s : State) : exec (.commitPrepared) s = execCommitPrepared s := rfl
@[simp] theorem exec_commitPrepareTimeout (s : State) : exec (.commitPrepareTimeout) s = execCommitPrepareTimeout s := rfl
@[simp] theorem exec_commitRetireTimeout (s : State) : exec (.commitRetireTimeout) s = execCommitRetireTimeout s := rfl
@[simp] theorem exec_epoch (n : PacketId) (s : State) : exec (.epoch n) s = execEpoch n s := rfl
@[simp] theorem exec_epochInstant (s : State) : exec (.epochInstant) s = execEpochInstant s := rfl
@[simp] theorem exec_txnIdleTimeout (src : Source) (s : State) : exec (.txnIdleTimeout src) s = execTxnIdleTimeout src s := rfl
@[simp] theorem exec_epochCountCollect (s : State) : exec (.epochCountCollect) s = execEpochCountCollect s := rfl
@[simp] theorem exec_epochRetireOverdue (s : State) : exec (.epochRetireOverdue) s = execEpochRetireOverdue s := rfl
@[simp] theorem exec_stepCommit (g : Meadow) (s : State) : exec (.stepCommit g) s = execStepCommit g s := rfl
@[simp] theorem exec_migratePrecopy (m : Fin 8) (s : State) : exec (.migratePrecopy m) s = execMigratePrecopy m s := rfl
@[simp] theorem exec_precopyComplete (m : Fin 8) (s : State) : exec (.precopyComplete m) s = execPrecopyComplete m s := rfl
@[simp] theorem exec_migrateFreeze (m : Fin 8) (s : State) : exec (.migrateFreeze m) s = execMigrateFreeze m s := rfl
@[simp] theorem exec_freezeComplete (m : Fin 8) (s : State) : exec (.freezeComplete m) s = execFreezeComplete m s := rfl
@[simp] theorem exec_migrateHandoverCopy (m : Fin 8) (s : State) : exec (.migrateHandoverCopy m) s = execMigrateHandoverCopy m s := rfl
@[simp] theorem exec_migrateThaw (m : Fin 8) (s : State) : exec (.migrateThaw m) s = execMigrateThaw m s := rfl
@[simp] theorem exec_migrateRelease (m : Fin 8) (s : State) : exec (.migrateRelease m) s = execMigrateRelease m s := rfl
@[simp] theorem exec_migrateFreezeTimeout (m : Fin 8) (s : State) : exec (.migrateFreezeTimeout m) s = execMigrateFreezeTimeout m s := rfl
@[simp] theorem exec_migrateSelfThaw (m : Fin 8) (s : State) : exec (.migrateSelfThaw m) s = execMigrateSelfThaw m s := rfl
@[simp] theorem exec_spareResume (m : Fin 8) (s : State) : exec (.spareResume m) s = execSpareResume m s := rfl
@[simp] theorem exec_oldEpochForward (n : PacketId) (s : State) : exec (.oldEpochForward n) s = execOldEpochForward n s := rfl
@[simp] theorem exec_add (p : Phys) (d : Reg) (a : Reg) (b : Reg) (s : State) : exec (.add p d a b) s = execAdd p d a b s := rfl
@[simp] theorem exec_sub (p : Phys) (d : Reg) (a : Reg) (b : Reg) (s : State) : exec (.sub p d a b) s = execSub p d a b s := rfl
@[simp] theorem exec_and (p : Phys) (d : Reg) (a : Reg) (b : Reg) (s : State) : exec (.and p d a b) s = execAnd p d a b s := rfl
@[simp] theorem exec_or (p : Phys) (d : Reg) (a : Reg) (b : Reg) (s : State) : exec (.or p d a b) s = execOr p d a b s := rfl
@[simp] theorem exec_xor (p : Phys) (d : Reg) (a : Reg) (b : Reg) (s : State) : exec (.xor p d a b) s = execXor p d a b s := rfl
@[simp] theorem exec_sll (p : Phys) (d : Reg) (a : Reg) (b : Reg) (s : State) : exec (.sll p d a b) s = execSll p d a b s := rfl
@[simp] theorem exec_srl (p : Phys) (d : Reg) (a : Reg) (b : Reg) (s : State) : exec (.srl p d a b) s = execSrl p d a b s := rfl
@[simp] theorem exec_sra (p : Phys) (d : Reg) (a : Reg) (b : Reg) (s : State) : exec (.sra p d a b) s = execSra p d a b s := rfl
@[simp] theorem exec_slt (p : Phys) (d : Reg) (a : Reg) (b : Reg) (s : State) : exec (.slt p d a b) s = execSlt p d a b s := rfl
@[simp] theorem exec_sltu (p : Phys) (d : Reg) (a : Reg) (b : Reg) (s : State) : exec (.sltu p d a b) s = execSltu p d a b s := rfl
@[simp] theorem exec_mul (p : Phys) (d : Reg) (a : Reg) (b : Reg) (s : State) : exec (.mul p d a b) s = execMul p d a b s := rfl
@[simp] theorem exec_mulh (p : Phys) (d : Reg) (a : Reg) (b : Reg) (s : State) : exec (.mulh p d a b) s = execMulh p d a b s := rfl
@[simp] theorem exec_mulhu (p : Phys) (d : Reg) (a : Reg) (b : Reg) (s : State) : exec (.mulhu p d a b) s = execMulhu p d a b s := rfl
@[simp] theorem exec_div (p : Phys) (d : Reg) (a : Reg) (b : Reg) (s : State) : exec (.div p d a b) s = execDiv p d a b s := rfl
@[simp] theorem exec_divu (p : Phys) (d : Reg) (a : Reg) (b : Reg) (s : State) : exec (.divu p d a b) s = execDivu p d a b s := rfl
@[simp] theorem exec_rem (p : Phys) (d : Reg) (a : Reg) (b : Reg) (s : State) : exec (.rem p d a b) s = execRem p d a b s := rfl
@[simp] theorem exec_remu (p : Phys) (d : Reg) (a : Reg) (b : Reg) (s : State) : exec (.remu p d a b) s = execRemu p d a b s := rfl
@[simp] theorem exec_addi (p : Phys) (d : Reg) (a : Reg) (imm : Imm16) (s : State) : exec (.addi p d a imm) s = execAddi p d a imm s := rfl
@[simp] theorem exec_andi (p : Phys) (d : Reg) (a : Reg) (imm : Imm16) (s : State) : exec (.andi p d a imm) s = execAndi p d a imm s := rfl
@[simp] theorem exec_ori (p : Phys) (d : Reg) (a : Reg) (imm : Imm16) (s : State) : exec (.ori p d a imm) s = execOri p d a imm s := rfl
@[simp] theorem exec_xori (p : Phys) (d : Reg) (a : Reg) (imm : Imm16) (s : State) : exec (.xori p d a imm) s = execXori p d a imm s := rfl
@[simp] theorem exec_slti (p : Phys) (d : Reg) (a : Reg) (imm : Imm16) (s : State) : exec (.slti p d a imm) s = execSlti p d a imm s := rfl
@[simp] theorem exec_sltiu (p : Phys) (d : Reg) (a : Reg) (imm : Imm16) (s : State) : exec (.sltiu p d a imm) s = execSltiu p d a imm s := rfl
@[simp] theorem exec_shi (p : Phys) (d : Reg) (a : Reg) (imm : Imm16) (s : State) : exec (.shi p d a imm) s = execShi p d a imm s := rfl
@[simp] theorem exec_lui (p : Phys) (d : Reg) (imm : Imm21) (s : State) : exec (.lui p d imm) s = execLui p d imm s := rfl
@[simp] theorem exec_jal (p : Phys) (d : Reg) (off : Imm21) (s : State) : exec (.jal p d off) s = execJal p d off s := rfl
@[simp] theorem exec_jalr (p : Phys) (d : Reg) (a : Reg) (imm : Imm16) (s : State) : exec (.jalr p d a imm) s = execJalr p d a imm s := rfl
@[simp] theorem exec_beq (p : Phys) (a : Reg) (b : Reg) (off : Imm16) (s : State) : exec (.beq p a b off) s = execBeq p a b off s := rfl
@[simp] theorem exec_bne (p : Phys) (a : Reg) (b : Reg) (off : Imm16) (s : State) : exec (.bne p a b off) s = execBne p a b off s := rfl
@[simp] theorem exec_blt (p : Phys) (a : Reg) (b : Reg) (off : Imm16) (s : State) : exec (.blt p a b off) s = execBlt p a b off s := rfl
@[simp] theorem exec_bge (p : Phys) (a : Reg) (b : Reg) (off : Imm16) (s : State) : exec (.bge p a b off) s = execBge p a b off s := rfl
@[simp] theorem exec_bltu (p : Phys) (a : Reg) (b : Reg) (off : Imm16) (s : State) : exec (.bltu p a b off) s = execBltu p a b off s := rfl
@[simp] theorem exec_bgeu (p : Phys) (a : Reg) (b : Reg) (off : Imm16) (s : State) : exec (.bgeu p a b off) s = execBgeu p a b off s := rfl
@[simp] theorem exec_lb (p : Phys) (d : Reg) (a : Reg) (imm : Imm16) (s : State) : exec (.lb p d a imm) s = execLb p d a imm s := rfl
@[simp] theorem exec_lh (p : Phys) (d : Reg) (a : Reg) (imm : Imm16) (s : State) : exec (.lh p d a imm) s = execLh p d a imm s := rfl
@[simp] theorem exec_lw (p : Phys) (d : Reg) (a : Reg) (imm : Imm16) (s : State) : exec (.lw p d a imm) s = execLw p d a imm s := rfl
@[simp] theorem exec_ld (p : Phys) (d : Reg) (a : Reg) (imm : Imm16) (s : State) : exec (.ld p d a imm) s = execLd p d a imm s := rfl
@[simp] theorem exec_lbu (p : Phys) (d : Reg) (a : Reg) (imm : Imm16) (s : State) : exec (.lbu p d a imm) s = execLbu p d a imm s := rfl
@[simp] theorem exec_lhu (p : Phys) (d : Reg) (a : Reg) (imm : Imm16) (s : State) : exec (.lhu p d a imm) s = execLhu p d a imm s := rfl
@[simp] theorem exec_lwu (p : Phys) (d : Reg) (a : Reg) (imm : Imm16) (s : State) : exec (.lwu p d a imm) s = execLwu p d a imm s := rfl
@[simp] theorem exec_sb (p : Phys) (b : Reg) (a : Reg) (imm : Imm16) (s : State) : exec (.sb p b a imm) s = execSb p b a imm s := rfl
@[simp] theorem exec_sh (p : Phys) (b : Reg) (a : Reg) (imm : Imm16) (s : State) : exec (.sh p b a imm) s = execSh p b a imm s := rfl
@[simp] theorem exec_sw (p : Phys) (b : Reg) (a : Reg) (imm : Imm16) (s : State) : exec (.sw p b a imm) s = execSw p b a imm s := rfl
@[simp] theorem exec_sd (p : Phys) (b : Reg) (a : Reg) (imm : Imm16) (s : State) : exec (.sd p b a imm) s = execSd p b a imm s := rfl
@[simp] theorem exec_claim (p : Phys) (d : Reg) (a : Reg) (b : Reg) (func : Func) (s : State) : exec (.claim p d a b func) s = execClaim p d a b func s := rfl
@[simp] theorem exec_release (p : Phys) (d : Reg) (a : Reg) (b : Reg) (func : Func) (s : State) : exec (.release p d a b func) s = execRelease p d a b func s := rfl
@[simp] theorem exec_pump (p : Phys) (d : Reg) (a : Reg) (b : Reg) (func : Func) (s : State) : exec (.pump p d a b func) s = execPump p d a b func s := rfl
@[simp] theorem exec_swap (p : Phys) (d : Reg) (a : Reg) (b : Reg) (func : Func) (s : State) : exec (.swap p d a b func) s = execSwap p d a b func s := rfl
@[simp] theorem exec_send (p : Phys) (d : Reg) (a : Reg) (b : Reg) (func : Func) (s : State) : exec (.send p d a b func) s = execSend p d a b func s := rfl
@[simp] theorem exec_sendt (p : Phys) (d : Reg) (a : Reg) (b : Reg) (func : Func) (s : State) : exec (.sendt p d a b func) s = execSendt p d a b func s := rfl
@[simp] theorem exec_waitany (p : Phys) (d : Reg) (a : Reg) (b : Reg) (func : Func) (s : State) : exec (.waitany p d a b func) s = execWaitany p d a b func s := rfl
@[simp] theorem exec_fold (p : Phys) (d : Reg) (a : Reg) (b : Reg) (func : Func) (s : State) : exec (.fold p d a b func) s = execFold p d a b func s := rfl
@[simp] theorem exec_token (p : Phys) (d : Reg) (a : Reg) (b : Reg) (func : Func) (s : State) : exec (.token p d a b func) s = execToken p d a b func s := rfl
@[simp] theorem exec_tokenEndWord (p : Phys) (d : Reg) (a : Reg) (b : Reg) (func : Func) (s : State) : exec (.tokenEndWord p d a b func) s = execTokenEndWord p d a b func s := rfl
@[simp] theorem exec_wait (p : Phys) (d : Reg) (a : Reg) (b : Reg) (func : Func) (s : State) : exec (.wait p d a b func) s = execWait p d a b func s := rfl
@[simp] theorem exec_credit (p : Phys) (d : Reg) (a : Reg) (b : Reg) (func : Func) (s : State) : exec (.credit p d a b func) s = execCredit p d a b func s := rfl
@[simp] theorem exec_yield (p : Phys) (d : Reg) (a : Reg) (b : Reg) (func : Func) (s : State) : exec (.yield p d a b func) s = execYield p d a b func s := rfl
@[simp] theorem exec_barrier (p : Phys) (d : Reg) (a : Reg) (b : Reg) (func : Func) (s : State) : exec (.barrier p d a b func) s = execBarrier p d a b func s := rfl
@[simp] theorem exec_heartbeat (p : Phys) (d : Reg) (a : Reg) (b : Reg) (func : Func) (s : State) : exec (.heartbeat p d a b func) s = execHeartbeat p d a b func s := rfl
@[simp] theorem exec_stallRelease (p : Phys) (k : Task16) (s : State) : exec (.stallRelease p k) s = execStallRelease p k s := rfl
@[simp] theorem exec_taskStart (p : Phys) (k : Task16) (fr : StoreFrom) (s : State) : exec (.taskStart p k fr) s = execTaskStart p k fr s := rfl
@[simp] theorem exec_taskStop (p : Phys) (k : Task16) (fr : StoreFrom) (s : State) : exec (.taskStop p k fr) s = execTaskStop p k fr s := rfl
@[simp] theorem exec_taskClearFault (p : Phys) (k : Task16) (fr : StoreFrom) (s : State) : exec (.taskClearFault p k fr) s = execTaskClearFault p k fr s := rfl
@[simp] theorem exec_watchdogExpiry (p : Phys) (k : Task16) (s : State) : exec (.watchdogExpiry p k) s = execWatchdogExpiry p k s := rfl
@[simp] theorem exec_timerWake (p : Phys) (s : State) : exec (.timerWake p) s = execTimerWake p s := rfl
@[simp] theorem exec_maintenanceRequest (p : Phys) (s : State) : exec (.maintenanceRequest p) s = execMaintenanceRequest p s := rfl
@[simp] theorem exec_clockSourceSwitch (p : Phys) (s : State) : exec (.clockSourceSwitch p) s = execClockSourceSwitch p s := rfl
@[simp] theorem exec_matmul (p : Phys) (s : State) : exec (.matmul p) s = execMatmul p s := rfl
@[simp] theorem exec_lacvt (p : Phys) (s : State) : exec (.lacvt p) s = execLacvt p s := rfl
@[simp] theorem exec_vadd (p : Phys) (s : State) : exec (.vadd p) s = execVadd p s := rfl
@[simp] theorem exec_vsub (p : Phys) (s : State) : exec (.vsub p) s = execVsub p s := rfl
@[simp] theorem exec_vmul (p : Phys) (s : State) : exec (.vmul p) s = execVmul p s := rfl
@[simp] theorem exec_vfma (p : Phys) (s : State) : exec (.vfma p) s = execVfma p s := rfl
@[simp] theorem exec_vmax (p : Phys) (s : State) : exec (.vmax p) s = execVmax p s := rfl
@[simp] theorem exec_vmin (p : Phys) (s : State) : exec (.vmin p) s = execVmin p s := rfl
@[simp] theorem exec_vscale (p : Phys) (s : State) : exec (.vscale p) s = execVscale p s := rfl
@[simp] theorem exec_vadds (p : Phys) (s : State) : exec (.vadds p) s = execVadds p s := rfl
@[simp] theorem exec_vabs (p : Phys) (s : State) : exec (.vabs p) s = execVabs p s := rfl
@[simp] theorem exec_vneg (p : Phys) (s : State) : exec (.vneg p) s = execVneg p s := rfl
@[simp] theorem exec_vexp2 (p : Phys) (s : State) : exec (.vexp2 p) s = execVexp2 p s := rfl
@[simp] theorem exec_vexp (p : Phys) (s : State) : exec (.vexp p) s = execVexp p s := rfl
@[simp] theorem exec_vlog2 (p : Phys) (s : State) : exec (.vlog2 p) s = execVlog2 p s := rfl
@[simp] theorem exec_vlog (p : Phys) (s : State) : exec (.vlog p) s = execVlog p s := rfl
@[simp] theorem exec_vrcp (p : Phys) (s : State) : exec (.vrcp p) s = execVrcp p s := rfl
@[simp] theorem exec_vrsqrt (p : Phys) (s : State) : exec (.vrsqrt p) s = execVrsqrt p s := rfl
@[simp] theorem exec_rsum (p : Phys) (s : State) : exec (.rsum p) s = execRsum p s := rfl
@[simp] theorem exec_rmax (p : Phys) (s : State) : exec (.rmax p) s = execRmax p s := rfl
@[simp] theorem exec_vexpsub (p : Phys) (s : State) : exec (.vexpsub p) s = execVexpsub p s := rfl
@[simp] theorem exec_vmulrow (p : Phys) (s : State) : exec (.vmulrow p) s = execVmulrow p s := rfl
@[simp] theorem exec_cvt (p : Phys) (s : State) : exec (.cvt p) s = execCvt p s := rfl
@[simp] theorem exec_vdot (p : Phys) (s : State) : exec (.vdot p) s = execVdot p s := rfl
@[simp] theorem exec_waitingOperationStart (p : Phys) (u : UnitSel) (s : State) : exec (.waitingOperationStart p u) s = execWaitingOperationStart p u s := rfl
@[simp] theorem exec_unitStallRelease (p : Phys) (u : UnitSel) (s : State) : exec (.unitStallRelease p u) s = execUnitStallRelease p u s := rfl
@[simp] theorem exec_unitCompletion (p : Phys) (u : UnitSel) (s : State) : exec (.unitCompletion p u) s = execUnitCompletion p u s := rfl
@[simp] theorem exec_unitCompletionPlaced (p : Phys) (u : UnitSel) (s : State) : exec (.unitCompletionPlaced p u) s = execUnitCompletionPlaced p u s := rfl
@[simp] theorem exec_patrolScrub (p : Phys) (s : State) : exec (.patrolScrub p) s = execPatrolScrub p s := rfl
@[simp] theorem exec_scrubWriteBack (p : Phys) (word : Nat) (s : State) : exec (.scrubWriteBack p word) s = execScrubWriteBack p word s := rfl
@[simp] theorem exec_pumpDescriptorStart (p : Phys) (n : Fin 8) (s : State) : exec (.pumpDescriptorStart p n) s = execPumpDescriptorStart p n s := rfl
@[simp] theorem exec_pumpDescriptorComplete (p : Phys) (n : Fin 8) (j : Nat) (s : State) : exec (.pumpDescriptorComplete p n j) s = execPumpDescriptorComplete p n j s := rfl
@[simp] theorem exec_pumpCompletionPlaced (p : Phys) (n : Fin 8) (s : State) : exec (.pumpCompletionPlaced p n) s = execPumpCompletionPlaced p n s := rfl
@[simp] theorem exec_wellFedDescriptor (p : Phys) (s : State) : exec (.wellFedDescriptor p) s = execWellFedDescriptor p s := rfl
@[simp] theorem exec_pumpRingStore (p : Phys) (n : Fin 8) (fr : StoreFrom) (s : State) : exec (.pumpRingStore p n fr) s = execPumpRingStore p n fr s := rfl
@[simp] theorem exec_troughConfigure (p : Phys) (n : Fin 16) (fr : StoreFrom) (s : State) : exec (.troughConfigure p n fr) s = execTroughConfigure p n fr s := rfl
@[simp] theorem exec_counterStore (p : Phys) (n : Fin 16) (upper : Bool) (fr : StoreFrom) (s : State) : exec (.counterStore p n upper fr) s = execCounterStore p n upper fr s := rfl
@[simp] theorem exec_sluiceRefill (s : State) : exec (.sluiceRefill) s = execSluiceRefill s := rfl
@[simp] theorem exec_sluiceAdmit (p : Phys) (n : PacketId) (s : State) : exec (.sluiceAdmit p n) s = execSluiceAdmit p n s := rfl
@[simp] theorem exec_endRow (p : Phys) (i : StreamInput) (s : State) : exec (.endRow p i) s = execEndRow p i s := rfl
@[simp] theorem exec_endBlock (p : Phys) (i : StreamInput) (s : State) : exec (.endBlock p i) s = execEndBlock p i s := rfl
@[simp] theorem exec_endStep (p : Phys) (i : StreamInput) (s : State) : exec (.endStep p i) s = execEndStep p i s := rfl
@[simp] theorem exec_select (p : Phys) (i : StreamInput) (s : State) : exec (.select p i) s = execSelect p i s := rfl
@[simp] theorem exec_drainToken (p : Phys) (i : StreamInput) (s : State) : exec (.drainToken p i) s = execDrainToken p i s := rfl
@[simp] theorem exec_foldToken (p : Phys) (i : StreamInput) (s : State) : exec (.foldToken p i) s = execFoldToken p i s := rfl
@[simp] theorem exec_barrierToken (p : Phys) (i : StreamInput) (s : State) : exec (.barrierToken p i) s = execBarrierToken p i s := rfl
@[simp] theorem exec_userToken (p : Phys) (i : StreamInput) (s : State) : exec (.userToken p i) s = execUserToken p i s := rfl
@[simp] theorem exec_endWord (p : Phys) (i : StreamInput) (s : State) : exec (.endWord p i) s = execEndWord p i s := rfl
@[simp] theorem exec_steerFire (p : Phys) (u : Fin 4) (s : State) : exec (.steerFire p u) s = execSteerFire p u s := rfl
@[simp] theorem exec_steerStructural (p : Phys) (u : Fin 4) (s : State) : exec (.steerStructural p u) s = execSteerStructural p u s := rfl
@[simp] theorem exec_counterTerminal (p : Phys) (n : Fin 16) (s : State) : exec (.counterTerminal p n) s = execCounterTerminal p n s := rfl
@[simp] theorem exec_counterEmission (p : Phys) (n : Fin 16) (s : State) : exec (.counterEmission p n) s = execCounterEmission p n s := rfl
@[simp] theorem exec_foldSwitch (p : Phys) (s : State) : exec (.foldSwitch p) s = execFoldSwitch p s := rfl
@[simp] theorem exec_graphSourceStop (p : Phys) (n : Fin 32) (s : State) : exec (.graphSourceStop p n) s = execGraphSourceStop p n s := rfl
@[simp] theorem exec_quietContribution (p : Phys) (s : State) : exec (.quietContribution p) s = execQuietContribution p s := rfl
@[simp] theorem exec_drainTimeout (g : Meadow) (s : State) : exec (.drainTimeout g) s = execDrainTimeout g s := rfl
@[simp] theorem exec_streamTelemetrySample (s : State) : exec (.streamTelemetrySample) s = execStreamTelemetrySample s := rfl
@[simp] theorem exec_linkCrcRetry (p : Phys) (dir : Dir) (s : State) : exec (.linkCrcRetry p dir) s = execLinkCrcRetry p dir s := rfl
@[simp] theorem exec_routerHeaderArrival (n : PacketId) (s : State) : exec (.routerHeaderArrival n) s = execRouterHeaderArrival n s := rfl
@[simp] theorem exec_escapeWaitExpiry (n : PacketId) (s : State) : exec (.escapeWaitExpiry n) s = execEscapeWaitExpiry n s := rfl
@[simp] theorem exec_classWaitExpiry (n : PacketId) (s : State) : exec (.classWaitExpiry n) s = execClassWaitExpiry n s := rfl
@[simp] theorem exec_requestIssue (n : PacketId) (s : State) : exec (.requestIssue n) s = execRequestIssue n s := rfl
@[simp] theorem exec_readSpaceClaim (n : PacketId) (s : State) : exec (.readSpaceClaim n) s = execReadSpaceClaim n s := rfl
@[simp] theorem exec_read (n : PacketId) (s : State) : exec (.read n) s = execRead n s := rfl
@[simp] theorem exec_write (n : PacketId) (s : State) : exec (.write n) s = execWrite n s := rfl
@[simp] theorem exec_c4SendArrival (n : PacketId) (s : State) : exec (.c4SendArrival n) s = execC4SendArrival n s := rfl
@[simp] theorem exec_sendPlace (p : Phys) (s : State) : exec (.sendPlace p) s = execSendPlace p s := rfl
@[simp] theorem exec_sendExpiry (p : Phys) (s : State) : exec (.sendExpiry p) s = execSendExpiry p s := rfl
@[simp] theorem exec_reduce (n : PacketId) (s : State) : exec (.reduce n) s = execReduce n s := rfl
@[simp] theorem exec_mcastWrite (n : PacketId) (s : State) : exec (.mcastWrite n) s = execMcastWrite n s := rfl
@[simp] theorem exec_readData (n : PacketId) (s : State) : exec (.readData n) s = execReadData n s := rfl
@[simp] theorem exec_writeAck (n : PacketId) (s : State) : exec (.writeAck n) s = execWriteAck n s := rfl
@[simp] theorem exec_sendDone (n : PacketId) (s : State) : exec (.sendDone n) s = execSendDone n s := rfl
@[simp] theorem exec_quiet (n : PacketId) (s : State) : exec (.quiet n) s = execQuiet n s := rfl
@[simp] theorem exec_drain (n : PacketId) (s : State) : exec (.drain n) s = execDrain n s := rfl
@[simp] theorem exec_resume (n : PacketId) (s : State) : exec (.resume n) s = execResume n s := rfl
@[simp] theorem exec_stallDetect (n : PacketId) (s : State) : exec (.stallDetect n) s = execStallDetect n s := rfl
@[simp] theorem exec_packetTelemetryPublish (s : State) : exec (.packetTelemetryPublish) s = execPacketTelemetryPublish s := rfl
@[simp] theorem exec_wellOpen (p : Phys) (w : Fin 8) (fr : StoreFrom) (s : State) : exec (.wellOpen p w fr) s = execWellOpen p w fr s := rfl
@[simp] theorem exec_wellClose (p : Phys) (w : Fin 8) (fr : StoreFrom) (s : State) : exec (.wellClose p w fr) s = execWellClose p w fr s := rfl
@[simp] theorem exec_wellReset (p : Phys) (w : Fin 8) (fr : StoreFrom) (s : State) : exec (.wellReset p w fr) s = execWellReset p w fr s := rfl
@[simp] theorem exec_wellResettingDone (p : Phys) (w : Fin 8) (s : State) : exec (.wellResettingDone p w) s = execWellResettingDone p w s := rfl
@[simp] theorem exec_laneFail (port : Port) (lane : Fin 8) (s : State) : exec (.laneFail port lane) s = execLaneFail port lane s := rfl
@[simp] theorem exec_portRetrainDone (port : Port) (up : Bool) (s : State) : exec (.portRetrainDone port up) s = execPortRetrainDone port up s := rfl
@[simp] theorem exec_lldpTransmit (sp : SubPort) (s : State) : exec (.lldpTransmit sp) s = execLldpTransmit sp s := rfl
@[simp] theorem exec_lldpReceive (sp : SubPort) (pdu : Bytes) (s : State) : exec (.lldpReceive sp pdu) s = execLldpReceive sp pdu s := rfl
@[simp] theorem exec_arpNdFrame (sp : SubPort) (f : ArpNd) (s : State) : exec (.arpNdFrame sp f) s = execArpNdFrame sp f s := rfl
@[simp] theorem exec_icmpEchoRequest (sp : SubPort) (f : Echo) (s : State) : exec (.icmpEchoRequest sp f) s = execIcmpEchoRequest sp f s := rfl
@[simp] theorem exec_ptpFrame (sp : SubPort) (f : Ptp) (s : State) : exec (.ptpFrame sp f) s = execPtpFrame sp f s := rfl
@[simp] theorem exec_pausePfcFrame (sp : SubPort) (s : State) : exec (.pausePfcFrame sp) s = execPausePfcFrame sp s := rfl
@[simp] theorem exec_otherFrame (sp : SubPort) (cause : DropCause) (s : State) : exec (.otherFrame sp cause) s = execOtherFrame sp cause s := rfl
@[simp] theorem exec_helloSend (die : Die) (s : State) : exec (.helloSend die) s = execHelloSend die s := rfl
@[simp] theorem exec_hello (f : Frame) (s : State) : exec (.hello f) s = execHello f s := rfl
@[simp] theorem exec_helloReply (f : Frame) (s : State) : exec (.helloReply f) s = execHelloReply f s := rfl
@[simp] theorem exec_peerHelloTimeout (peer : Peer) (s : State) : exec (.peerHelloTimeout peer) s = execPeerHelloTimeout peer s := rfl
@[simp] theorem exec_ack (f : Frame) (s : State) : exec (.ack f) s = execAck f s := rfl
@[simp] theorem exec_ackTimer (die : Die) (peer : Peer) (space : Space) (s : State) : exec (.ackTimer die peer space) s = execAckTimer die peer space s := rfl
@[simp] theorem exec_retransmitTimeout (die : Die) (peer : Peer) (space : Space) (seq : Nat) (s : State) : exec (.retransmitTimeout die peer space seq) s = execRetransmitTimeout die peer space seq s := rfl
@[simp] theorem exec_trashandiWrite (f : Frame) (s : State) : exec (.trashandiWrite f) s = execTrashandiWrite f s := rfl
@[simp] theorem exec_trashandiRead (f : Frame) (s : State) : exec (.trashandiRead f) s = execTrashandiRead f s := rfl
@[simp] theorem exec_trashandiSend (f : Frame) (s : State) : exec (.trashandiSend f) s = execTrashandiSend f s := rfl
@[simp] theorem exec_trashandiReduce (f : Frame) (s : State) : exec (.trashandiReduce f) s = execTrashandiReduce f s := rfl
@[simp] theorem exec_groupCommit (f : Frame) (s : State) : exec (.groupCommit f) s = execGroupCommit f s := rfl
@[simp] theorem exec_groupCommitApply (die : Die) (e : Nat) (s : State) : exec (.groupCommitApply die e) s = execGroupCommitApply die e s := rfl
@[simp] theorem exec_groupAbort (f : Frame) (s : State) : exec (.groupAbort f) s = execGroupAbort f s := rfl
@[simp] theorem exec_groupTimeout (die : Die) (e : Nat) (s : State) : exec (.groupTimeout die e) s = execGroupTimeout die e s := rfl
@[simp] theorem exec_trashandiReply (f : Frame) (s : State) : exec (.trashandiReply f) s = execTrashandiReply f s := rfl
@[simp] theorem exec_outboundWindowAccess (n : PacketId) (s : State) : exec (.outboundWindowAccess n) s = execOutboundWindowAccess n s := rfl
@[simp] theorem exec_groupCommitControl (n : PacketId) (s : State) : exec (.groupCommitControl n) s = execGroupCommitControl n s := rfl
@[simp] theorem exec_groupAbortControl (n : PacketId) (s : State) : exec (.groupAbortControl n) s = execGroupAbortControl n s := rfl
@[simp] theorem exec_reductionArm (n : PacketId) (s : State) : exec (.reductionArm n) s = execReductionArm n s := rfl
@[simp] theorem exec_remoteSend (n : PacketId) (s : State) : exec (.remoteSend n) s = execRemoteSend n s := rfl
@[simp] theorem exec_fenceRoleWrite (src : Source) (e : Fin 256) (v : BitVec 32) (s : State) : exec (.fenceRoleWrite src e v) s = execFenceRoleWrite src e v s := rfl
@[simp] theorem exec_portFenceWrite (src : Source) (v : BitVec 32) (s : State) : exec (.portFenceWrite src v) s = execPortFenceWrite src v s := rfl
@[simp] theorem exec_alloc (f : Frame) (s : State) : exec (.alloc f) s = execAlloc f s := rfl
@[simp] theorem exec_pageWrite (f : Frame) (s : State) : exec (.pageWrite f) s = execPageWrite f s := rfl
@[simp] theorem exec_free (f : Frame) (s : State) : exec (.free f) s = execFree f s := rfl
@[simp] theorem exec_pageRead (f : Frame) (s : State) : exec (.pageRead f) s = execPageRead f s := rfl
@[simp] theorem exec_attend (f : Frame) (s : State) : exec (.attend f) s = execAttend f s := rfl
@[simp] theorem exec_attendDone (p : Phys) (s : State) : exec (.attendDone p) s = execAttendDone p s := rfl
@[simp] theorem exec_forwardedPageRequest (n : PacketId) (s : State) : exec (.forwardedPageRequest n) s = execForwardedPageRequest n s := rfl
@[simp] theorem exec_pageForwardReply (n : PacketId) (s : State) : exec (.pageForwardReply n) s = execPageForwardReply n s := rfl
@[simp] theorem exec_pageSealTimeout (die : Die) (fr : Nat) (s : State) : exec (.pageSealTimeout die fr) s = execPageSealTimeout die fr s := rfl
@[simp] theorem exec_pageCommandPut (n : PacketId) (s : State) : exec (.pageCommandPut n) s = execPageCommandPut n s := rfl
@[simp] theorem exec_pageCommandGet (n : PacketId) (s : State) : exec (.pageCommandGet n) s = execPageCommandGet n s := rfl
@[simp] theorem exec_pageCommandAttend (n : PacketId) (s : State) : exec (.pageCommandAttend n) s = execPageCommandAttend n s := rfl
@[simp] theorem exec_pageCommandFree (n : PacketId) (s : State) : exec (.pageCommandFree n) s = execPageCommandFree n s := rfl
@[simp] theorem exec_rotationSlot (s : State) : exec (.rotationSlot) s = execRotationSlot s := rfl
@[simp] theorem exec_rotationTestComplete (i : Fin 8) (fs : List Failure) (s : State) : exec (.rotationTestComplete i fs) s = execRotationTestComplete i fs s := rfl
@[simp] theorem exec_shadowAssign (s : State) : exec (.shadowAssign) s = execShadowAssign s := rfl
@[simp] theorem exec_shadowCopyDone (p : Phys) (s : State) : exec (.shadowCopyDone p) s = execShadowCopyDone p s := rfl
@[simp] theorem exec_shadowHoldTimeout (p : Phys) (s : State) : exec (.shadowHoldTimeout p) s = execShadowHoldTimeout p s := rfl
@[simp] theorem exec_shadowCompare (p : Phys) (sig : BitVec 64) (s : State) : exec (.shadowCompare p sig) s = execShadowCompare p sig s := rfl
@[simp] theorem exec_thirdRunComplete (p : Phys) (sig : Option (BitVec 64)) (s : State) : exec (.thirdRunComplete p sig) s = execThirdRunComplete p sig s := rfl
@[simp] theorem exec_errorReport (s : State) : exec (.errorReport) s = execErrorReport s := rfl
@[simp] theorem exec_errlogCoalesceExpiry (key : Nat) (s : State) : exec (.errlogCoalesceExpiry key) s = execErrlogCoalesceExpiry key s := rfl
@[simp] theorem exec_marginMeasurement (p : Phys) (ps : Int) (s : State) : exec (.marginMeasurement p ps) s = execMarginMeasurement p ps s := rfl
@[simp] theorem exec_eolProjection (s : State) : exec (.eolProjection) s = execEolProjection s := rfl
@[simp] theorem exec_d1Reset (src : Source) (p : Phys) (clear : Bool) (s : State) : exec (.d1Reset src p clear) s = execD1Reset src p clear s := rfl
@[simp] theorem exec_d2Reset (src : Source) (p : Phys) (s : State) : exec (.d2Reset src p) s = execD2Reset src p s := rfl
@[simp] theorem exec_d3Reset (src : Source) (g : Meadow) (clear : Bool) (s : State) : exec (.d3Reset src g clear) s = execD3Reset src g clear s := rfl
@[simp] theorem exec_d4Reset (src : Source) (port : Port) (s : State) : exec (.d4Reset src port) s = execD4Reset src port s := rfl
@[simp] theorem exec_d5Reset (src : Source) (s : State) : exec (.d5Reset src) s = execD5Reset src s := rfl
@[simp] theorem exec_d6Reset (src : Source) (s : State) : exec (.d6Reset src) s = execD6Reset src s := rfl
@[simp] theorem exec_stepTimeout (g : Meadow) (s : State) : exec (.stepTimeout g) s = execStepTimeout g s := rfl
@[simp] theorem exec_tileRingTimeout (p : Phys) (s : State) : exec (.tileRingTimeout p) s = execTileRingTimeout p s := rfl
@[simp] theorem exec_dumpCommand (src : Source) (v : BitVec 64) (s : State) : exec (.dumpCommand src v) s = execDumpCommand src v s := rfl
@[simp] theorem exec_dumpUnitAbsent (unit : Nat) (s : State) : exec (.dumpUnitAbsent unit) s = execDumpUnitAbsent unit s := rfl
@[simp] theorem exec_dumpUnprotect (src : Source) (n : Nat) (s : State) : exec (.dumpUnprotect src n) s = execDumpUnprotect src n s := rfl
@[simp] theorem exec_jobLoad (src : Source) (g : Meadow) (img : GraphImage) (s : State) : exec (.jobLoad src g img) s = execJobLoad src g img s := rfl
@[simp] theorem exec_jobUnload (src : Source) (g : Meadow) (s : State) : exec (.jobUnload src g) s = execJobUnload src g s := rfl
@[simp] theorem exec_jobIsolate (src : Source) (g : Meadow) (s : State) : exec (.jobIsolate src g) s = execJobIsolate src g s := rfl
@[simp] theorem exec_jobRecover (src : Source) (g : Meadow) (s : State) : exec (.jobRecover src g) s = execJobRecover src g s := rfl
@[simp] theorem exec_reprotectionComplete (g : Meadow) (s : State) : exec (.reprotectionComplete g) s = execReprotectionComplete g s := rfl
@[simp] theorem exec_resultPost (n : PacketId) (s : State) : exec (.resultPost n) s = execResultPost n s := rfl
@[simp] theorem exec_rqConsumedWrite (q : Fin 64) (v : BitVec 64) (s : State) : exec (.rqConsumedWrite q v) s = execRqConsumedWrite q v s := rfl
@[simp] theorem exec_mmioAcknowledge (q : Fin 64) (v : BitVec 64) (s : State) : exec (.mmioAcknowledge q v) s = execMmioAcknowledge q v s := rfl
@[simp] theorem exec_doorbellWrite (d : Fin 256) (v : BitVec 64) (s : State) : exec (.doorbellWrite d v) s = execDoorbellWrite d v s := rfl
@[simp] theorem exec_doorbellTakeUp (d : Fin 256) (s : State) : exec (.doorbellTakeUp d) s = execDoorbellTakeUp d s := rfl
@[simp] theorem exec_bar2Write (off : Nat) (bytes : Bytes) (s : State) : exec (.bar2Write off bytes) s = execBar2Write off bytes s := rfl
@[simp] theorem exec_bar2Read (off : Nat) (len : Nat) (s : State) : exec (.bar2Read off len) s = execBar2Read off len s := rfl
@[simp] theorem exec_powerEntryRetry (p : Phys) (s : State) : exec (.powerEntryRetry p) s = execPowerEntryRetry p s := rfl
@[simp] theorem exec_t2ReturnTimer (p : Phys) (s : State) : exec (.t2ReturnTimer p) s = execT2ReturnTimer p s := rfl
@[simp] theorem exec_meadowPowerWake (src : Source) (g : Meadow) (s : State) : exec (.meadowPowerWake src g) s = execMeadowPowerWake src g s := rfl
@[simp] theorem exec_meadowPowerT2 (src : Source) (g : Meadow) (s : State) : exec (.meadowPowerT2 src g) s = execMeadowPowerT2 src g s := rfl
@[simp] theorem exec_meadowPowerT3 (src : Source) (g : Meadow) (s : State) : exec (.meadowPowerT3 src g) s = execMeadowPowerT3 src g s := rfl
@[simp] theorem exec_moduleStateRequestM0 (src : Source) (s : State) : exec (.moduleStateRequestM0 src) s = execModuleStateRequestM0 src s := rfl
@[simp] theorem exec_moduleStateRequestM2 (src : Source) (s : State) : exec (.moduleStateRequestM2 src) s = execModuleStateRequestM2 src s := rfl
@[simp] theorem exec_moduleStateRequestM3 (src : Source) (s : State) : exec (.moduleStateRequestM3 src) s = execModuleStateRequestM3 src s := rfl
@[simp] theorem exec_moduleStateRequestM4 (src : Source) (s : State) : exec (.moduleStateRequestM4 src) s = execModuleStateRequestM4 src s := rfl
@[simp] theorem exec_m1IdleEntry (s : State) : exec (.m1IdleEntry) s = execM1IdleEntry s := rfl
@[simp] theorem exec_governorInterval (ms : PowerSample) (s : State) : exec (.governorInterval ms) s = execGovernorInterval ms s := rfl
@[simp] theorem exec_auxResetNDeassert (st : Straps) (s : State) : exec (.auxResetNDeassert st) s = execAuxResetNDeassert st s := rfl
@[simp] theorem exec_handoverCopyComplete (m : Fin 8) (s : State) : exec (.handoverCopyComplete m) s = execHandoverCopyComplete m s := rfl
@[simp] theorem exec_dataWord (p : Phys) (i : StreamInput) (s : State) : exec (.dataWord p i) s = execDataWord p i s := rfl

end Sys2Proof.Machine
end

