-- ==== Sys2Proof/Laws/KeptBase.lean ====
section
/-! SUPPORT. What the operations of Ops, DefectList, Frames, TilePower, Seq, Cistern, StreamOps, LoadStore, Completion, PumpOps, Pumps, Header, Mech, UnitOps, TensorOps, VectorOps, Units, Streams, PacketOps leave unchanged: the queue of waiting
commands and, but for the three that burn them, the fuses. -/

namespace Sys2Proof.Machine

/-- The state that an issue has already made. -/
def Issue.after : Issue → Option State
  | .retire s => some s
  | .jump s _ => some s
  | .fault _ _ => none
  | .stall _ => none
  | .begun s _ => some s
  | .wait s => some s

/-- What every step of a fold keeps, the fold keeps. -/
theorem foldl_inv {α β : Type} {P : α → Prop} {g : α → β → α} {l : List β} {a : α} (h : ∀ x b, P x → P (g x b)) (h0 : P a) :
    P (l.foldl g a) :=
  List.foldlRecOn l g h0 fun x hx b _ => h x b hx

theorem ite_eq_of {α : Type} {c : Prop} [Decidable c] {a b x : α} (h : a = x) (h' : b = x) : (if c then a else b) = x := by split <;> assumption
theorem foldl_pending {β : Type} {g : State → β → State} {l : List β} {s : State} {x}
    (h : ∀ s x, (g s x).pending = s.pending) (hs : s.pending = x) : (l.foldl g s).pending = x := by
  induction l generalizing s with
  | nil => exact hs
  | cons x l ih => exact ih (by rw [h, hs])
@[simp] theorem ite_pending {c : Prop} [Decidable c] (a b : State) : (if c then a else b).pending = if c then a.pending else b.pending := by split <;> rfl

theorem foldl_fused {β : Type} {g : State → β → State} {l : List β} {s : State} {x}
    (h : ∀ s x, (g s x).fused = s.fused) (hs : s.fused = x) : (l.foldl g s).fused = x := by
  induction l generalizing s with
  | nil => exact hs
  | cons x l ih => exact ih (by rw [h, hs])
@[simp] theorem ite_fused {c : Prop} [Decidable c] (a b : State) : (if c then a else b).fused = if c then a.fused else b.fused := by split <;> rfl

/-! Ops -/

@[simp] theorem State.raiseFor_pending (a0 : State) (a1 : Nat) (a2 : Nat) (a3 : Report) : (State.raiseFor a0 a1 a2 a3).pending = a0.pending := by
  unfold State.raiseFor
  dsimp only
  split <;> split <;> simp
@[simp] theorem State.raise_pending (a0 : State) (a1 : Report) : (State.raise a0 a1).pending = a0.pending := by
  unfold State.raise
  repeat' (first | with_reducible rfl | (simp; done) | split | (intro _) | (with_reducible refine foldl_pending (fun _ _ => ?_) ?_) | simp)
@[simp] theorem State.raiseTile_pending (a0 : State) (a1 : Nat) (a2 : Nat) (a3 : Nat) : (State.raiseTile a0 a1 a2 a3).pending = a0.pending := by
  unfold State.raiseTile
  repeat' (first | with_reducible rfl | (simp; done) | split | (intro _) | (with_reducible refine foldl_pending (fun _ _ => ?_) ?_) | simp)
@[simp] theorem State.raiseDie_pending (a0 : State) (a1 : Nat) (a2 : Nat) (a3 : Nat) : (State.raiseDie a0 a1 a2 a3).pending = a0.pending := by
  unfold State.raiseDie
  repeat' (first | with_reducible rfl | (simp; done) | split | (intro _) | (with_reducible refine foldl_pending (fun _ _ => ?_) ?_) | simp)
@[simp] theorem State.releaseOwn_pending (a0 : State) (a1 : Tbl (Option Nat)) : (State.releaseOwn a0 a1).pending = a0.pending := by
  unfold State.releaseOwn
  repeat' (first | with_reducible rfl | (simp; done) | split | (intro _) | (with_reducible refine foldl_pending (fun _ _ => ?_) ?_) | simp)
@[simp] theorem State.raiseFor_fused (a0 : State) (a1 : Nat) (a2 : Nat) (a3 : Report) : (State.raiseFor a0 a1 a2 a3).fused = a0.fused := by
  unfold State.raiseFor
  dsimp only
  split <;> split <;> simp
@[simp] theorem State.raise_fused (a0 : State) (a1 : Report) : (State.raise a0 a1).fused = a0.fused := by
  unfold State.raise
  repeat' (first | with_reducible rfl | (simp; done) | split | (intro _) | (with_reducible refine foldl_fused (fun _ _ => ?_) ?_) | simp)
@[simp] theorem State.raiseTile_fused (a0 : State) (a1 : Nat) (a2 : Nat) (a3 : Nat) : (State.raiseTile a0 a1 a2 a3).fused = a0.fused := by
  unfold State.raiseTile
  repeat' (first | with_reducible rfl | (simp; done) | split | (intro _) | (with_reducible refine foldl_fused (fun _ _ => ?_) ?_) | simp)
@[simp] theorem State.raiseDie_fused (a0 : State) (a1 : Nat) (a2 : Nat) (a3 : Nat) : (State.raiseDie a0 a1 a2 a3).fused = a0.fused := by
  unfold State.raiseDie
  repeat' (first | with_reducible rfl | (simp; done) | split | (intro _) | (with_reducible refine foldl_fused (fun _ _ => ?_) ?_) | simp)
@[simp] theorem State.releaseOwn_fused (a0 : State) (a1 : Tbl (Option Nat)) : (State.releaseOwn a0 a1).fused = a0.fused := by
  unfold State.releaseOwn
  repeat' (first | with_reducible rfl | (simp; done) | split | (intro _) | (with_reducible refine foldl_fused (fun _ _ => ?_) ?_) | simp)

/-! DefectList -/

@[simp] theorem State.recordDefect_pending (a0 : State) (a1 : Nat) (a2 : Nat) (a3 : Nat) (a4 : Nat) (a5 : Nat) (a6 : Nat) : (State.recordDefect a0 a1 a2 a3 a4 a5 a6).pending = a0.pending := by
  unfold State.recordDefect
  repeat' (first | with_reducible rfl | (simp; done) | split | (intro _) | (with_reducible refine foldl_pending (fun _ _ => ?_) ?_) | simp)
@[simp] theorem State.lineCorrected_pending (a0 : State) (a1 : Nat) (a2 : Nat) : (State.lineCorrected a0 a1 a2).pending = a0.pending := by
  unfold State.lineCorrected
  repeat' (first | with_reducible rfl | (simp; done) | split | (intro _) | (with_reducible refine foldl_pending (fun _ _ => ?_) ?_) | simp)
@[simp] theorem State.recordDefect_fused (a0 : State) (a1 : Nat) (a2 : Nat) (a3 : Nat) (a4 : Nat) (a5 : Nat) (a6 : Nat) : (State.recordDefect a0 a1 a2 a3 a4 a5 a6).fused = a0.fused := by
  unfold State.recordDefect
  repeat' (first | with_reducible rfl | (simp; done) | split | (intro _) | (with_reducible refine foldl_fused (fun _ _ => ?_) ?_) | simp)
@[simp] theorem State.lineCorrected_fused (a0 : State) (a1 : Nat) (a2 : Nat) : (State.lineCorrected a0 a1 a2).fused = a0.fused := by
  unfold State.lineCorrected
  repeat' (first | with_reducible rfl | (simp; done) | split | (intro _) | (with_reducible refine foldl_fused (fun _ _ => ?_) ?_) | simp)

/-! Frames -/

@[simp] theorem State.modFrame_pending (a0 : State) (a1 : Nat) (a2 : Nat) (a3 : PageFrame → PageFrame) : (State.modFrame a0 a1 a2 a3).pending = a0.pending := by
  unfold State.modFrame
  repeat' (first | with_reducible rfl | (simp; done) | split | (intro _) | (with_reducible refine foldl_pending (fun _ _ => ?_) ?_) | simp)
@[simp] theorem State.pagesLost_pending (a0 : State) (a1 : Nat) (a2 : Nat) : (State.pagesLost a0 a1 a2).pending = a0.pending := by
  unfold State.pagesLost
  repeat' (first | with_reducible rfl | (simp; done) | split | (intro _) | (with_reducible refine foldl_pending (fun _ _ => ?_) ?_) | simp)
@[simp] theorem State.frameDone_pending (a0 : State) (a1 : Nat) (a2 : Nat) : (State.frameDone a0 a1 a2).pending = a0.pending := by
  unfold State.frameDone
  repeat' (first | with_reducible rfl | (simp; done) | split | (intro _) | (with_reducible refine foldl_pending (fun _ _ => ?_) ?_) | simp)
@[simp] theorem State.pageProgram_pending (a0 : State) (a1 : Nat) : (State.pageProgram a0 a1).pending = a0.pending := by
  unfold State.pageProgram
  repeat' (first | with_reducible rfl | (simp; done) | split | (intro _) | (with_reducible refine foldl_pending (fun _ _ => ?_) ?_) | simp)
@[simp] theorem State.modFrame_fused (a0 : State) (a1 : Nat) (a2 : Nat) (a3 : PageFrame → PageFrame) : (State.modFrame a0 a1 a2 a3).fused = a0.fused := by
  unfold State.modFrame
  repeat' (first | with_reducible rfl | (simp; done) | split | (intro _) | (with_reducible refine foldl_fused (fun _ _ => ?_) ?_) | simp)
@[simp] theorem State.pagesLost_fused (a0 : State) (a1 : Nat) (a2 : Nat) : (State.pagesLost a0 a1 a2).fused = a0.fused := by
  unfold State.pagesLost
  repeat' (first | with_reducible rfl | (simp; done) | split | (intro _) | (with_reducible refine foldl_fused (fun _ _ => ?_) ?_) | simp)
@[simp] theorem State.frameDone_fused (a0 : State) (a1 : Nat) (a2 : Nat) : (State.frameDone a0 a1 a2).fused = a0.fused := by
  unfold State.frameDone
  repeat' (first | with_reducible rfl | (simp; done) | split | (intro _) | (with_reducible refine foldl_fused (fun _ _ => ?_) ?_) | simp)
@[simp] theorem State.pageProgram_fused (a0 : State) (a1 : Nat) : (State.pageProgram a0 a1).fused = a0.fused := by
  unfold State.pageProgram
  repeat' (first | with_reducible rfl | (simp; done) | split | (intro _) | (with_reducible refine foldl_fused (fun _ _ => ?_) ?_) | simp)

/-! TilePower -/

@[simp] theorem State.leftRun_pending (a0 : State) (a1 : Tile) (a2 : Nat) : (State.leftRun a0 a1 a2).pending = a0.pending := by
  unfold State.leftRun
  repeat' (first | with_reducible rfl | (simp; done) | split | (intro _) | (with_reducible refine foldl_pending (fun _ _ => ?_) ?_) | simp)
@[simp] theorem State.refuseEntry_pending (a0 : State) (a1 : Nat) (a2 : Nat) : (State.refuseEntry a0 a1 a2).pending = a0.pending := by
  unfold State.refuseEntry
  repeat' (first | with_reducible rfl | (simp; done) | split | (intro _) | (with_reducible refine foldl_pending (fun _ _ => ?_) ?_) | simp)
@[simp] theorem State.entered_pending (a0 : State) (a1 : Nat) (a2 : Nat) : (State.entered a0 a1 a2).pending = a0.pending := by
  unfold State.entered
  repeat' (first | with_reducible rfl | (simp; done) | split | (intro _) | (with_reducible refine foldl_pending (fun _ _ => ?_) ?_) | simp)
@[simp] theorem State.enterNow_pending (a0 : State) (a1 : Nat) (a2 : Nat) : (State.enterNow a0 a1 a2).pending = a0.pending := by
  unfold State.enterNow
  repeat' (first | with_reducible rfl | (simp; done) | split | (intro _) | (with_reducible refine foldl_pending (fun _ _ => ?_) ?_) | simp)
@[simp] theorem State.enterPower_pending (a0 : State) (a1 : Nat) (a2 : Nat) : (State.enterPower a0 a1 a2).pending = a0.pending := by
  unfold State.enterPower
  repeat' (first | with_reducible rfl | (simp; done) | split | (intro _) | (with_reducible refine foldl_pending (fun _ _ => ?_) ?_) | simp)
@[simp] theorem State.entriesEnd_pending (a0 : State) : (State.entriesEnd a0).pending = a0.pending := by
  unfold State.entriesEnd
  repeat' (first | with_reducible rfl | (simp; done) | split | (intro _) | (with_reducible refine foldl_pending (fun _ _ => ?_) ?_) | simp)
@[simp] theorem State.abortEntry_pending (a0 : State) (a1 : Nat) : (State.abortEntry a0 a1).pending = a0.pending := by
  unfold State.abortEntry
  repeat' (first | with_reducible rfl | (simp; done) | split | (intro _) | (with_reducible refine foldl_pending (fun _ _ => ?_) ?_) | simp)
@[simp] theorem State.setPowerCmd_pending (a0 : State) (a1 : Nat) (a2 : PowerCmd) : (State.setPowerCmd a0 a1 a2).pending = a0.pending := by
  unfold State.setPowerCmd
  repeat' (first | with_reducible rfl | (simp; done) | split | (intro _) | (with_reducible refine foldl_pending (fun _ _ => ?_) ?_) | simp)
@[simp] theorem State.powerTile_pending (a0 : State) (a1 : Nat) (a2 : Nat) : (State.powerTile a0 a1 a2).pending = a0.pending := by
  unfold State.powerTile
  repeat' (first | with_reducible rfl | (simp; done) | split | (intro _) | (with_reducible refine foldl_pending (fun _ _ => ?_) ?_) | simp)
@[simp] theorem State.moduleEntered_pending (a0 : State) : (State.moduleEntered a0).pending = a0.pending := by
  unfold State.moduleEntered
  repeat' (first | with_reducible rfl | (simp; done) | split | (intro _) | (with_reducible refine foldl_pending (fun _ _ => ?_) ?_) | simp)
@[simp] theorem State.powerDrained_pending (a0 : State) (a1 : Nat) : (State.powerDrained a0 a1).pending = a0.pending := by
  unfold State.powerDrained
  repeat' (first | with_reducible rfl | (simp; done) | split | (intro _) | (with_reducible refine foldl_pending (fun _ _ => ?_) ?_) | simp)
@[simp] theorem State.powerDropped_pending (a0 : State) (a1 : Nat) : (State.powerDropped a0 a1).pending = a0.pending := by
  unfold State.powerDropped
  repeat' (first | with_reducible rfl | (simp; done) | split | (intro _) | (with_reducible refine foldl_pending (fun _ _ => ?_) ?_) | simp)
@[simp] theorem State.leftRun_fused (a0 : State) (a1 : Tile) (a2 : Nat) : (State.leftRun a0 a1 a2).fused = a0.fused := by
  unfold State.leftRun
  repeat' (first | with_reducible rfl | (simp; done) | split | (intro _) | (with_reducible refine foldl_fused (fun _ _ => ?_) ?_) | simp)
@[simp] theorem State.refuseEntry_fused (a0 : State) (a1 : Nat) (a2 : Nat) : (State.refuseEntry a0 a1 a2).fused = a0.fused := by
  unfold State.refuseEntry
  repeat' (first | with_reducible rfl | (simp; done) | split | (intro _) | (with_reducible refine foldl_fused (fun _ _ => ?_) ?_) | simp)
@[simp] theorem State.entered_fused (a0 : State) (a1 : Nat) (a2 : Nat) : (State.entered a0 a1 a2).fused = a0.fused := by
  unfold State.entered
  repeat' (first | with_reducible rfl | (simp; done) | split | (intro _) | (with_reducible refine foldl_fused (fun _ _ => ?_) ?_) | simp)
@[simp] theorem State.enterNow_fused (a0 : State) (a1 : Nat) (a2 : Nat) : (State.enterNow a0 a1 a2).fused = a0.fused := by
  unfold State.enterNow
  repeat' (first | with_reducible rfl | (simp; done) | split | (intro _) | (with_reducible refine foldl_fused (fun _ _ => ?_) ?_) | simp)
@[simp] theorem State.enterPower_fused (a0 : State) (a1 : Nat) (a2 : Nat) : (State.enterPower a0 a1 a2).fused = a0.fused := by
  unfold State.enterPower
  repeat' (first | with_reducible rfl | (simp; done) | split | (intro _) | (with_reducible refine foldl_fused (fun _ _ => ?_) ?_) | simp)
@[simp] theorem State.entriesEnd_fused (a0 : State) : (State.entriesEnd a0).fused = a0.fused := by
  unfold State.entriesEnd
  repeat' (first | with_reducible rfl | (simp; done) | split | (intro _) | (with_reducible refine foldl_fused (fun _ _ => ?_) ?_) | simp)
@[simp] theorem State.abortEntry_fused (a0 : State) (a1 : Nat) : (State.abortEntry a0 a1).fused = a0.fused := by
  unfold State.abortEntry
  repeat' (first | with_reducible rfl | (simp; done) | split | (intro _) | (with_reducible refine foldl_fused (fun _ _ => ?_) ?_) | simp)
@[simp] theorem State.setPowerCmd_fused (a0 : State) (a1 : Nat) (a2 : PowerCmd) : (State.setPowerCmd a0 a1 a2).fused = a0.fused := by
  unfold State.setPowerCmd
  repeat' (first | with_reducible rfl | (simp; done) | split | (intro _) | (with_reducible refine foldl_fused (fun _ _ => ?_) ?_) | simp)
@[simp] theorem State.powerTile_fused (a0 : State) (a1 : Nat) (a2 : Nat) : (State.powerTile a0 a1 a2).fused = a0.fused := by
  unfold State.powerTile
  repeat' (first | with_reducible rfl | (simp; done) | split | (intro _) | (with_reducible refine foldl_fused (fun _ _ => ?_) ?_) | simp)
@[simp] theorem State.moduleEntered_fused (a0 : State) : (State.moduleEntered a0).fused = a0.fused := by
  unfold State.moduleEntered
  repeat' (first | with_reducible rfl | (simp; done) | split | (intro _) | (with_reducible refine foldl_fused (fun _ _ => ?_) ?_) | simp)
@[simp] theorem State.powerDrained_fused (a0 : State) (a1 : Nat) : (State.powerDrained a0 a1).fused = a0.fused := by
  unfold State.powerDrained
  repeat' (first | with_reducible rfl | (simp; done) | split | (intro _) | (with_reducible refine foldl_fused (fun _ _ => ?_) ?_) | simp)
@[simp] theorem State.powerDropped_fused (a0 : State) (a1 : Nat) : (State.powerDropped a0 a1).fused = a0.fused := by
  unfold State.powerDropped
  repeat' (first | with_reducible rfl | (simp; done) | split | (intro _) | (with_reducible refine foldl_fused (fun _ _ => ?_) ?_) | simp)

/-! Seq -/

@[simp] theorem State.settle_pending (a0 : State) (a1 : Nat) : (State.settle a0 a1).pending = a0.pending := by
  unfold State.settle
  repeat' (first | with_reducible rfl | (simp; done) | split | (intro _) | (with_reducible refine foldl_pending (fun _ _ => ?_) ?_) | simp)
@[simp] theorem State.taskFault_pending (a0 : State) (a1 : Nat) (a2 : Nat) (a3 : Nat) (a4 : Nat) (a5 : Word) : (State.taskFault a0 a1 a2 a3 a4 a5).pending = a0.pending := by
  unfold State.taskFault
  repeat' (first | with_reducible rfl | (simp; done) | split | (intro _) | (with_reducible refine foldl_pending (fun _ _ => ?_) ?_) | simp)
@[simp] theorem State.advance_pending (a0 : State) (a1 : Nat) (a2 : Nat) (a3 : Nat) : (State.advance a0 a1 a2 a3).pending = a0.pending := by
  unfold State.advance
  repeat' (first | with_reducible rfl | (simp; done) | split | (intro _) | (with_reducible refine foldl_pending (fun _ _ => ?_) ?_) | simp)
theorem State.jumpTo_pending (a0 : State) (a1 : Nat) (a2 : Nat) (a3 : Word) {t : State} (h : State.jumpTo a0 a1 a2 a3 = some t) : t.pending = a0.pending := by
  unfold State.jumpTo at h
  split at h
  · simp at h
  · split at h
    · simp at h
    · simp only [Option.some.injEq] at h; subst h; simp
@[simp] theorem State.stallTask_pending (a0 : State) (a1 : Nat) (a2 : Nat) (a3 : Stall) : (State.stallTask a0 a1 a2 a3).pending = a0.pending := by
  unfold State.stallTask
  repeat' (first | with_reducible rfl | (simp; done) | split | (intro _) | (with_reducible refine foldl_pending (fun _ _ => ?_) ?_) | simp)
theorem State.finish_pending (a0 : State) (a1 : Nat) (a2 : Nat) (a3 : Nat) (a4 : Issue) (h : ∀ s, a4.after = some s → s.pending = a0.pending) : (State.finish a0 a1 a2 a3 a4).pending = a0.pending := by
  cases a4 with
  | retire s => simpa [State.finish] using h s rfl
  | jump s t =>
    simp only [State.finish]
    split
    · rename_i s' hj
      rw [State.jumpTo_pending _ _ _ _ hj, h s rfl]
    · simp
  | fault c d => simp [State.finish]
  | stall w => simp [State.finish]
  | begun s w => simpa [State.finish] using h s rfl
  | wait s => simpa [State.finish] using h s rfl
@[simp] theorem State.fetched_pending (a0 : State) (a1 : Nat) (a2 : Nat) : (State.fetched a0 a1 a2).pending = a0.pending := by
  unfold State.fetched
  repeat' (first | with_reducible rfl | (simp; done) | split | (intro _) | (with_reducible refine foldl_pending (fun _ _ => ?_) ?_) | simp)
@[simp] theorem State.setReg_pending (a0 : State) (a1 : Nat) (a2 : Nat) (a3 : Reg) (a4 : Word) : (State.setReg a0 a1 a2 a3 a4).pending = a0.pending := by
  unfold State.setReg
  repeat' (first | with_reducible rfl | (simp; done) | split | (intro _) | (with_reducible refine foldl_pending (fun _ _ => ?_) ?_) | simp)
@[simp] theorem State.endWait_pending (a0 : State) (a1 : Nat) (a2 : Nat) (a3 : Reg) (a4 : Nat) (a5 : Nat) : (State.endWait a0 a1 a2 a3 a4 a5).pending = a0.pending := by
  unfold State.endWait
  repeat' (first | with_reducible rfl | (simp; done) | split | (intro _) | (with_reducible refine foldl_pending (fun _ _ => ?_) ?_) | simp)
@[simp] theorem State.wakePower_pending (a0 : State) (a1 : Nat) : (State.wakePower a0 a1).pending = a0.pending := by
  unfold State.wakePower
  repeat' (first | with_reducible rfl | (simp; done) | split | (intro _) | (with_reducible refine foldl_pending (fun _ _ => ?_) ?_) | simp)
@[simp] theorem State.wakeTasks_pending (a0 : State) (a1 : Nat) : (State.wakeTasks a0 a1).pending = a0.pending := by
  unfold State.wakeTasks
  repeat' (first | with_reducible rfl | (simp; done) | split | (intro _) | (with_reducible refine foldl_pending (fun _ _ => ?_) ?_) | simp)
@[simp] theorem State.settle_fused (a0 : State) (a1 : Nat) : (State.settle a0 a1).fused = a0.fused := by
  unfold State.settle
  repeat' (first | with_reducible rfl | (simp; done) | split | (intro _) | (with_reducible refine foldl_fused (fun _ _ => ?_) ?_) | simp)
@[simp] theorem State.taskFault_fused (a0 : State) (a1 : Nat) (a2 : Nat) (a3 : Nat) (a4 : Nat) (a5 : Word) : (State.taskFault a0 a1 a2 a3 a4 a5).fused = a0.fused := by
  unfold State.taskFault
  repeat' (first | with_reducible rfl | (simp; done) | split | (intro _) | (with_reducible refine foldl_fused (fun _ _ => ?_) ?_) | simp)
@[simp] theorem State.advance_fused (a0 : State) (a1 : Nat) (a2 : Nat) (a3 : Nat) : (State.advance a0 a1 a2 a3).fused = a0.fused := by
  unfold State.advance
  repeat' (first | with_reducible rfl | (simp; done) | split | (intro _) | (with_reducible refine foldl_fused (fun _ _ => ?_) ?_) | simp)
theorem State.jumpTo_fused (a0 : State) (a1 : Nat) (a2 : Nat) (a3 : Word) {t : State} (h : State.jumpTo a0 a1 a2 a3 = some t) : t.fused = a0.fused := by
  unfold State.jumpTo at h
  split at h
  · simp at h
  · split at h
    · simp at h
    · simp only [Option.some.injEq] at h; subst h; simp
@[simp] theorem State.stallTask_fused (a0 : State) (a1 : Nat) (a2 : Nat) (a3 : Stall) : (State.stallTask a0 a1 a2 a3).fused = a0.fused := by
  unfold State.stallTask
  repeat' (first | with_reducible rfl | (simp; done) | split | (intro _) | (with_reducible refine foldl_fused (fun _ _ => ?_) ?_) | simp)
theorem State.finish_fused (a0 : State) (a1 : Nat) (a2 : Nat) (a3 : Nat) (a4 : Issue) (h : ∀ s, a4.after = some s → s.fused = a0.fused) : (State.finish a0 a1 a2 a3 a4).fused = a0.fused := by
  cases a4 with
  | retire s => simpa [State.finish] using h s rfl
  | jump s t =>
    simp only [State.finish]
    split
    · rename_i s' hj
      rw [State.jumpTo_fused _ _ _ _ hj, h s rfl]
    · simp
  | fault c d => simp [State.finish]
  | stall w => simp [State.finish]
  | begun s w => simpa [State.finish] using h s rfl
  | wait s => simpa [State.finish] using h s rfl
@[simp] theorem State.fetched_fused (a0 : State) (a1 : Nat) (a2 : Nat) : (State.fetched a0 a1 a2).fused = a0.fused := by
  unfold State.fetched
  repeat' (first | with_reducible rfl | (simp; done) | split | (intro _) | (with_reducible refine foldl_fused (fun _ _ => ?_) ?_) | simp)
@[simp] theorem State.setReg_fused (a0 : State) (a1 : Nat) (a2 : Nat) (a3 : Reg) (a4 : Word) : (State.setReg a0 a1 a2 a3 a4).fused = a0.fused := by
  unfold State.setReg
  repeat' (first | with_reducible rfl | (simp; done) | split | (intro _) | (with_reducible refine foldl_fused (fun _ _ => ?_) ?_) | simp)
@[simp] theorem State.endWait_fused (a0 : State) (a1 : Nat) (a2 : Nat) (a3 : Reg) (a4 : Nat) (a5 : Nat) : (State.endWait a0 a1 a2 a3 a4 a5).fused = a0.fused := by
  unfold State.endWait
  repeat' (first | with_reducible rfl | (simp; done) | split | (intro _) | (with_reducible refine foldl_fused (fun _ _ => ?_) ?_) | simp)
@[simp] theorem State.wakePower_fused (a0 : State) (a1 : Nat) : (State.wakePower a0 a1).fused = a0.fused := by
  unfold State.wakePower
  repeat' (first | with_reducible rfl | (simp; done) | split | (intro _) | (with_reducible refine foldl_fused (fun _ _ => ?_) ?_) | simp)
@[simp] theorem State.wakeTasks_fused (a0 : State) (a1 : Nat) : (State.wakeTasks a0 a1).fused = a0.fused := by
  unfold State.wakeTasks
  repeat' (first | with_reducible rfl | (simp; done) | split | (intro _) | (with_reducible refine foldl_fused (fun _ _ => ?_) ?_) | simp)

/-! Cistern -/

@[simp] theorem State.corrected_pending (a0 : State) (a1 : Nat) (a2 : Nat) (a3 : Nat) : (State.corrected a0 a1 a2 a3).pending = a0.pending := by
  unfold State.corrected
  repeat' (first | with_reducible rfl | (simp; done) | split | (intro _) | (with_reducible refine foldl_pending (fun _ _ => ?_) ?_) | simp)
@[simp] theorem State.uncorrectable_pending (a0 : State) (a1 : Nat) (a2 : Nat) : (State.uncorrectable a0 a1 a2).pending = a0.pending := by
  unfold State.uncorrectable
  repeat' (first | with_reducible rfl | (simp; done) | split | (intro _) | (with_reducible refine foldl_pending (fun _ _ => ?_) ?_) | simp)
@[simp] theorem State.moveAppend_pending (a0 : State) (a1 : Nat) (a2 : Nat) (a3 : Nat) (a4 : Nat) : (State.moveAppend a0 a1 a2 a3 a4).pending = a0.pending := by
  unfold State.moveAppend
  repeat' (first | with_reducible rfl | (simp; done) | split | (intro _) | (with_reducible refine foldl_pending (fun _ _ => ?_) ?_) | simp)
@[simp] theorem State.takeSeq_pending (a0 : State) (a1 : Nat) (a2 : Nat) : (State.takeSeq a0 a1 a2).2.pending = a0.pending := by
  unfold State.takeSeq
  repeat' (first | with_reducible rfl | (simp; done) | split | (intro _) | (with_reducible refine foldl_pending (fun _ _ => ?_) ?_) | simp)
@[simp] theorem State.tileRequest_pending (a0 : State) (a1 : Nat) (a2 : Nat) (a3 : Nat) (a4 : Nat) (a5 : Nat) (a6 : Nat) (a7 : Nat) (a8 : Nat) (a9 : Nat) (a10 : Nat) (a11 : Nat) (a12 : Bytes) : (State.tileRequest a0 a1 a2 a3 a4 a5 a6 a7 a8 a9 a10 a11 a12).pending = a0.pending := by
  unfold State.tileRequest
  repeat' (first | with_reducible rfl | (simp; done) | split | (intro _) | (with_reducible refine foldl_pending (fun _ _ => ?_) ?_) | simp)
@[simp] theorem State.cisternWrite_pending (a0 : State) (a1 : Nat) (a2 : Nat) (a3 : Bytes) : (State.cisternWrite a0 a1 a2 a3).pending = a0.pending := by
  unfold State.cisternWrite
  repeat' (first | with_reducible rfl | (simp; done) | split | (intro _) | (with_reducible refine foldl_pending (fun _ _ => ?_) ?_) | simp)
@[simp] theorem State.corrected_fused (a0 : State) (a1 : Nat) (a2 : Nat) (a3 : Nat) : (State.corrected a0 a1 a2 a3).fused = a0.fused := by
  unfold State.corrected
  repeat' (first | with_reducible rfl | (simp; done) | split | (intro _) | (with_reducible refine foldl_fused (fun _ _ => ?_) ?_) | simp)
@[simp] theorem State.uncorrectable_fused (a0 : State) (a1 : Nat) (a2 : Nat) : (State.uncorrectable a0 a1 a2).fused = a0.fused := by
  unfold State.uncorrectable
  repeat' (first | with_reducible rfl | (simp; done) | split | (intro _) | (with_reducible refine foldl_fused (fun _ _ => ?_) ?_) | simp)
@[simp] theorem State.moveAppend_fused (a0 : State) (a1 : Nat) (a2 : Nat) (a3 : Nat) (a4 : Nat) : (State.moveAppend a0 a1 a2 a3 a4).fused = a0.fused := by
  unfold State.moveAppend
  repeat' (first | with_reducible rfl | (simp; done) | split | (intro _) | (with_reducible refine foldl_fused (fun _ _ => ?_) ?_) | simp)
@[simp] theorem State.takeSeq_fused (a0 : State) (a1 : Nat) (a2 : Nat) : (State.takeSeq a0 a1 a2).2.fused = a0.fused := by
  unfold State.takeSeq
  repeat' (first | with_reducible rfl | (simp; done) | split | (intro _) | (with_reducible refine foldl_fused (fun _ _ => ?_) ?_) | simp)
@[simp] theorem State.tileRequest_fused (a0 : State) (a1 : Nat) (a2 : Nat) (a3 : Nat) (a4 : Nat) (a5 : Nat) (a6 : Nat) (a7 : Nat) (a8 : Nat) (a9 : Nat) (a10 : Nat) (a11 : Nat) (a12 : Bytes) : (State.tileRequest a0 a1 a2 a3 a4 a5 a6 a7 a8 a9 a10 a11 a12).fused = a0.fused := by
  unfold State.tileRequest
  repeat' (first | with_reducible rfl | (simp; done) | split | (intro _) | (with_reducible refine foldl_fused (fun _ _ => ?_) ?_) | simp)
@[simp] theorem State.cisternWrite_fused (a0 : State) (a1 : Nat) (a2 : Nat) (a3 : Bytes) : (State.cisternWrite a0 a1 a2 a3).fused = a0.fused := by
  unfold State.cisternWrite
  repeat' (first | with_reducible rfl | (simp; done) | split | (intro _) | (with_reducible refine foldl_fused (fun _ _ => ?_) ?_) | simp)

/-! StreamOps -/

@[simp] theorem State.counterTerminal_pending (a0 : State) (a1 : Nat) (a2 : Nat) : (State.counterTerminal a0 a1 a2).pending = a0.pending := by
  unfold State.counterTerminal
  repeat' (first | with_reducible rfl | (simp; done) | split | (intro _) | (with_reducible refine foldl_pending (fun _ _ => ?_) ?_) | simp)
@[simp] theorem State.countUp_pending (a0 : State) (a1 : Nat) (a2 : Nat) : (State.countUp a0 a1 a2).pending = a0.pending := by
  unfold State.countUp
  repeat' (first | with_reducible rfl | (simp; done) | split | (intro _) | (with_reducible refine foldl_pending (fun _ _ => ?_) ?_) | simp)
@[simp] theorem State.takeTerminals_pending (a0 : State) (a1 : Nat) : (State.takeTerminals a0 a1).pending = a0.pending := by
  unfold State.takeTerminals
  repeat' (first | with_reducible rfl | (simp; done) | split | (intro _) | (with_reducible refine foldl_pending (fun _ _ => ?_) ?_) | simp)
@[simp] theorem State.sinkConsume_pending (a0 : State) (a1 : Nat) (a2 : Nat) (a3 : StreamWord) : (State.sinkConsume a0 a1 a2 a3).pending = a0.pending := by
  unfold State.sinkConsume
  repeat' (first | with_reducible rfl | (simp; done) | split | (intro _) | (with_reducible refine foldl_pending (fun _ _ => ?_) ?_) | simp)
@[simp] theorem State.barrierArrive_pending (a0 : State) (a1 : Nat) (a2 : Nat) : (State.barrierArrive a0 a1 a2).pending = a0.pending := by
  unfold State.barrierArrive
  repeat' (first | with_reducible rfl | (simp; done) | split | (intro _) | (with_reducible refine foldl_pending (fun _ _ => ?_) ?_) | simp)
@[simp] theorem State.foldToken_pending (a0 : State) (a1 : Nat) (a2 : Nat) : (State.foldToken a0 a1 a2).pending = a0.pending := by
  unfold State.foldToken
  repeat' (first | with_reducible rfl | (simp; done) | split | (intro _) | (with_reducible refine foldl_pending (fun _ _ => ?_) ?_) | simp)
@[simp] theorem State.sinkTake_pending (a0 : State) (a1 : Nat) (a2 : Nat) (a3 : StreamWord) : (State.sinkTake a0 a1 a2 a3).pending = a0.pending := by
  unfold State.sinkTake
  repeat' (first | with_reducible rfl | (simp; done) | split | (intro _) | (with_reducible refine foldl_pending (fun _ _ => ?_) ?_) | simp)
@[simp] theorem State.destPut_pending (a0 : State) (a1 : Nat) (a2 : StreamWord) (a3 : StreamDest) : (State.destPut a0 a1 a2 a3).pending = a0.pending := by
  unfold State.destPut
  repeat' (first | with_reducible rfl | (simp; done) | split | (intro _) | (with_reducible refine foldl_pending (fun _ _ => ?_) ?_) | simp)
@[simp] theorem State.flowSlack_pending (a0 : State) (a1 : Nat) (a2 : Nat) (a3 : Nat) (a4 : Nat) : (State.flowSlack a0 a1 a2 a3 a4).pending = a0.pending := by
  induction a4 generalizing a0 with
  | zero => unfold State.flowSlack; rfl
  | succ n ih => unfold State.flowSlack; repeat' (first | with_reducible rfl | (simp [ih]; done) | split | (intro _) | (with_reducible refine foldl_pending (fun _ _ => ?_) ?_) | simp [ih])
@[simp] theorem State.flowRelay_pending (a0 : State) (a1 : Nat) (a2 : Nat) (a3 : Nat) : (State.flowRelay a0 a1 a2 a3).pending = a0.pending := by
  induction a3 generalizing a0 with
  | zero => unfold State.flowRelay; rfl
  | succ n ih => unfold State.flowRelay; repeat' (first | with_reducible rfl | (simp [ih]; done) | split | (intro _) | (with_reducible refine foldl_pending (fun _ _ => ?_) ?_) | simp [ih])
@[simp] theorem State.relaysGo_pending (a0 : State) : (State.relaysGo a0).pending = a0.pending := by
  unfold State.relaysGo
  repeat' (first | with_reducible rfl | (simp; done) | split | (intro _) | (with_reducible refine foldl_pending (fun _ _ => ?_) ?_) | simp)
@[simp] theorem State.dropPipe_pending (a0 : State) (a1 : Nat) : (State.dropPipe a0 a1).pending = a0.pending := by
  unfold State.dropPipe
  repeat' (first | with_reducible rfl | (simp; done) | split | (intro _) | (with_reducible refine foldl_pending (fun _ _ => ?_) ?_) | simp)
@[simp] theorem State.flowPipe_pending (a0 : State) (a1 : Nat) (a2 : Nat) (a3 : Nat) : (State.flowPipe a0 a1 a2 a3).pending = a0.pending := by
  induction a3 generalizing a0 with
  | zero => unfold State.flowPipe; rfl
  | succ n ih => unfold State.flowPipe; repeat' (first | with_reducible rfl | (simp [ih]; done) | split | (intro _) | (with_reducible refine foldl_pending (fun _ _ => ?_) ?_) | simp [ih])
@[simp] theorem State.flow_pending (a0 : State) (a1 : Nat) : (State.flow a0 a1).pending = a0.pending := by
  unfold State.flow
  repeat' (first | with_reducible rfl | (simp; done) | split | (intro _) | (with_reducible refine foldl_pending (fun _ _ => ?_) ?_) | simp)
theorem State.entryTake_pending (a0 : State) (a1 : Nat) (a2 : Nat) (a3 : List (Nat × StreamWord)) {t : State} (h : State.entryTake a0 a1 a2 a3 = some t) : t.pending = a0.pending := by
  unfold State.entryTake at h
  try dsimp only at h
  repeat' (first | (simp at h; done) | (simp only [Option.some.injEq] at h; subst h; repeat' (first | with_reducible rfl | (simp; done) | split | (intro _) | (with_reducible refine foldl_pending (fun _ _ => ?_) ?_) | simp)) | split at h)
@[simp] theorem State.stallTo_pending (a0 : State) (a1 : Nat) (a2 : Nat) : (State.stallTo a0 a1 a2).pending = a0.pending := by
  unfold State.stallTo
  repeat' (first | with_reducible rfl | (simp; done) | split | (intro _) | (with_reducible refine foldl_pending (fun _ _ => ?_) ?_) | simp)
@[simp] theorem State.offerBeat_pending (a0 : State) (a1 : Nat) (a2 : List (Nat × StreamWord)) : (State.offerBeat a0 a1 a2).pending = a0.pending := by
  unfold State.offerBeat
  dsimp only
  split
  · rfl
  · generalize he : List.foldl _ (a0, []) _ = r
    have hr : r.1.pending = a0.pending := by
      rw [← he]
      refine foldl_inv (P := fun x : State × List Nat => x.1.pending = a0.pending) (fun x e hx => ?_) rfl
      split
      · rename_i s' hs
        simp [State.entryTake_pending _ _ _ _ hs, hx]
      · exact hx
    split
    · exact foldl_pending (fun _ _ => foldl_pending (fun _ _ => by simp) rfl) hr
    · split
      · exact hr
      · exact hr
@[simp] theorem State.drainPort_pending (a0 : State) (a1 : Nat) (a2 : Nat) (a3 : Nat) : (State.drainPort a0 a1 a2 a3).pending = a0.pending := by
  induction a3 generalizing a0 with
  | zero => unfold State.drainPort; rfl
  | succ n ih => unfold State.drainPort; repeat' (first | with_reducible rfl | (simp [ih]; done) | split | (intro _) | (with_reducible refine foldl_pending (fun _ _ => ?_) ?_) | simp [ih])
@[simp] theorem State.drainPorts_pending (a0 : State) (a1 : Nat) : (State.drainPorts a0 a1).pending = a0.pending := by
  unfold State.drainPorts
  repeat' (first | with_reducible rfl | (simp; done) | split | (intro _) | (with_reducible refine foldl_pending (fun _ _ => ?_) ?_) | simp)
@[simp] theorem State.streamSettle_pending (a0 : State) (a1 : Nat) : (State.streamSettle a0 a1).pending = a0.pending := by
  unfold State.streamSettle
  repeat' (first | with_reducible rfl | (simp; done) | split | (intro _) | (with_reducible refine foldl_pending (fun _ _ => ?_) ?_) | simp)
@[simp] theorem State.counterTerminal_fused (a0 : State) (a1 : Nat) (a2 : Nat) : (State.counterTerminal a0 a1 a2).fused = a0.fused := by
  unfold State.counterTerminal
  repeat' (first | with_reducible rfl | (simp; done) | split | (intro _) | (with_reducible refine foldl_fused (fun _ _ => ?_) ?_) | simp)
@[simp] theorem State.countUp_fused (a0 : State) (a1 : Nat) (a2 : Nat) : (State.countUp a0 a1 a2).fused = a0.fused := by
  unfold State.countUp
  repeat' (first | with_reducible rfl | (simp; done) | split | (intro _) | (with_reducible refine foldl_fused (fun _ _ => ?_) ?_) | simp)
@[simp] theorem State.takeTerminals_fused (a0 : State) (a1 : Nat) : (State.takeTerminals a0 a1).fused = a0.fused := by
  unfold State.takeTerminals
  repeat' (first | with_reducible rfl | (simp; done) | split | (intro _) | (with_reducible refine foldl_fused (fun _ _ => ?_) ?_) | simp)
@[simp] theorem State.sinkConsume_fused (a0 : State) (a1 : Nat) (a2 : Nat) (a3 : StreamWord) : (State.sinkConsume a0 a1 a2 a3).fused = a0.fused := by
  unfold State.sinkConsume
  repeat' (first | with_reducible rfl | (simp; done) | split | (intro _) | (with_reducible refine foldl_fused (fun _ _ => ?_) ?_) | simp)
@[simp] theorem State.barrierArrive_fused (a0 : State) (a1 : Nat) (a2 : Nat) : (State.barrierArrive a0 a1 a2).fused = a0.fused := by
  unfold State.barrierArrive
  repeat' (first | with_reducible rfl | (simp; done) | split | (intro _) | (with_reducible refine foldl_fused (fun _ _ => ?_) ?_) | simp)
@[simp] theorem State.foldToken_fused (a0 : State) (a1 : Nat) (a2 : Nat) : (State.foldToken a0 a1 a2).fused = a0.fused := by
  unfold State.foldToken
  repeat' (first | with_reducible rfl | (simp; done) | split | (intro _) | (with_reducible refine foldl_fused (fun _ _ => ?_) ?_) | simp)
@[simp] theorem State.sinkTake_fused (a0 : State) (a1 : Nat) (a2 : Nat) (a3 : StreamWord) : (State.sinkTake a0 a1 a2 a3).fused = a0.fused := by
  unfold State.sinkTake
  repeat' (first | with_reducible rfl | (simp; done) | split | (intro _) | (with_reducible refine foldl_fused (fun _ _ => ?_) ?_) | simp)
@[simp] theorem State.destPut_fused (a0 : State) (a1 : Nat) (a2 : StreamWord) (a3 : StreamDest) : (State.destPut a0 a1 a2 a3).fused = a0.fused := by
  unfold State.destPut
  repeat' (first | with_reducible rfl | (simp; done) | split | (intro _) | (with_reducible refine foldl_fused (fun _ _ => ?_) ?_) | simp)
@[simp] theorem State.flowSlack_fused (a0 : State) (a1 : Nat) (a2 : Nat) (a3 : Nat) (a4 : Nat) : (State.flowSlack a0 a1 a2 a3 a4).fused = a0.fused := by
  induction a4 generalizing a0 with
  | zero => unfold State.flowSlack; rfl
  | succ n ih => unfold State.flowSlack; repeat' (first | with_reducible rfl | (simp [ih]; done) | split | (intro _) | (with_reducible refine foldl_fused (fun _ _ => ?_) ?_) | simp [ih])
@[simp] theorem State.flowRelay_fused (a0 : State) (a1 : Nat) (a2 : Nat) (a3 : Nat) : (State.flowRelay a0 a1 a2 a3).fused = a0.fused := by
  induction a3 generalizing a0 with
  | zero => unfold State.flowRelay; rfl
  | succ n ih => unfold State.flowRelay; repeat' (first | with_reducible rfl | (simp [ih]; done) | split | (intro _) | (with_reducible refine foldl_fused (fun _ _ => ?_) ?_) | simp [ih])
@[simp] theorem State.relaysGo_fused (a0 : State) : (State.relaysGo a0).fused = a0.fused := by
  unfold State.relaysGo
  repeat' (first | with_reducible rfl | (simp; done) | split | (intro _) | (with_reducible refine foldl_fused (fun _ _ => ?_) ?_) | simp)
@[simp] theorem State.dropPipe_fused (a0 : State) (a1 : Nat) : (State.dropPipe a0 a1).fused = a0.fused := by
  unfold State.dropPipe
  repeat' (first | with_reducible rfl | (simp; done) | split | (intro _) | (with_reducible refine foldl_fused (fun _ _ => ?_) ?_) | simp)
@[simp] theorem State.flowPipe_fused (a0 : State) (a1 : Nat) (a2 : Nat) (a3 : Nat) : (State.flowPipe a0 a1 a2 a3).fused = a0.fused := by
  induction a3 generalizing a0 with
  | zero => unfold State.flowPipe; rfl
  | succ n ih => unfold State.flowPipe; repeat' (first | with_reducible rfl | (simp [ih]; done) | split | (intro _) | (with_reducible refine foldl_fused (fun _ _ => ?_) ?_) | simp [ih])
@[simp] theorem State.flow_fused (a0 : State) (a1 : Nat) : (State.flow a0 a1).fused = a0.fused := by
  unfold State.flow
  repeat' (first | with_reducible rfl | (simp; done) | split | (intro _) | (with_reducible refine foldl_fused (fun _ _ => ?_) ?_) | simp)
theorem State.entryTake_fused (a0 : State) (a1 : Nat) (a2 : Nat) (a3 : List (Nat × StreamWord)) {t : State} (h : State.entryTake a0 a1 a2 a3 = some t) : t.fused = a0.fused := by
  unfold State.entryTake at h
  try dsimp only at h
  repeat' (first | (simp at h; done) | (simp only [Option.some.injEq] at h; subst h; repeat' (first | with_reducible rfl | (simp; done) | split | (intro _) | (with_reducible refine foldl_fused (fun _ _ => ?_) ?_) | simp)) | split at h)
@[simp] theorem State.stallTo_fused (a0 : State) (a1 : Nat) (a2 : Nat) : (State.stallTo a0 a1 a2).fused = a0.fused := by
  unfold State.stallTo
  repeat' (first | with_reducible rfl | (simp; done) | split | (intro _) | (with_reducible refine foldl_fused (fun _ _ => ?_) ?_) | simp)
@[simp] theorem State.offerBeat_fused (a0 : State) (a1 : Nat) (a2 : List (Nat × StreamWord)) : (State.offerBeat a0 a1 a2).fused = a0.fused := by
  unfold State.offerBeat
  dsimp only
  split
  · rfl
  · generalize he : List.foldl _ (a0, []) _ = r
    have hr : r.1.fused = a0.fused := by
      rw [← he]
      refine foldl_inv (P := fun x : State × List Nat => x.1.fused = a0.fused) (fun x e hx => ?_) rfl
      split
      · rename_i s' hs
        simp [State.entryTake_fused _ _ _ _ hs, hx]
      · exact hx
    split
    · exact foldl_fused (fun _ _ => foldl_fused (fun _ _ => by simp) rfl) hr
    · split
      · exact hr
      · exact hr
@[simp] theorem State.drainPort_fused (a0 : State) (a1 : Nat) (a2 : Nat) (a3 : Nat) : (State.drainPort a0 a1 a2 a3).fused = a0.fused := by
  induction a3 generalizing a0 with
  | zero => unfold State.drainPort; rfl
  | succ n ih => unfold State.drainPort; repeat' (first | with_reducible rfl | (simp [ih]; done) | split | (intro _) | (with_reducible refine foldl_fused (fun _ _ => ?_) ?_) | simp [ih])
@[simp] theorem State.drainPorts_fused (a0 : State) (a1 : Nat) : (State.drainPorts a0 a1).fused = a0.fused := by
  unfold State.drainPorts
  repeat' (first | with_reducible rfl | (simp; done) | split | (intro _) | (with_reducible refine foldl_fused (fun _ _ => ?_) ?_) | simp)
@[simp] theorem State.streamSettle_fused (a0 : State) (a1 : Nat) : (State.streamSettle a0 a1).fused = a0.fused := by
  unfold State.streamSettle
  repeat' (first | with_reducible rfl | (simp; done) | split | (intro _) | (with_reducible refine foldl_fused (fun _ _ => ?_) ?_) | simp)

/-! LoadStore -/

@[simp] theorem State.imemCorrected_pending (a0 : State) (a1 : Nat) (a2 : Nat) (a3 : Nat) : (State.imemCorrected a0 a1 a2 a3).pending = a0.pending := by
  unfold State.imemCorrected
  repeat' (first | with_reducible rfl | (simp; done) | split | (intro _) | (with_reducible refine foldl_pending (fun _ _ => ?_) ?_) | simp)
@[simp] theorem State.localCorrected_pending (a0 : State) (a1 : Nat) (a2 : Nat) (a3 : Nat) : (State.localCorrected a0 a1 a2 a3).pending = a0.pending := by
  unfold State.localCorrected
  repeat' (first | with_reducible rfl | (simp; done) | split | (intro _) | (with_reducible refine foldl_pending (fun _ _ => ?_) ?_) | simp)
@[simp] theorem State.beforeTStore_pending (a0 : State) (a1 : Nat) (a2 : Nat) : (State.beforeTStore a0 a1 a2).pending = a0.pending := by
  unfold State.beforeTStore
  repeat' (first | with_reducible rfl | (simp; done) | split | (intro _) | (with_reducible refine foldl_pending (fun _ _ => ?_) ?_) | simp)
@[simp] theorem State.afterTStore_pending (a0 : State) (a1 : Nat) : (State.afterTStore a0 a1).pending = a0.pending := by
  unfold State.afterTStore
  repeat' (first | with_reducible rfl | (simp; done) | split | (intro _) | (with_reducible refine foldl_pending (fun _ _ => ?_) ?_) | simp)
@[simp] theorem State.imemCorrected_fused (a0 : State) (a1 : Nat) (a2 : Nat) (a3 : Nat) : (State.imemCorrected a0 a1 a2 a3).fused = a0.fused := by
  unfold State.imemCorrected
  repeat' (first | with_reducible rfl | (simp; done) | split | (intro _) | (with_reducible refine foldl_fused (fun _ _ => ?_) ?_) | simp)
@[simp] theorem State.localCorrected_fused (a0 : State) (a1 : Nat) (a2 : Nat) (a3 : Nat) : (State.localCorrected a0 a1 a2 a3).fused = a0.fused := by
  unfold State.localCorrected
  repeat' (first | with_reducible rfl | (simp; done) | split | (intro _) | (with_reducible refine foldl_fused (fun _ _ => ?_) ?_) | simp)
@[simp] theorem State.beforeTStore_fused (a0 : State) (a1 : Nat) (a2 : Nat) : (State.beforeTStore a0 a1 a2).fused = a0.fused := by
  unfold State.beforeTStore
  repeat' (first | with_reducible rfl | (simp; done) | split | (intro _) | (with_reducible refine foldl_fused (fun _ _ => ?_) ?_) | simp)
@[simp] theorem State.afterTStore_fused (a0 : State) (a1 : Nat) : (State.afterTStore a0 a1).fused = a0.fused := by
  unfold State.afterTStore
  repeat' (first | with_reducible rfl | (simp; done) | split | (intro _) | (with_reducible refine foldl_fused (fun _ _ => ?_) ?_) | simp)

/-! Completion -/

theorem State.postCompletion_pending (a0 : State) (a1 : Nat) (a2 : Completion) {t : State} (h : State.postCompletion a0 a1 a2 = some t) : t.pending = a0.pending := by
  unfold State.postCompletion at h
  try dsimp only at h
  repeat' (first | (simp at h; done) | (simp only [Option.some.injEq] at h; subst h; repeat' (first | with_reducible rfl | (simp; done) | split | (intro _) | (with_reducible refine foldl_pending (fun _ _ => ?_) ?_) | simp)) | split at h)
theorem State.postCompletion_fused (a0 : State) (a1 : Nat) (a2 : Completion) {t : State} (h : State.postCompletion a0 a1 a2 = some t) : t.fused = a0.fused := by
  unfold State.postCompletion at h
  try dsimp only at h
  repeat' (first | (simp at h; done) | (simp only [Option.some.injEq] at h; subst h; repeat' (first | with_reducible rfl | (simp; done) | split | (intro _) | (with_reducible refine foldl_fused (fun _ _ => ?_) ?_) | simp)) | split at h)

/-! PumpOps -/

@[simp] theorem State.pumpPacket_pending (a0 : State) (a1 : Nat) (a2 : Nat) (a3 : PumpJob) (a4 : Target) (a5 : Nat) (a6 : Nat) (a7 : Option Bytes) : (State.pumpPacket a0 a1 a2 a3 a4 a5 a6 a7).1.pending = a0.pending := by
  unfold State.pumpPacket
  repeat' (first | with_reducible rfl | (simp; done) | split | (intro _) | (with_reducible refine foldl_pending (fun _ _ => ?_) ?_) | simp)
@[simp] theorem State.landAt_pending (a0 : State) (a1 : Nat) (a2 : Nat) (a3 : Nat) : (State.landAt a0 a1 a2 a3).pending = a0.pending := by
  unfold State.landAt
  repeat' (first | with_reducible rfl | (simp; done) | split | (intro _) | (with_reducible refine foldl_pending (fun _ _ => ?_) ?_) | simp)
@[simp] theorem PumpRun.packet_pending (a0 : PumpRun) (a1 a2 : Nat) (a3 : PumpJob) (a4 : FabAddr) (a5 : Int) (a6 a7 a8 a9 : Nat) (a10 : Option Bytes) : (PumpRun.packet a0 a1 a2 a3 a4 a5 a6 a7 a8 a9 a10).s.pending = a0.s.pending := by
  unfold PumpRun.packet
  split
  · rfl
  · split
    · rfl
    · simp
@[simp] theorem PumpRun.step_pending (a0 : PumpRun) (a1 : Nat) (a2 : Nat) (a3 : PumpJob) (a4 : Option Nat) (a5 : Option Nat) (a6 : Option FabAddr) (a7 : Option FabAddr) (a8 : Int × Int) : (PumpRun.step a0 a1 a2 a3 a4 a5 a6 a7 a8).s.pending = a0.s.pending := by
  unfold PumpRun.step
  split
  · rfl
  extract_lets run so g s data before w w'
  have hs : s.pending = a0.s.pending := by
    dsimp only [s]
    split <;> simp
  have hw : w.s.pending = a0.s.pending := by
    clear_value data before s
    dsimp only [w]
    split
    · dsimp only; rw [State.cisternWrite_pending, hs]
    · split
      · exact foldl_inv (P := fun x : PumpRun => x.s.pending = a0.s.pending) (fun x e hx => by rw [PumpRun.packet_pending, hx]) hs
      · rfl
    · split
      · exact foldl_inv (P := fun x : PumpRun => x.s.pending = a0.s.pending) (fun x e hx => by rw [PumpRun.packet_pending, hx]) hs
      · rfl
    · rfl
  have hw' : w'.s.pending = a0.s.pending := hw
  clear_value w'
  split
  · exact hw'
  · dsimp only
    split
    · simp [hw']
    · exact hw'
@[simp] theorem State.pumpStart_pending (a0 : State) (a1 : Nat) (a2 : Nat) (a3 : PumpJob) : (State.pumpStart a0 a1 a2 a3).pending = a0.pending := by
  unfold State.pumpStart
  simp only [State.modTile_pending]
  exact foldl_inv (P := fun x : PumpRun => x.s.pending = a0.pending) (fun x e hx => by simp [hx]) rfl
@[simp] theorem State.pumpPost_pending (a0 : State) (a1 : Nat) (a2 : Nat) (a3 : Completion) : (State.pumpPost a0 a1 a2 a3).pending = a0.pending := by
  unfold State.pumpPost
  split
  · simp
  · split
    · rename_i h; exact State.postCompletion_pending _ _ _ h
    · simp
@[simp] theorem State.pumpComplete_pending (a0 : State) (a1 : Nat) (a2 : Nat) (a3 : PumpJob) : (State.pumpComplete a0 a1 a2 a3).pending = a0.pending := by
  unfold State.pumpComplete
  repeat' (first | with_reducible rfl | (simp; done) | split | (intro _) | (with_reducible refine foldl_pending (fun _ _ => ?_) ?_) | simp)
@[simp] theorem State.pumpPacket_fused (a0 : State) (a1 : Nat) (a2 : Nat) (a3 : PumpJob) (a4 : Target) (a5 : Nat) (a6 : Nat) (a7 : Option Bytes) : (State.pumpPacket a0 a1 a2 a3 a4 a5 a6 a7).1.fused = a0.fused := by
  unfold State.pumpPacket
  repeat' (first | with_reducible rfl | (simp; done) | split | (intro _) | (with_reducible refine foldl_fused (fun _ _ => ?_) ?_) | simp)
@[simp] theorem State.landAt_fused (a0 : State) (a1 : Nat) (a2 : Nat) (a3 : Nat) : (State.landAt a0 a1 a2 a3).fused = a0.fused := by
  unfold State.landAt
  repeat' (first | with_reducible rfl | (simp; done) | split | (intro _) | (with_reducible refine foldl_fused (fun _ _ => ?_) ?_) | simp)
@[simp] theorem PumpRun.packet_fused (a0 : PumpRun) (a1 a2 : Nat) (a3 : PumpJob) (a4 : FabAddr) (a5 : Int) (a6 a7 a8 a9 : Nat) (a10 : Option Bytes) : (PumpRun.packet a0 a1 a2 a3 a4 a5 a6 a7 a8 a9 a10).s.fused = a0.s.fused := by
  unfold PumpRun.packet
  split
  · rfl
  · split
    · rfl
    · simp
@[simp] theorem PumpRun.step_fused (a0 : PumpRun) (a1 : Nat) (a2 : Nat) (a3 : PumpJob) (a4 : Option Nat) (a5 : Option Nat) (a6 : Option FabAddr) (a7 : Option FabAddr) (a8 : Int × Int) : (PumpRun.step a0 a1 a2 a3 a4 a5 a6 a7 a8).s.fused = a0.s.fused := by
  unfold PumpRun.step
  split
  · rfl
  extract_lets run so g s data before w w'
  have hs : s.fused = a0.s.fused := by
    dsimp only [s]
    split <;> simp
  have hw : w.s.fused = a0.s.fused := by
    clear_value data before s
    dsimp only [w]
    split
    · dsimp only; rw [State.cisternWrite_fused, hs]
    · split
      · exact foldl_inv (P := fun x : PumpRun => x.s.fused = a0.s.fused) (fun x e hx => by rw [PumpRun.packet_fused, hx]) hs
      · rfl
    · split
      · exact foldl_inv (P := fun x : PumpRun => x.s.fused = a0.s.fused) (fun x e hx => by rw [PumpRun.packet_fused, hx]) hs
      · rfl
    · rfl
  have hw' : w'.s.fused = a0.s.fused := hw
  clear_value w'
  split
  · exact hw'
  · dsimp only
    split
    · simp [hw']
    · exact hw'
@[simp] theorem State.pumpStart_fused (a0 : State) (a1 : Nat) (a2 : Nat) (a3 : PumpJob) : (State.pumpStart a0 a1 a2 a3).fused = a0.fused := by
  unfold State.pumpStart
  simp only [State.modTile_fused]
  exact foldl_inv (P := fun x : PumpRun => x.s.fused = a0.fused) (fun x e hx => by simp [hx]) rfl
@[simp] theorem State.pumpPost_fused (a0 : State) (a1 : Nat) (a2 : Nat) (a3 : Completion) : (State.pumpPost a0 a1 a2 a3).fused = a0.fused := by
  unfold State.pumpPost
  split
  · simp
  · split
    · rename_i h; exact State.postCompletion_fused _ _ _ h
    · simp
@[simp] theorem State.pumpComplete_fused (a0 : State) (a1 : Nat) (a2 : Nat) (a3 : PumpJob) : (State.pumpComplete a0 a1 a2 a3).fused = a0.fused := by
  unfold State.pumpComplete
  repeat' (first | with_reducible rfl | (simp; done) | split | (intro _) | (with_reducible refine foldl_fused (fun _ _ => ?_) ?_) | simp)

/-! Pumps -/

@[simp] theorem State.pumpFlush_pending (a0 : State) (a1 : Nat) (a2 : Nat) (a3 : Nat) : (State.pumpFlush a0 a1 a2 a3).pending = a0.pending := by
  induction a3 generalizing a0 with
  | zero => rfl
  | succ n ih =>
    unfold State.pumpFlush
    split
    · rfl
    · split
      · rename_i h; simp [ih, State.postCompletion_pending _ _ _ h]
      · rfl
@[simp] theorem State.feedDesc_pending (a0 : State) (a1 : Nat) (a2 : Nat) : (State.feedDesc a0 a1 a2).pending = a0.pending := by
  unfold State.feedDesc
  repeat' (first | with_reducible rfl | (simp; done) | split | (intro _) | (with_reducible refine foldl_pending (fun _ _ => ?_) ?_) | simp)
@[simp] theorem State.pumpFlush_fused (a0 : State) (a1 : Nat) (a2 : Nat) (a3 : Nat) : (State.pumpFlush a0 a1 a2 a3).fused = a0.fused := by
  induction a3 generalizing a0 with
  | zero => rfl
  | succ n ih =>
    unfold State.pumpFlush
    split
    · rfl
    · split
      · rename_i h; simp [ih, State.postCompletion_fused _ _ _ h]
      · rfl
@[simp] theorem State.feedDesc_fused (a0 : State) (a1 : Nat) (a2 : Nat) : (State.feedDesc a0 a1 a2).fused = a0.fused := by
  unfold State.feedDesc
  repeat' (first | with_reducible rfl | (simp; done) | split | (intro _) | (with_reducible refine foldl_fused (fun _ _ => ?_) ?_) | simp)

/-! Header -/

@[simp] theorem State.pipeArrive_pending (a0 : State) (a1 : Nat) (a2 : Nat) : (State.pipeArrive a0 a1 a2).pending = a0.pending := by
  unfold State.pipeArrive
  repeat' (first | with_reducible rfl | (simp; done) | split | (intro _) | (with_reducible refine foldl_pending (fun _ _ => ?_) ?_) | simp)
@[simp] theorem State.ontoPipe_pending (a0 : State) (a1 : Nat) (a2 : Nat) (a3 : Nat) (a4 : Packet) : (State.ontoPipe a0 a1 a2 a3 a4).pending = a0.pending := by
  unfold State.ontoPipe
  repeat' (first | with_reducible rfl | (simp; done) | split | (intro _) | (with_reducible refine foldl_pending (fun _ _ => ?_) ?_) | simp)
@[simp] theorem State.pipeArrive_fused (a0 : State) (a1 : Nat) (a2 : Nat) : (State.pipeArrive a0 a1 a2).fused = a0.fused := by
  unfold State.pipeArrive
  repeat' (first | with_reducible rfl | (simp; done) | split | (intro _) | (with_reducible refine foldl_fused (fun _ _ => ?_) ?_) | simp)
@[simp] theorem State.ontoPipe_fused (a0 : State) (a1 : Nat) (a2 : Nat) (a3 : Nat) (a4 : Packet) : (State.ontoPipe a0 a1 a2 a3 a4).fused = a0.fused := by
  unfold State.ontoPipe
  repeat' (first | with_reducible rfl | (simp; done) | split | (intro _) | (with_reducible refine foldl_fused (fun _ _ => ?_) ?_) | simp)

/-! Mech -/

@[simp] theorem State.tokenOut_pending (a0 : State) (a1 : Nat) (a2 : Nat) (a3 : Nat) (a4 : Nat) : (State.tokenOut a0 a1 a2 a3 a4).pending = a0.pending := by
  unfold State.tokenOut
  repeat' (first | with_reducible rfl | (simp; done) | split | (intro _) | (with_reducible refine foldl_pending (fun _ _ => ?_) ?_) | simp)
@[simp] theorem State.tokenOut_fused (a0 : State) (a1 : Nat) (a2 : Nat) (a3 : Nat) (a4 : Nat) : (State.tokenOut a0 a1 a2 a3 a4).fused = a0.fused := by
  unfold State.tokenOut
  repeat' (first | with_reducible rfl | (simp; done) | split | (intro _) | (with_reducible refine foldl_fused (fun _ _ => ?_) ?_) | simp)

/-! UnitOps -/

@[simp] theorem State.residueFound_pending (a0 : State) (a1 : Nat) (a2 : UnitOp) (a3 : Nat × Nat) : (State.residueFound a0 a1 a2 a3).pending = a0.pending := by
  unfold State.residueFound
  repeat' (first | with_reducible rfl | (simp; done) | split | (intro _) | (with_reducible refine foldl_pending (fun _ _ => ?_) ?_) | simp)
@[simp] theorem Exec.part_pending (a0 : Exec) (a1 : Nat) (a2 : UnitOp) (a3 : Part) : (Exec.part a0 a1 a2 a3).s.pending = a0.s.pending := by
  unfold Exec.part
  split
  · rfl
  · dsimp only
    split
    · simp
    · split
      · rfl
      · exact foldl_pending (fun _ _ => by simp) (foldl_pending (fun _ _ => by simp) rfl)
@[simp] theorem Exec.put_pending (a0 : Exec) (a1 : Nat) (a2 : Chunk) (a3 : Nat) : (Exec.put a0 a1 a2 a3).s.pending = a0.s.pending := by
  unfold Exec.put
  split
  · rfl
  · dsimp only
    split
    · rfl
    · exact foldl_pending (fun _ _ => by simp) rfl
@[simp] theorem Exec.run_pending (a0 : Exec) (a1 : Nat) (a2 : UnitOp) (a3 : State → Chunk) (a4 : Nat) : (Exec.run a0 a1 a2 a3 a4).s.pending = a0.s.pending := by
  unfold Exec.run
  split
  · rfl
  · dsimp only
    split
    · rfl
    · rw [Exec.put_pending]
      exact foldl_inv (P := fun x : Exec => x.s.pending = a0.s.pending) (fun x e hx => by rw [Exec.part_pending, hx]) rfl
@[simp] theorem State.residueFound_fused (a0 : State) (a1 : Nat) (a2 : UnitOp) (a3 : Nat × Nat) : (State.residueFound a0 a1 a2 a3).fused = a0.fused := by
  unfold State.residueFound
  repeat' (first | with_reducible rfl | (simp; done) | split | (intro _) | (with_reducible refine foldl_fused (fun _ _ => ?_) ?_) | simp)
@[simp] theorem Exec.part_fused (a0 : Exec) (a1 : Nat) (a2 : UnitOp) (a3 : Part) : (Exec.part a0 a1 a2 a3).s.fused = a0.s.fused := by
  unfold Exec.part
  split
  · rfl
  · dsimp only
    split
    · simp
    · split
      · rfl
      · exact foldl_fused (fun _ _ => by simp) (foldl_fused (fun _ _ => by simp) rfl)
@[simp] theorem Exec.put_fused (a0 : Exec) (a1 : Nat) (a2 : Chunk) (a3 : Nat) : (Exec.put a0 a1 a2 a3).s.fused = a0.s.fused := by
  unfold Exec.put
  split
  · rfl
  · dsimp only
    split
    · rfl
    · exact foldl_fused (fun _ _ => by simp) rfl
@[simp] theorem Exec.run_fused (a0 : Exec) (a1 : Nat) (a2 : UnitOp) (a3 : State → Chunk) (a4 : Nat) : (Exec.run a0 a1 a2 a3 a4).s.fused = a0.s.fused := by
  unfold Exec.run
  split
  · rfl
  · dsimp only
    split
    · rfl
    · rw [Exec.put_fused]
      exact foldl_inv (P := fun x : Exec => x.s.fused = a0.s.fused) (fun x e hx => by rw [Exec.part_fused, hx]) rfl

/-! TensorOps -/

@[simp] theorem UnitOp.runTensor_pending (a0 : UnitOp) (a1 : Nat) (a2 : State) : (UnitOp.runTensor a0 a1 a2).s.pending = a2.pending := by
  unfold UnitOp.runTensor
  exact foldl_inv (P := fun x : Exec => x.s.pending = a2.pending) (fun x e hx => by simp [hx]) rfl
@[simp] theorem UnitOp.runTensor_fused (a0 : UnitOp) (a1 : Nat) (a2 : State) : (UnitOp.runTensor a0 a1 a2).s.fused = a2.fused := by
  unfold UnitOp.runTensor
  exact foldl_inv (P := fun x : Exec => x.s.fused = a2.fused) (fun x e hx => by simp [hx]) rfl

/-! VectorOps -/

@[simp] theorem UnitOp.runVector_pending (a0 : UnitOp) (a1 : Nat) (a2 : State) : (UnitOp.runVector a0 a1 a2).s.pending = a2.pending := by
  unfold UnitOp.runVector
  exact foldl_inv (P := fun x : Exec => x.s.pending = a2.pending) (fun x e hx => by simp [hx]) rfl
@[simp] theorem UnitOp.runVector_fused (a0 : UnitOp) (a1 : Nat) (a2 : State) : (UnitOp.runVector a0 a1 a2).s.fused = a2.fused := by
  unfold UnitOp.runVector
  exact foldl_inv (P := fun x : Exec => x.s.fused = a2.fused) (fun x e hx => by simp [hx]) rfl

/-! Units -/

@[simp] theorem State.shadowSelect_pending (a0 : State) (a1 : Nat) (a2 : Bool) (a3 : UnitOp) : (State.shadowSelect a0 a1 a2 a3).1.pending = a0.pending := by
  unfold State.shadowSelect
  repeat' (first | with_reducible rfl | (simp; done) | split | (intro _) | (with_reducible refine foldl_pending (fun _ _ => ?_) ?_) | simp)
@[simp] theorem State.runOp_pending (a0 : State) (a1 : Nat) (a2 : Bool) (a3 : UnitOp) : (State.runOp a0 a1 a2 a3).1.pending = a0.pending := by
  unfold State.runOp
  repeat' (first | with_reducible rfl | (simp; done) | split | (intro _) | (with_reducible refine foldl_pending (fun _ _ => ?_) ?_) | simp)
@[simp] theorem State.refuseOp_pending (a0 : State) (a1 : Nat) (a2 : UnitOp) (a3 : Nat) : (State.refuseOp a0 a1 a2 a3).1.pending = a0.pending := by
  unfold State.refuseOp
  repeat' (first | with_reducible rfl | (simp; done) | split | (intro _) | (with_reducible refine foldl_pending (fun _ _ => ?_) ?_) | simp)
@[simp] theorem State.tryRun_pending (a0 : State) (a1 : Nat) (a2 : Bool) (a3 : UnitOp) : (State.tryRun a0 a1 a2 a3).1.pending = a0.pending := by
  unfold State.tryRun
  repeat' (first | with_reducible rfl | (simp; done) | split | (intro _) | (with_reducible refine foldl_pending (fun _ _ => ?_) ?_) | simp)
@[simp] theorem State.setOp_pending (a0 : State) (a1 : Nat) (a2 : Bool) (a3 : Bool) (a4 : UnitOp) : (State.setOp a0 a1 a2 a3 a4).pending = a0.pending := by
  unfold State.setOp
  repeat' (first | with_reducible rfl | (simp; done) | split | (intro _) | (with_reducible refine foldl_pending (fun _ _ => ?_) ?_) | simp)
@[simp] theorem State.emitOut_pending (a0 : State) (a1 : Nat) (a2 : Bool) (a3 : Nat) : (State.emitOut a0 a1 a2 a3).pending = a0.pending := by
  induction a3 generalizing a0 with
  | zero => unfold State.emitOut; rfl
  | succ n ih => unfold State.emitOut; repeat' (first | with_reducible rfl | (simp [ih]; done) | split | (intro _) | (with_reducible refine foldl_pending (fun _ _ => ?_) ?_) | simp [ih])
@[simp] theorem State.unitsFlow_pending (a0 : State) (a1 : Nat) : (State.unitsFlow a0 a1).pending = a0.pending := by
  unfold State.unitsFlow
  repeat' (first | with_reducible rfl | (simp; done) | split | (intro _) | (with_reducible refine foldl_pending (fun _ _ => ?_) ?_) | simp)
@[simp] theorem State.streamsGo_pending (a0 : State) (a1 : Nat) : (State.streamsGo a0 a1).pending = a0.pending := by
  unfold State.streamsGo
  repeat' (first | with_reducible rfl | (simp; done) | split | (intro _) | (with_reducible refine foldl_pending (fun _ _ => ?_) ?_) | simp)
@[simp] theorem State.endOp_pending (a0 : State) (a1 : Nat) (a2 : Bool) (a3 : UnitOp) : (State.endOp a0 a1 a2 a3).pending = a0.pending := by
  unfold State.endOp
  dsimp only
  split
  · rename_i h
    rw [State.postCompletion_pending _ _ _ h]
    split <;> simp
  · split <;> simp
@[simp] theorem State.shadowSelect_fused (a0 : State) (a1 : Nat) (a2 : Bool) (a3 : UnitOp) : (State.shadowSelect a0 a1 a2 a3).1.fused = a0.fused := by
  unfold State.shadowSelect
  repeat' (first | with_reducible rfl | (simp; done) | split | (intro _) | (with_reducible refine foldl_fused (fun _ _ => ?_) ?_) | simp)
@[simp] theorem State.runOp_fused (a0 : State) (a1 : Nat) (a2 : Bool) (a3 : UnitOp) : (State.runOp a0 a1 a2 a3).1.fused = a0.fused := by
  unfold State.runOp
  repeat' (first | with_reducible rfl | (simp; done) | split | (intro _) | (with_reducible refine foldl_fused (fun _ _ => ?_) ?_) | simp)
@[simp] theorem State.refuseOp_fused (a0 : State) (a1 : Nat) (a2 : UnitOp) (a3 : Nat) : (State.refuseOp a0 a1 a2 a3).1.fused = a0.fused := by
  unfold State.refuseOp
  repeat' (first | with_reducible rfl | (simp; done) | split | (intro _) | (with_reducible refine foldl_fused (fun _ _ => ?_) ?_) | simp)
@[simp] theorem State.tryRun_fused (a0 : State) (a1 : Nat) (a2 : Bool) (a3 : UnitOp) : (State.tryRun a0 a1 a2 a3).1.fused = a0.fused := by
  unfold State.tryRun
  repeat' (first | with_reducible rfl | (simp; done) | split | (intro _) | (with_reducible refine foldl_fused (fun _ _ => ?_) ?_) | simp)
@[simp] theorem State.setOp_fused (a0 : State) (a1 : Nat) (a2 : Bool) (a3 : Bool) (a4 : UnitOp) : (State.setOp a0 a1 a2 a3 a4).fused = a0.fused := by
  unfold State.setOp
  repeat' (first | with_reducible rfl | (simp; done) | split | (intro _) | (with_reducible refine foldl_fused (fun _ _ => ?_) ?_) | simp)
@[simp] theorem State.emitOut_fused (a0 : State) (a1 : Nat) (a2 : Bool) (a3 : Nat) : (State.emitOut a0 a1 a2 a3).fused = a0.fused := by
  induction a3 generalizing a0 with
  | zero => unfold State.emitOut; rfl
  | succ n ih => unfold State.emitOut; repeat' (first | with_reducible rfl | (simp [ih]; done) | split | (intro _) | (with_reducible refine foldl_fused (fun _ _ => ?_) ?_) | simp [ih])
@[simp] theorem State.unitsFlow_fused (a0 : State) (a1 : Nat) : (State.unitsFlow a0 a1).fused = a0.fused := by
  unfold State.unitsFlow
  repeat' (first | with_reducible rfl | (simp; done) | split | (intro _) | (with_reducible refine foldl_fused (fun _ _ => ?_) ?_) | simp)
@[simp] theorem State.streamsGo_fused (a0 : State) (a1 : Nat) : (State.streamsGo a0 a1).fused = a0.fused := by
  unfold State.streamsGo
  repeat' (first | with_reducible rfl | (simp; done) | split | (intro _) | (with_reducible refine foldl_fused (fun _ _ => ?_) ?_) | simp)
@[simp] theorem State.endOp_fused (a0 : State) (a1 : Nat) (a2 : Bool) (a3 : UnitOp) : (State.endOp a0 a1 a2 a3).fused = a0.fused := by
  unfold State.endOp
  dsimp only
  split
  · rename_i h
    rw [State.postCompletion_fused _ _ _ h]
    split <;> simp
  · split <;> simp

/-! Streams -/

@[simp] theorem State.pipeTake_pending (a0 : State) (a1 : Nat) (a2 : Nat) (a3 : Nat) : (State.pipeTake a0 a1 a2 a3).pending = a0.pending := by
  induction a3 generalizing a0 with
  | zero => unfold State.pipeTake; rfl
  | succ n ih => unfold State.pipeTake; repeat' (first | with_reducible rfl | (simp [ih]; done) | split | (intro _) | (with_reducible refine foldl_pending (fun _ _ => ?_) ?_) | simp [ih])
@[simp] theorem State.foldEnds_pending (a0 : State) (a1 : Nat) (a2 : Nat) (a3 : Reg) (a4 : Nat) : (State.foldEnds a0 a1 a2 a3 a4).pending = a0.pending := by
  unfold State.foldEnds
  repeat' (first | with_reducible rfl | (simp; done) | split | (intro _) | (with_reducible refine foldl_pending (fun _ _ => ?_) ?_) | simp)
@[simp] theorem State.flushTile_pending (a0 : State) (a1 : Nat) : (State.flushTile a0 a1).pending = a0.pending := by
  unfold State.flushTile
  repeat' (first | with_reducible rfl | (simp; done) | split | (intro _) | (with_reducible refine foldl_pending (fun _ _ => ?_) ?_) | simp)
@[simp] theorem State.flushRelays_pending (a0 : State) (a1 : Nat) : (State.flushRelays a0 a1).pending = a0.pending := by
  unfold State.flushRelays
  repeat' (first | with_reducible rfl | (simp; done) | split | (intro _) | (with_reducible refine foldl_pending (fun _ _ => ?_) ?_) | simp)
@[simp] theorem State.flushMeadow_pending (a0 : State) (a1 : Nat) : (State.flushMeadow a0 a1).pending = a0.pending := by
  unfold State.flushMeadow
  repeat' (first | with_reducible rfl | (simp; done) | split | (intro _) | (with_reducible refine foldl_pending (fun _ _ => ?_) ?_) | simp)
@[simp] theorem State.stallsSoFar_pending (a0 : State) (a1 : Nat) : (State.stallsSoFar a0 a1).pending = a0.pending := by
  unfold State.stallsSoFar
  repeat' (first | with_reducible rfl | (simp; done) | split | (intro _) | (with_reducible refine foldl_pending (fun _ _ => ?_) ?_) | simp)
@[simp] theorem State.streamSample_pending (a0 : State) (a1 : Nat) : (State.streamSample a0 a1).pending = a0.pending := by
  unfold State.streamSample
  repeat' (first | with_reducible rfl | (simp; done) | split | (intro _) | (with_reducible refine foldl_pending (fun _ _ => ?_) ?_) | simp)
@[simp] theorem State.pipeTake_fused (a0 : State) (a1 : Nat) (a2 : Nat) (a3 : Nat) : (State.pipeTake a0 a1 a2 a3).fused = a0.fused := by
  induction a3 generalizing a0 with
  | zero => unfold State.pipeTake; rfl
  | succ n ih => unfold State.pipeTake; repeat' (first | with_reducible rfl | (simp [ih]; done) | split | (intro _) | (with_reducible refine foldl_fused (fun _ _ => ?_) ?_) | simp [ih])
@[simp] theorem State.foldEnds_fused (a0 : State) (a1 : Nat) (a2 : Nat) (a3 : Reg) (a4 : Nat) : (State.foldEnds a0 a1 a2 a3 a4).fused = a0.fused := by
  unfold State.foldEnds
  repeat' (first | with_reducible rfl | (simp; done) | split | (intro _) | (with_reducible refine foldl_fused (fun _ _ => ?_) ?_) | simp)
@[simp] theorem State.flushTile_fused (a0 : State) (a1 : Nat) : (State.flushTile a0 a1).fused = a0.fused := by
  unfold State.flushTile
  repeat' (first | with_reducible rfl | (simp; done) | split | (intro _) | (with_reducible refine foldl_fused (fun _ _ => ?_) ?_) | simp)
@[simp] theorem State.flushRelays_fused (a0 : State) (a1 : Nat) : (State.flushRelays a0 a1).fused = a0.fused := by
  unfold State.flushRelays
  repeat' (first | with_reducible rfl | (simp; done) | split | (intro _) | (with_reducible refine foldl_fused (fun _ _ => ?_) ?_) | simp)
@[simp] theorem State.flushMeadow_fused (a0 : State) (a1 : Nat) : (State.flushMeadow a0 a1).fused = a0.fused := by
  unfold State.flushMeadow
  repeat' (first | with_reducible rfl | (simp; done) | split | (intro _) | (with_reducible refine foldl_fused (fun _ _ => ?_) ?_) | simp)
@[simp] theorem State.stallsSoFar_fused (a0 : State) (a1 : Nat) : (State.stallsSoFar a0 a1).fused = a0.fused := by
  unfold State.stallsSoFar
  repeat' (first | with_reducible rfl | (simp; done) | split | (intro _) | (with_reducible refine foldl_fused (fun _ _ => ?_) ?_) | simp)
@[simp] theorem State.streamSample_fused (a0 : State) (a1 : Nat) : (State.streamSample a0 a1).fused = a0.fused := by
  unfold State.streamSample
  repeat' (first | with_reducible rfl | (simp; done) | split | (intro _) | (with_reducible refine foldl_fused (fun _ _ => ?_) ?_) | simp)

/-! PacketOps -/

@[simp] theorem State.egress_pending (a0 : State) (a1 : Packet) : (State.egress a0 a1).pending = a0.pending := by
  unfold State.egress
  repeat' (first | with_reducible rfl | (simp; done) | split | (intro _) | (with_reducible refine foldl_pending (fun _ _ => ?_) ?_) | simp)
@[simp] theorem State.countFlight_pending (a0 : State) (a1 : Nat) (a2 : Bool) (a3 : Int) : (State.countFlight a0 a1 a2 a3).pending = a0.pending := by
  unfold State.countFlight
  repeat' (first | with_reducible rfl | (simp; done) | split | (intro _) | (with_reducible refine foldl_pending (fun _ _ => ?_) ?_) | simp)
@[simp] theorem State.uncounted_pending (a0 : State) (a1 : Nat) (a2 : Packet) : (State.uncounted a0 a1 a2).pending = a0.pending := by
  unfold State.uncounted
  repeat' (first | with_reducible rfl | (simp; done) | split | (intro _) | (with_reducible refine foldl_pending (fun _ _ => ?_) ?_) | simp)
@[simp] theorem State.consume_pending (a0 : State) (a1 : Nat) (a2 : Packet) : (State.consume a0 a1 a2).pending = a0.pending := by
  unfold State.consume
  repeat' (first | with_reducible rfl | (simp; done) | split | (intro _) | (with_reducible refine foldl_pending (fun _ _ => ?_) ?_) | simp)
@[simp] theorem State.owe_pending (a0 : State) (a1 : Nat) (a2 : Packet) : (State.owe a0 a1 a2).pending = a0.pending := by
  unfold State.owe
  repeat' (first | with_reducible rfl | (simp; done) | split | (intro _) | (with_reducible refine foldl_pending (fun _ _ => ?_) ?_) | simp)
@[simp] theorem State.sampleRouter_pending (a0 : State) (a1 : Nat) (a2 : Nat) (a3 : Nat) : (State.sampleRouter a0 a1 a2 a3).pending = a0.pending := by
  unfold State.sampleRouter
  repeat' (first | with_reducible rfl | (simp; done) | split | (intro _) | (with_reducible refine foldl_pending (fun _ _ => ?_) ?_) | simp)
@[simp] theorem State.routerLook_pending (a0 : State) (a1 : Nat) : (State.routerLook a0 a1).pending = a0.pending := by
  unfold State.routerLook
  repeat' (first | with_reducible rfl | (simp; done) | split | (intro _) | (with_reducible refine foldl_pending (fun _ _ => ?_) ?_) | simp)
@[simp] theorem State.routersLook_pending (a0 : State) (a1 : Nat) : (State.routersLook a0 a1).pending = a0.pending := by
  unfold State.routersLook
  repeat' (first | with_reducible rfl | (simp; done) | split | (intro _) | (with_reducible refine foldl_pending (fun _ _ => ?_) ?_) | simp)
@[simp] theorem State.moveFlight_pending (a0 : State) (a1 : Nat) (a2 : Packet) (a3 : Packet) : (State.moveFlight a0 a1 a2 a3).pending = a0.pending := by
  unfold State.moveFlight
  repeat' (first | with_reducible rfl | (simp; done) | split | (intro _) | (with_reducible refine foldl_pending (fun _ _ => ?_) ?_) | simp)
@[simp] theorem State.enter_pending (a0 : State) (a1 : Nat) (a2 : Packet) (a3 : Nat) (a4 : Nat) (a5 : Bool) : (State.enter a0 a1 a2 a3 a4 a5).pending = a0.pending := by
  unfold State.enter
  repeat' (first | with_reducible rfl | (simp; done) | split | (intro _) | (with_reducible refine foldl_pending (fun _ _ => ?_) ?_) | simp)
@[simp] theorem State.injectGo_pending (a0 : State) (a1 : Nat) (a2 : Nat) (a3 : Nat) (a4 : Nat) : (State.injectGo a0 a1 a2 a3 a4).pending = a0.pending := by
  induction a4 generalizing a0 with
  | zero => unfold State.injectGo; rfl
  | succ n ih => unfold State.injectGo; repeat' (first | with_reducible rfl | (simp [ih]; done) | split | (intro _) | (with_reducible refine foldl_pending (fun _ _ => ?_) ?_) | simp [ih])
@[simp] theorem State.freed_pending (a0 : State) (a1 : Packet) : (State.freed a0 a1).pending = a0.pending := by
  unfold State.freed
  repeat' (first | with_reducible rfl | (simp; done) | split | (intro _) | (with_reducible refine foldl_pending (fun _ _ => ?_) ?_) | simp)
@[simp] theorem State.forward_pending (a0 : State) (a1 : Nat) (a2 : Nat) (a3 : Packet) (a4 : Nat) (a5 : Bool) (a6 : Bool) : (State.forward a0 a1 a2 a3 a4 a5 a6).pending = a0.pending := by
  unfold State.forward
  repeat' (first | with_reducible rfl | (simp; done) | split | (intro _) | (with_reducible refine foldl_pending (fun _ _ => ?_) ?_) | simp)
@[simp] theorem State.deliver_pending (a0 : State) (a1 : Nat) (a2 : Nat) (a3 : Packet) : (State.deliver a0 a1 a2 a3).pending = a0.pending := by
  unfold State.deliver
  repeat' (first | with_reducible rfl | (simp; done) | split | (intro _) | (with_reducible refine foldl_pending (fun _ _ => ?_) ?_) | simp)
@[simp] theorem State.copyOut_pending (a0 : State) (a1 : Nat) (a2 : Nat) (a3 : Packet) (a4 : List Nat) (a5 : Nat) : (State.copyOut a0 a1 a2 a3 a4 a5).pending = a0.pending := by
  unfold State.copyOut
  repeat' (first | with_reducible rfl | (simp; done) | split | (intro _) | (with_reducible refine foldl_pending (fun _ _ => ?_) ?_) | simp)
@[simp] theorem State.stamp_pending (a0 : State) (a1 : Packet) (a2 : Nat) : (State.stamp a0 a1 a2).2.pending = a0.pending := by
  unfold State.stamp
  repeat' (first | with_reducible rfl | (simp; done) | split | (intro _) | (with_reducible refine foldl_pending (fun _ _ => ?_) ?_) | simp)
@[simp] theorem State.launch_pending (a0 : State) (a1 : Nat) (a2 : Packet) (a3 : Nat) : (State.launch a0 a1 a2 a3).pending = a0.pending := by
  unfold State.launch
  repeat' (first | with_reducible rfl | (simp; done) | split | (intro _) | (with_reducible refine foldl_pending (fun _ _ => ?_) ?_) | simp)
@[simp] theorem State.reply_pending (a0 : State) (a1 : Nat) (a2 : Packet) (a3 : Nat) (a4 : Nat) (a5 : Nat) (a6 : Nat) (a7 : Bytes) : (State.reply a0 a1 a2 a3 a4 a5 a6 a7).pending = a0.pending := by
  unfold State.reply
  repeat' (first | with_reducible rfl | (simp; done) | split | (intro _) | (with_reducible refine foldl_pending (fun _ _ => ?_) ?_) | simp)
@[simp] theorem State.answer_pending (a0 : State) (a1 : Nat) (a2 : Packet) (a3 : Nat) (a4 : Nat) (a5 : Nat) : (State.answer a0 a1 a2 a3 a4 a5).pending = a0.pending := by
  unfold State.answer
  repeat' (first | with_reducible rfl | (simp; done) | split | (intro _) | (with_reducible refine foldl_pending (fun _ _ => ?_) ?_) | simp)
@[simp] theorem State.refuse_pending (a0 : State) (a1 : Nat) (a2 : Packet) (a3 : Nat) (a4 : Nat) : (State.refuse a0 a1 a2 a3 a4).pending = a0.pending := by
  unfold State.refuse
  repeat' (first | with_reducible rfl | (simp; done) | split | (intro _) | (with_reducible refine foldl_pending (fun _ _ => ?_) ?_) | simp)
@[simp] theorem State.notice_pending (a0 : State) (a1 : Nat) (a2 : Nat) (a3 : Nat) (a4 : Nat) (a5 : Nat) (a6 : Bool) : (State.notice a0 a1 a2 a3 a4 a5 a6).pending = a0.pending := by
  unfold State.notice
  repeat' (first | with_reducible rfl | (simp; done) | split | (intro _) | (with_reducible refine foldl_pending (fun _ _ => ?_) ?_) | simp)
@[simp] theorem State.mcast_pending (a0 : State) (a1 : Nat) (a2 : Nat) (a3 : Nat) (a4 : Bytes) (a5 : Option Nat) : (State.mcast a0 a1 a2 a3 a4 a5).pending = a0.pending := by
  unfold State.mcast
  repeat' (first | with_reducible rfl | (simp; done) | split | (intro _) | (with_reducible refine foldl_pending (fun _ _ => ?_) ?_) | simp)
@[simp] theorem State.egress_fused (a0 : State) (a1 : Packet) : (State.egress a0 a1).fused = a0.fused := by
  unfold State.egress
  repeat' (first | with_reducible rfl | (simp; done) | split | (intro _) | (with_reducible refine foldl_fused (fun _ _ => ?_) ?_) | simp)
@[simp] theorem State.countFlight_fused (a0 : State) (a1 : Nat) (a2 : Bool) (a3 : Int) : (State.countFlight a0 a1 a2 a3).fused = a0.fused := by
  unfold State.countFlight
  repeat' (first | with_reducible rfl | (simp; done) | split | (intro _) | (with_reducible refine foldl_fused (fun _ _ => ?_) ?_) | simp)
@[simp] theorem State.uncounted_fused (a0 : State) (a1 : Nat) (a2 : Packet) : (State.uncounted a0 a1 a2).fused = a0.fused := by
  unfold State.uncounted
  repeat' (first | with_reducible rfl | (simp; done) | split | (intro _) | (with_reducible refine foldl_fused (fun _ _ => ?_) ?_) | simp)
@[simp] theorem State.consume_fused (a0 : State) (a1 : Nat) (a2 : Packet) : (State.consume a0 a1 a2).fused = a0.fused := by
  unfold State.consume
  repeat' (first | with_reducible rfl | (simp; done) | split | (intro _) | (with_reducible refine foldl_fused (fun _ _ => ?_) ?_) | simp)
@[simp] theorem State.owe_fused (a0 : State) (a1 : Nat) (a2 : Packet) : (State.owe a0 a1 a2).fused = a0.fused := by
  unfold State.owe
  repeat' (first | with_reducible rfl | (simp; done) | split | (intro _) | (with_reducible refine foldl_fused (fun _ _ => ?_) ?_) | simp)
@[simp] theorem State.sampleRouter_fused (a0 : State) (a1 : Nat) (a2 : Nat) (a3 : Nat) : (State.sampleRouter a0 a1 a2 a3).fused = a0.fused := by
  unfold State.sampleRouter
  repeat' (first | with_reducible rfl | (simp; done) | split | (intro _) | (with_reducible refine foldl_fused (fun _ _ => ?_) ?_) | simp)
@[simp] theorem State.routerLook_fused (a0 : State) (a1 : Nat) : (State.routerLook a0 a1).fused = a0.fused := by
  unfold State.routerLook
  repeat' (first | with_reducible rfl | (simp; done) | split | (intro _) | (with_reducible refine foldl_fused (fun _ _ => ?_) ?_) | simp)
@[simp] theorem State.routersLook_fused (a0 : State) (a1 : Nat) : (State.routersLook a0 a1).fused = a0.fused := by
  unfold State.routersLook
  repeat' (first | with_reducible rfl | (simp; done) | split | (intro _) | (with_reducible refine foldl_fused (fun _ _ => ?_) ?_) | simp)
@[simp] theorem State.moveFlight_fused (a0 : State) (a1 : Nat) (a2 : Packet) (a3 : Packet) : (State.moveFlight a0 a1 a2 a3).fused = a0.fused := by
  unfold State.moveFlight
  repeat' (first | with_reducible rfl | (simp; done) | split | (intro _) | (with_reducible refine foldl_fused (fun _ _ => ?_) ?_) | simp)
@[simp] theorem State.enter_fused (a0 : State) (a1 : Nat) (a2 : Packet) (a3 : Nat) (a4 : Nat) (a5 : Bool) : (State.enter a0 a1 a2 a3 a4 a5).fused = a0.fused := by
  unfold State.enter
  repeat' (first | with_reducible rfl | (simp; done) | split | (intro _) | (with_reducible refine foldl_fused (fun _ _ => ?_) ?_) | simp)
@[simp] theorem State.injectGo_fused (a0 : State) (a1 : Nat) (a2 : Nat) (a3 : Nat) (a4 : Nat) : (State.injectGo a0 a1 a2 a3 a4).fused = a0.fused := by
  induction a4 generalizing a0 with
  | zero => unfold State.injectGo; rfl
  | succ n ih => unfold State.injectGo; repeat' (first | with_reducible rfl | (simp [ih]; done) | split | (intro _) | (with_reducible refine foldl_fused (fun _ _ => ?_) ?_) | simp [ih])
@[simp] theorem State.freed_fused (a0 : State) (a1 : Packet) : (State.freed a0 a1).fused = a0.fused := by
  unfold State.freed
  repeat' (first | with_reducible rfl | (simp; done) | split | (intro _) | (with_reducible refine foldl_fused (fun _ _ => ?_) ?_) | simp)
@[simp] theorem State.forward_fused (a0 : State) (a1 : Nat) (a2 : Nat) (a3 : Packet) (a4 : Nat) (a5 : Bool) (a6 : Bool) : (State.forward a0 a1 a2 a3 a4 a5 a6).fused = a0.fused := by
  unfold State.forward
  repeat' (first | with_reducible rfl | (simp; done) | split | (intro _) | (with_reducible refine foldl_fused (fun _ _ => ?_) ?_) | simp)
@[simp] theorem State.deliver_fused (a0 : State) (a1 : Nat) (a2 : Nat) (a3 : Packet) : (State.deliver a0 a1 a2 a3).fused = a0.fused := by
  unfold State.deliver
  repeat' (first | with_reducible rfl | (simp; done) | split | (intro _) | (with_reducible refine foldl_fused (fun _ _ => ?_) ?_) | simp)
@[simp] theorem State.copyOut_fused (a0 : State) (a1 : Nat) (a2 : Nat) (a3 : Packet) (a4 : List Nat) (a5 : Nat) : (State.copyOut a0 a1 a2 a3 a4 a5).fused = a0.fused := by
  unfold State.copyOut
  repeat' (first | with_reducible rfl | (simp; done) | split | (intro _) | (with_reducible refine foldl_fused (fun _ _ => ?_) ?_) | simp)
@[simp] theorem State.stamp_fused (a0 : State) (a1 : Packet) (a2 : Nat) : (State.stamp a0 a1 a2).2.fused = a0.fused := by
  unfold State.stamp
  repeat' (first | with_reducible rfl | (simp; done) | split | (intro _) | (with_reducible refine foldl_fused (fun _ _ => ?_) ?_) | simp)
@[simp] theorem State.launch_fused (a0 : State) (a1 : Nat) (a2 : Packet) (a3 : Nat) : (State.launch a0 a1 a2 a3).fused = a0.fused := by
  unfold State.launch
  repeat' (first | with_reducible rfl | (simp; done) | split | (intro _) | (with_reducible refine foldl_fused (fun _ _ => ?_) ?_) | simp)
@[simp] theorem State.reply_fused (a0 : State) (a1 : Nat) (a2 : Packet) (a3 : Nat) (a4 : Nat) (a5 : Nat) (a6 : Nat) (a7 : Bytes) : (State.reply a0 a1 a2 a3 a4 a5 a6 a7).fused = a0.fused := by
  unfold State.reply
  repeat' (first | with_reducible rfl | (simp; done) | split | (intro _) | (with_reducible refine foldl_fused (fun _ _ => ?_) ?_) | simp)
@[simp] theorem State.answer_fused (a0 : State) (a1 : Nat) (a2 : Packet) (a3 : Nat) (a4 : Nat) (a5 : Nat) : (State.answer a0 a1 a2 a3 a4 a5).fused = a0.fused := by
  unfold State.answer
  repeat' (first | with_reducible rfl | (simp; done) | split | (intro _) | (with_reducible refine foldl_fused (fun _ _ => ?_) ?_) | simp)
@[simp] theorem State.refuse_fused (a0 : State) (a1 : Nat) (a2 : Packet) (a3 : Nat) (a4 : Nat) : (State.refuse a0 a1 a2 a3 a4).fused = a0.fused := by
  unfold State.refuse
  repeat' (first | with_reducible rfl | (simp; done) | split | (intro _) | (with_reducible refine foldl_fused (fun _ _ => ?_) ?_) | simp)
@[simp] theorem State.notice_fused (a0 : State) (a1 : Nat) (a2 : Nat) (a3 : Nat) (a4 : Nat) (a5 : Nat) (a6 : Bool) : (State.notice a0 a1 a2 a3 a4 a5 a6).fused = a0.fused := by
  unfold State.notice
  repeat' (first | with_reducible rfl | (simp; done) | split | (intro _) | (with_reducible refine foldl_fused (fun _ _ => ?_) ?_) | simp)
@[simp] theorem State.mcast_fused (a0 : State) (a1 : Nat) (a2 : Nat) (a3 : Nat) (a4 : Bytes) (a5 : Option Nat) : (State.mcast a0 a1 a2 a3 a4 a5).fused = a0.fused := by
  unfold State.mcast
  repeat' (first | with_reducible rfl | (simp; done) | split | (intro _) | (with_reducible refine foldl_fused (fun _ _ => ?_) ?_) | simp)

end Sys2Proof.Machine
end

