-- ==== Sys2Proof/Laws/KeptTile.lean ====
section
/-! SUPPORT. What the operations of Packets, PortOps, Resets, Wakes, RedOps, PageOps leave unchanged: the queue of waiting
commands and, but for the three that burn them, the fuses. -/

namespace Sys2Proof.Machine

/-! Packets -/

@[simp] theorem State.setReplyState_pending (a0 : State) (a1 : Nat) (a2 : Nat) (a3 : Nat) (a4 : Option Nat) : (State.setReplyState a0 a1 a2 a3 a4).pending = a0.pending := by
  unfold State.setReplyState
  repeat' (first | with_reducible rfl | (simp; done) | split | (intro _) | (with_reducible refine foldl_pending (fun _ _ => ?_) ?_) | simp)
@[simp] theorem State.spaceMarks_pending (a0 : State) (a1 : Nat) : (State.spaceMarks a0 a1).pending = a0.pending := by
  unfold State.spaceMarks
  repeat' (first | with_reducible rfl | (simp; done) | split | (intro _) | (with_reducible refine foldl_pending (fun _ _ => ?_) ?_) | simp)
@[simp] theorem State.finishSend_pending (a0 : State) (a1 : Nat) (a2 : Nat) (a3 : Packet) (a4 : Nat) : (State.finishSend a0 a1 a2 a3 a4).pending = a0.pending := by
  unfold State.finishSend
  repeat' (first | with_reducible rfl | (simp; done) | split | (intro _) | (with_reducible refine foldl_pending (fun _ _ => ?_) ?_) | simp)
@[simp] theorem State.leaveHead_pending (a0 : State) (a1 : Nat) : (State.leaveHead a0 a1).pending = a0.pending := by
  unfold State.leaveHead
  repeat' (first | with_reducible rfl | (simp; done) | split | (intro _) | (with_reducible refine foldl_pending (fun _ _ => ?_) ?_) | simp)
@[simp] theorem State.barrierDone_pending (a0 : State) (a1 : Nat) (a2 : Nat) (a3 : Nat) : (State.barrierDone a0 a1 a2 a3).pending = a0.pending := by
  unfold State.barrierDone
  repeat' (first | with_reducible rfl | (simp; done) | split | (intro _) | (with_reducible refine foldl_pending (fun _ _ => ?_) ?_) | simp)
@[simp] theorem State.quietReached_pending (a0 : State) (a1 : Nat) : (State.quietReached a0 a1).pending = a0.pending := by
  unfold State.quietReached
  repeat' (first | with_reducible rfl | (simp; done) | split | (intro _) | (with_reducible refine foldl_pending (fun _ _ => ?_) ?_) | simp)
@[simp] theorem State.setReplyState_fused (a0 : State) (a1 : Nat) (a2 : Nat) (a3 : Nat) (a4 : Option Nat) : (State.setReplyState a0 a1 a2 a3 a4).fused = a0.fused := by
  unfold State.setReplyState
  repeat' (first | with_reducible rfl | (simp; done) | split | (intro _) | (with_reducible refine foldl_fused (fun _ _ => ?_) ?_) | simp)
@[simp] theorem State.spaceMarks_fused (a0 : State) (a1 : Nat) : (State.spaceMarks a0 a1).fused = a0.fused := by
  unfold State.spaceMarks
  repeat' (first | with_reducible rfl | (simp; done) | split | (intro _) | (with_reducible refine foldl_fused (fun _ _ => ?_) ?_) | simp)
@[simp] theorem State.finishSend_fused (a0 : State) (a1 : Nat) (a2 : Nat) (a3 : Packet) (a4 : Nat) : (State.finishSend a0 a1 a2 a3 a4).fused = a0.fused := by
  unfold State.finishSend
  repeat' (first | with_reducible rfl | (simp; done) | split | (intro _) | (with_reducible refine foldl_fused (fun _ _ => ?_) ?_) | simp)
@[simp] theorem State.leaveHead_fused (a0 : State) (a1 : Nat) : (State.leaveHead a0 a1).fused = a0.fused := by
  unfold State.leaveHead
  repeat' (first | with_reducible rfl | (simp; done) | split | (intro _) | (with_reducible refine foldl_fused (fun _ _ => ?_) ?_) | simp)
@[simp] theorem State.barrierDone_fused (a0 : State) (a1 : Nat) (a2 : Nat) (a3 : Nat) : (State.barrierDone a0 a1 a2 a3).fused = a0.fused := by
  unfold State.barrierDone
  repeat' (first | with_reducible rfl | (simp; done) | split | (intro _) | (with_reducible refine foldl_fused (fun _ _ => ?_) ?_) | simp)
@[simp] theorem State.quietReached_fused (a0 : State) (a1 : Nat) : (State.quietReached a0 a1).fused = a0.fused := by
  unfold State.quietReached
  repeat' (first | with_reducible rfl | (simp; done) | split | (intro _) | (with_reducible refine foldl_fused (fun _ _ => ?_) ?_) | simp)

/-! PortOps -/

@[simp] theorem State.countPort_pending (a0 : State) (a1 : Nat) (a2 : Nat) : (State.countPort a0 a1 a2).pending = a0.pending := by
  unfold State.countPort
  repeat' (first | with_reducible rfl | (simp; done) | split | (intro _) | (with_reducible refine foldl_pending (fun _ _ => ?_) ?_) | simp)
@[simp] theorem State.countPeer_pending (a0 : State) (a1 : Nat) (a2 : Nat) : (State.countPeer a0 a1 a2).pending = a0.pending := by
  unfold State.countPeer
  repeat' (first | with_reducible rfl | (simp; done) | split | (intro _) | (with_reducible refine foldl_pending (fun _ _ => ?_) ?_) | simp)
@[simp] theorem State.modPeer_pending (a0 : State) (a1 : Nat) (a2 : Nat) (a3 : PeerSt → PeerSt) : (State.modPeer a0 a1 a2 a3).pending = a0.pending := by
  unfold State.modPeer
  repeat' (first | with_reducible rfl | (simp; done) | split | (intro _) | (with_reducible refine foldl_pending (fun _ _ => ?_) ?_) | simp)
@[simp] theorem State.wire_pending (a0 : State) (a1 : Nat) (a2 : Option Nat) (a3 : Frame) : (State.wire a0 a1 a2 a3).pending = a0.pending := by
  unfold State.wire
  repeat' (first | with_reducible rfl | (simp; done) | split | (intro _) | (with_reducible refine foldl_pending (fun _ _ => ?_) ?_) | simp)
@[simp] theorem State.transmit_pending (a0 : State) (a1 : Nat) (a2 : Frame) : (State.transmit a0 a1 a2).pending = a0.pending := by
  unfold State.transmit
  repeat' (first | with_reducible rfl | (simp; done) | split | (intro _) | (with_reducible refine foldl_pending (fun _ _ => ?_) ?_) | simp)
@[simp] theorem State.directed_pending (a0 : State) (a1 : Nat) (a2 : Nat) (a3 : Frame) : (State.directed a0 a1 a2 a3).pending = a0.pending := by
  unfold State.directed
  repeat' (first | with_reducible rfl | (simp; done) | split | (intro _) | (with_reducible refine foldl_pending (fun _ _ => ?_) ?_) | simp)
@[simp] theorem State.transmitTo_pending (a0 : State) (a1 : Nat) (a2 : Nat) (a3 : Frame) : (State.transmitTo a0 a1 a2 a3).pending = a0.pending := by
  unfold State.transmitTo
  repeat' (first | with_reducible rfl | (simp; done) | split | (intro _) | (with_reducible refine foldl_pending (fun _ _ => ?_) ?_) | simp)
@[simp] theorem State.putOn_pending (a0 : State) (a1 : Nat) (a2 : Nat) (a3 : Nat) (a4 : Frame) : (State.putOn a0 a1 a2 a3 a4).pending = a0.pending := by
  unfold State.putOn
  repeat' (first | with_reducible rfl | (simp; done) | split | (intro _) | (with_reducible refine foldl_pending (fun _ _ => ?_) ?_) | simp)
@[simp] theorem State.sendData_pending (a0 : State) (a1 : Nat) (a2 : Nat) (a3 : Nat) (a4 : Frame) : (State.sendData a0 a1 a2 a3 a4).pending = a0.pending := by
  unfold State.sendData
  repeat' (first | with_reducible rfl | (simp; done) | split | (intro _) | (with_reducible refine foldl_pending (fun _ _ => ?_) ?_) | simp)
@[simp] theorem State.sendHeld_pending (a0 : State) (a1 : Nat) (a2 : Nat) (a3 : Nat) (a4 : Nat) : (State.sendHeld a0 a1 a2 a3 a4).pending = a0.pending := by
  induction a4 generalizing a0 with
  | zero => unfold State.sendHeld; rfl
  | succ n ih => unfold State.sendHeld; repeat' (first | with_reducible rfl | (simp [ih]; done) | split | (intro _) | (with_reducible refine foldl_pending (fun _ _ => ?_) ?_) | simp [ih])
@[simp] theorem State.sendRequest_pending (a0 : State) (a1 : Nat) (a2 : Nat) (a3 : Nat) (a4 : Nat) (a5 : OutWhy) (a6 : Option Nat) (a7 : Frame) : (State.sendRequest a0 a1 a2 a3 a4 a5 a6 a7).pending = a0.pending := by
  unfold State.sendRequest
  repeat' (first | with_reducible rfl | (simp; done) | split | (intro _) | (with_reducible refine foldl_pending (fun _ _ => ?_) ?_) | simp)
@[simp] theorem State.sendReply_pending (a0 : State) (a1 : Nat) (a2 : Nat) (a3 : Nat) (a4 : Nat) (a5 : Frame) : (State.sendReply a0 a1 a2 a3 a4 a5).pending = a0.pending := by
  unfold State.sendReply
  repeat' (first | with_reducible rfl | (simp; done) | split | (intro _) | (with_reducible refine foldl_pending (fun _ _ => ?_) ?_) | simp)
@[simp] theorem State.peerReply_pending (a0 : State) (a1 : Nat) (a2 : Nat) (a3 : Nat) (a4 : Nat) (a5 : Nat) (a6 : Nat) (a7 : Nat) (a8 : Bytes) : (State.peerReply a0 a1 a2 a3 a4 a5 a6 a7 a8).pending = a0.pending := by
  unfold State.peerReply
  repeat' (first | with_reducible rfl | (simp; done) | split | (intro _) | (with_reducible refine foldl_pending (fun _ _ => ?_) ?_) | simp)
@[simp] theorem State.replyTo_pending (a0 : State) (a1 : Nat) (a2 : Frame) (a3 : Nat) (a4 : Bytes) : (State.replyTo a0 a1 a2 a3 a4).pending = a0.pending := by
  unfold State.replyTo
  repeat' (first | with_reducible rfl | (simp; done) | split | (intro _) | (with_reducible refine foldl_pending (fun _ _ => ?_) ?_) | simp)
@[simp] theorem State.sendAck_pending (a0 : State) (a1 : Nat) (a2 : Nat) (a3 : Nat) : (State.sendAck a0 a1 a2 a3).pending = a0.pending := by
  unfold State.sendAck
  repeat' (first | with_reducible rfl | (simp; done) | split | (intro _) | (with_reducible refine foldl_pending (fun _ _ => ?_) ?_) | simp)
@[simp] theorem State.heard_pending (a0 : State) (a1 : Nat) (a2 : Nat) : (State.heard a0 a1 a2).pending = a0.pending := by
  unfold State.heard
  repeat' (first | with_reducible rfl | (simp; done) | split | (intro _) | (with_reducible refine foldl_pending (fun _ _ => ?_) ?_) | simp)
@[simp] theorem State.newJob_pending (a0 : State) (a1 : Nat) (a2 : DieJob) : (State.newJob a0 a1 a2).2.pending = a0.pending := by
  unfold State.newJob
  repeat' (first | with_reducible rfl | (simp; done) | split | (intro _) | (with_reducible refine foldl_pending (fun _ _ => ?_) ?_) | simp)
@[simp] theorem State.dieRequest_pending (a0 : State) (a1 : Nat) (a2 : Nat) (a3 : Nat) (a4 : Nat) (a5 : Nat) (a6 : Nat) (a7 : Nat) (a8 : Nat) (a9 : Nat) (a10 : Nat) (a11 : Nat) (a12 : Nat) (a13 : Nat) (a14 : Bytes) : (State.dieRequest a0 a1 a2 a3 a4 a5 a6 a7 a8 a9 a10 a11 a12 a13 a14).pending = a0.pending := by
  unfold State.dieRequest
  repeat' (first | with_reducible rfl | (simp; done) | split | (intro _) | (with_reducible refine foldl_pending (fun _ _ => ?_) ?_) | simp)
@[simp] theorem State.meshWrite_pending (a0 : State) (a1 : Nat) (a2 : Nat) (a3 : Nat) (a4 : Nat) (a5 : Nat) (a6 : Bytes) : (State.meshWrite a0 a1 a2 a3 a4 a5 a6).pending = a0.pending := by
  unfold State.meshWrite
  repeat' (first | with_reducible rfl | (simp; done) | split | (intro _) | (with_reducible refine foldl_pending (fun _ _ => ?_) ?_) | simp)
@[simp] theorem State.meshRead_pending (a0 : State) (a1 : Nat) (a2 : Nat) (a3 : Nat) (a4 : Nat) (a5 : Nat) : (State.meshRead a0 a1 a2 a3 a4 a5).pending = a0.pending := by
  unfold State.meshRead
  repeat' (first | with_reducible rfl | (simp; done) | split | (intro _) | (with_reducible refine foldl_pending (fun _ _ => ?_) ?_) | simp)
@[simp] theorem State.setInGroup_pending (a0 : State) (a1 : Nat) (a2 : Nat) (a3 : Option InGroup) : (State.setInGroup a0 a1 a2 a3).pending = a0.pending := by
  unfold State.setInGroup
  repeat' (first | with_reducible rfl | (simp; done) | split | (intro _) | (with_reducible refine foldl_pending (fun _ _ => ?_) ?_) | simp)
@[simp] theorem State.endGroupTiles_pending (a0 : State) (a1 : Nat) (a2 : Nat) (a3 : InGroup) (a4 : Bool) : (State.endGroupTiles a0 a1 a2 a3 a4).pending = a0.pending := by
  unfold State.endGroupTiles
  repeat' (first | with_reducible rfl | (simp; done) | split | (intro _) | (with_reducible refine foldl_pending (fun _ _ => ?_) ?_) | simp)
@[simp] theorem State.abortGroup_pending (a0 : State) (a1 : Nat) (a2 : Nat) : (State.abortGroup a0 a1 a2).pending = a0.pending := by
  unfold State.abortGroup
  repeat' (first | with_reducible rfl | (simp; done) | split | (intro _) | (with_reducible refine foldl_pending (fun _ _ => ?_) ?_) | simp)
@[simp] theorem State.abortGroups_pending (a0 : State) (a1 : Nat) (a2 : InGroup → Bool) : (State.abortGroups a0 a1 a2).pending = a0.pending := by
  unfold State.abortGroups
  repeat' (first | with_reducible rfl | (simp; done) | split | (intro _) | (with_reducible refine foldl_pending (fun _ _ => ?_) ?_) | simp)
@[simp] theorem State.failOut_pending (a0 : State) (a1 : Nat) (a2 : OutReq → Bool) (a3 : Nat) (a4 : State → OutReq → Nat → State) (h : ∀ s r n, (a4 s r n).pending = s.pending) : (State.failOut a0 a1 a2 a3 a4).pending = a0.pending := by
  unfold State.failOut
  exact foldl_pending (fun _ _ => h _ _ _) (by simp)
@[simp] theorem State.setRed_pending (a0 : State) (a1 : Nat) (a2 : Nat) (a3 : Option RedEntry) : (State.setRed a0 a1 a2 a3).pending = a0.pending := by
  unfold State.setRed
  repeat' (first | with_reducible rfl | (simp; done) | split | (intro _) | (with_reducible refine foldl_pending (fun _ _ => ?_) ?_) | simp)
@[simp] theorem State.countPort_fused (a0 : State) (a1 : Nat) (a2 : Nat) : (State.countPort a0 a1 a2).fused = a0.fused := by
  unfold State.countPort
  repeat' (first | with_reducible rfl | (simp; done) | split | (intro _) | (with_reducible refine foldl_fused (fun _ _ => ?_) ?_) | simp)
@[simp] theorem State.countPeer_fused (a0 : State) (a1 : Nat) (a2 : Nat) : (State.countPeer a0 a1 a2).fused = a0.fused := by
  unfold State.countPeer
  repeat' (first | with_reducible rfl | (simp; done) | split | (intro _) | (with_reducible refine foldl_fused (fun _ _ => ?_) ?_) | simp)
@[simp] theorem State.modPeer_fused (a0 : State) (a1 : Nat) (a2 : Nat) (a3 : PeerSt → PeerSt) : (State.modPeer a0 a1 a2 a3).fused = a0.fused := by
  unfold State.modPeer
  repeat' (first | with_reducible rfl | (simp; done) | split | (intro _) | (with_reducible refine foldl_fused (fun _ _ => ?_) ?_) | simp)
@[simp] theorem State.wire_fused (a0 : State) (a1 : Nat) (a2 : Option Nat) (a3 : Frame) : (State.wire a0 a1 a2 a3).fused = a0.fused := by
  unfold State.wire
  repeat' (first | with_reducible rfl | (simp; done) | split | (intro _) | (with_reducible refine foldl_fused (fun _ _ => ?_) ?_) | simp)
@[simp] theorem State.transmit_fused (a0 : State) (a1 : Nat) (a2 : Frame) : (State.transmit a0 a1 a2).fused = a0.fused := by
  unfold State.transmit
  repeat' (first | with_reducible rfl | (simp; done) | split | (intro _) | (with_reducible refine foldl_fused (fun _ _ => ?_) ?_) | simp)
@[simp] theorem State.directed_fused (a0 : State) (a1 : Nat) (a2 : Nat) (a3 : Frame) : (State.directed a0 a1 a2 a3).fused = a0.fused := by
  unfold State.directed
  repeat' (first | with_reducible rfl | (simp; done) | split | (intro _) | (with_reducible refine foldl_fused (fun _ _ => ?_) ?_) | simp)
@[simp] theorem State.transmitTo_fused (a0 : State) (a1 : Nat) (a2 : Nat) (a3 : Frame) : (State.transmitTo a0 a1 a2 a3).fused = a0.fused := by
  unfold State.transmitTo
  repeat' (first | with_reducible rfl | (simp; done) | split | (intro _) | (with_reducible refine foldl_fused (fun _ _ => ?_) ?_) | simp)
@[simp] theorem State.putOn_fused (a0 : State) (a1 : Nat) (a2 : Nat) (a3 : Nat) (a4 : Frame) : (State.putOn a0 a1 a2 a3 a4).fused = a0.fused := by
  unfold State.putOn
  repeat' (first | with_reducible rfl | (simp; done) | split | (intro _) | (with_reducible refine foldl_fused (fun _ _ => ?_) ?_) | simp)
@[simp] theorem State.sendData_fused (a0 : State) (a1 : Nat) (a2 : Nat) (a3 : Nat) (a4 : Frame) : (State.sendData a0 a1 a2 a3 a4).fused = a0.fused := by
  unfold State.sendData
  repeat' (first | with_reducible rfl | (simp; done) | split | (intro _) | (with_reducible refine foldl_fused (fun _ _ => ?_) ?_) | simp)
@[simp] theorem State.sendHeld_fused (a0 : State) (a1 : Nat) (a2 : Nat) (a3 : Nat) (a4 : Nat) : (State.sendHeld a0 a1 a2 a3 a4).fused = a0.fused := by
  induction a4 generalizing a0 with
  | zero => unfold State.sendHeld; rfl
  | succ n ih => unfold State.sendHeld; repeat' (first | with_reducible rfl | (simp [ih]; done) | split | (intro _) | (with_reducible refine foldl_fused (fun _ _ => ?_) ?_) | simp [ih])
@[simp] theorem State.sendRequest_fused (a0 : State) (a1 : Nat) (a2 : Nat) (a3 : Nat) (a4 : Nat) (a5 : OutWhy) (a6 : Option Nat) (a7 : Frame) : (State.sendRequest a0 a1 a2 a3 a4 a5 a6 a7).fused = a0.fused := by
  unfold State.sendRequest
  repeat' (first | with_reducible rfl | (simp; done) | split | (intro _) | (with_reducible refine foldl_fused (fun _ _ => ?_) ?_) | simp)
@[simp] theorem State.sendReply_fused (a0 : State) (a1 : Nat) (a2 : Nat) (a3 : Nat) (a4 : Nat) (a5 : Frame) : (State.sendReply a0 a1 a2 a3 a4 a5).fused = a0.fused := by
  unfold State.sendReply
  repeat' (first | with_reducible rfl | (simp; done) | split | (intro _) | (with_reducible refine foldl_fused (fun _ _ => ?_) ?_) | simp)
@[simp] theorem State.peerReply_fused (a0 : State) (a1 : Nat) (a2 : Nat) (a3 : Nat) (a4 : Nat) (a5 : Nat) (a6 : Nat) (a7 : Nat) (a8 : Bytes) : (State.peerReply a0 a1 a2 a3 a4 a5 a6 a7 a8).fused = a0.fused := by
  unfold State.peerReply
  repeat' (first | with_reducible rfl | (simp; done) | split | (intro _) | (with_reducible refine foldl_fused (fun _ _ => ?_) ?_) | simp)
@[simp] theorem State.replyTo_fused (a0 : State) (a1 : Nat) (a2 : Frame) (a3 : Nat) (a4 : Bytes) : (State.replyTo a0 a1 a2 a3 a4).fused = a0.fused := by
  unfold State.replyTo
  repeat' (first | with_reducible rfl | (simp; done) | split | (intro _) | (with_reducible refine foldl_fused (fun _ _ => ?_) ?_) | simp)
@[simp] theorem State.sendAck_fused (a0 : State) (a1 : Nat) (a2 : Nat) (a3 : Nat) : (State.sendAck a0 a1 a2 a3).fused = a0.fused := by
  unfold State.sendAck
  repeat' (first | with_reducible rfl | (simp; done) | split | (intro _) | (with_reducible refine foldl_fused (fun _ _ => ?_) ?_) | simp)
@[simp] theorem State.heard_fused (a0 : State) (a1 : Nat) (a2 : Nat) : (State.heard a0 a1 a2).fused = a0.fused := by
  unfold State.heard
  repeat' (first | with_reducible rfl | (simp; done) | split | (intro _) | (with_reducible refine foldl_fused (fun _ _ => ?_) ?_) | simp)
@[simp] theorem State.newJob_fused (a0 : State) (a1 : Nat) (a2 : DieJob) : (State.newJob a0 a1 a2).2.fused = a0.fused := by
  unfold State.newJob
  repeat' (first | with_reducible rfl | (simp; done) | split | (intro _) | (with_reducible refine foldl_fused (fun _ _ => ?_) ?_) | simp)
@[simp] theorem State.dieRequest_fused (a0 : State) (a1 : Nat) (a2 : Nat) (a3 : Nat) (a4 : Nat) (a5 : Nat) (a6 : Nat) (a7 : Nat) (a8 : Nat) (a9 : Nat) (a10 : Nat) (a11 : Nat) (a12 : Nat) (a13 : Nat) (a14 : Bytes) : (State.dieRequest a0 a1 a2 a3 a4 a5 a6 a7 a8 a9 a10 a11 a12 a13 a14).fused = a0.fused := by
  unfold State.dieRequest
  repeat' (first | with_reducible rfl | (simp; done) | split | (intro _) | (with_reducible refine foldl_fused (fun _ _ => ?_) ?_) | simp)
@[simp] theorem State.meshWrite_fused (a0 : State) (a1 : Nat) (a2 : Nat) (a3 : Nat) (a4 : Nat) (a5 : Nat) (a6 : Bytes) : (State.meshWrite a0 a1 a2 a3 a4 a5 a6).fused = a0.fused := by
  unfold State.meshWrite
  repeat' (first | with_reducible rfl | (simp; done) | split | (intro _) | (with_reducible refine foldl_fused (fun _ _ => ?_) ?_) | simp)
@[simp] theorem State.meshRead_fused (a0 : State) (a1 : Nat) (a2 : Nat) (a3 : Nat) (a4 : Nat) (a5 : Nat) : (State.meshRead a0 a1 a2 a3 a4 a5).fused = a0.fused := by
  unfold State.meshRead
  repeat' (first | with_reducible rfl | (simp; done) | split | (intro _) | (with_reducible refine foldl_fused (fun _ _ => ?_) ?_) | simp)
@[simp] theorem State.setInGroup_fused (a0 : State) (a1 : Nat) (a2 : Nat) (a3 : Option InGroup) : (State.setInGroup a0 a1 a2 a3).fused = a0.fused := by
  unfold State.setInGroup
  repeat' (first | with_reducible rfl | (simp; done) | split | (intro _) | (with_reducible refine foldl_fused (fun _ _ => ?_) ?_) | simp)
@[simp] theorem State.endGroupTiles_fused (a0 : State) (a1 : Nat) (a2 : Nat) (a3 : InGroup) (a4 : Bool) : (State.endGroupTiles a0 a1 a2 a3 a4).fused = a0.fused := by
  unfold State.endGroupTiles
  repeat' (first | with_reducible rfl | (simp; done) | split | (intro _) | (with_reducible refine foldl_fused (fun _ _ => ?_) ?_) | simp)
@[simp] theorem State.abortGroup_fused (a0 : State) (a1 : Nat) (a2 : Nat) : (State.abortGroup a0 a1 a2).fused = a0.fused := by
  unfold State.abortGroup
  repeat' (first | with_reducible rfl | (simp; done) | split | (intro _) | (with_reducible refine foldl_fused (fun _ _ => ?_) ?_) | simp)
@[simp] theorem State.abortGroups_fused (a0 : State) (a1 : Nat) (a2 : InGroup → Bool) : (State.abortGroups a0 a1 a2).fused = a0.fused := by
  unfold State.abortGroups
  repeat' (first | with_reducible rfl | (simp; done) | split | (intro _) | (with_reducible refine foldl_fused (fun _ _ => ?_) ?_) | simp)
@[simp] theorem State.failOut_fused (a0 : State) (a1 : Nat) (a2 : OutReq → Bool) (a3 : Nat) (a4 : State → OutReq → Nat → State) (h : ∀ s r n, (a4 s r n).fused = s.fused) : (State.failOut a0 a1 a2 a3 a4).fused = a0.fused := by
  unfold State.failOut
  exact foldl_fused (fun _ _ => h _ _ _) (by simp)
@[simp] theorem State.setRed_fused (a0 : State) (a1 : Nat) (a2 : Nat) (a3 : Option RedEntry) : (State.setRed a0 a1 a2 a3).fused = a0.fused := by
  unfold State.setRed
  repeat' (first | with_reducible rfl | (simp; done) | split | (intro _) | (with_reducible refine foldl_fused (fun _ _ => ?_) ?_) | simp)

/-! Resets -/

@[simp] theorem State.pageAnswer_pending (a0 : State) (a1 : Nat) (a2 : PageClient) (a3 : Nat) (a4 : Nat) (a5 : Nat) (a6 : Nat) (a7 : Bytes) : (State.pageAnswer a0 a1 a2 a3 a4 a5 a6 a7).pending = a0.pending := by
  unfold State.pageAnswer
  repeat' (first | with_reducible rfl | (simp; done) | split | (intro _) | (with_reducible refine foldl_pending (fun _ _ => ?_) ?_) | simp)
@[simp] theorem State.attendsEnd_pending (a0 : State) (a1 : Nat) (a2 : Nat) (a3 : Nat) : (State.attendsEnd a0 a1 a2 a3).pending = a0.pending := by
  unfold State.attendsEnd
  repeat' (first | with_reducible rfl | (simp; done) | split | (intro _) | (with_reducible refine foldl_pending (fun _ _ => ?_) ?_) | simp)
@[simp] theorem State.storeLost_pending (a0 : State) (a1 : Nat) (a2 : Nat) : (State.storeLost a0 a1 a2).pending = a0.pending := by
  unfold State.storeLost
  repeat' (first | with_reducible rfl | (simp; done) | split | (intro _) | (with_reducible refine foldl_pending (fun _ _ => ?_) ?_) | simp)
@[simp] theorem State.regionLost_pending (a0 : State) (a1 : Nat) (a2 : Nat) : (State.regionLost a0 a1 a2).pending = a0.pending := by
  unfold State.regionLost
  repeat' (first | with_reducible rfl | (simp; done) | split | (intro _) | (with_reducible refine foldl_pending (fun _ _ => ?_) ?_) | simp)
@[simp] theorem State.copyFailed_pending (a0 : State) (a1 : Nat) (a2 : Nat) : (State.copyFailed a0 a1 a2).pending = a0.pending := by
  unfold State.copyFailed
  repeat' (first | with_reducible rfl | (simp; done) | split | (intro _) | (with_reducible refine foldl_pending (fun _ _ => ?_) ?_) | simp)
@[simp] theorem State.abandonMigration_pending (a0 : State) (a1 : Nat) (a2 : Nat) : (State.abandonMigration a0 a1 a2).pending = a0.pending := by
  unfold State.abandonMigration
  repeat' (first | with_reducible rfl | (simp; done) | split | (intro _) | (with_reducible refine foldl_pending (fun _ _ => ?_) ?_) | simp)
@[simp] theorem State.abandonShadow_pending (a0 : State) (a1 : Nat) : (State.abandonShadow a0 a1).pending = a0.pending := by
  unfold State.abandonShadow
  repeat' (first | with_reducible rfl | (simp; done) | split | (intro _) | (with_reducible refine foldl_pending (fun _ _ => ?_) ?_) | simp)
@[simp] theorem State.abandonShadows_pending (a0 : State) (a1 : Nat) : (State.abandonShadows a0 a1).pending = a0.pending := by
  unfold State.abandonShadows
  repeat' (first | with_reducible rfl | (simp; done) | split | (intro _) | (with_reducible refine foldl_pending (fun _ _ => ?_) ?_) | simp)
@[simp] theorem State.dropShadows_pending (a0 : State) (a1 : Nat) : (State.dropShadows a0 a1).pending = a0.pending := by
  unfold State.dropShadows
  repeat' (first | with_reducible rfl | (simp; done) | split | (intro _) | (with_reducible refine foldl_pending (fun _ _ => ?_) ?_) | simp)
@[simp] theorem State.dropUnissued_pending (a0 : State) (a1 : Nat) : (State.dropUnissued a0 a1).pending = a0.pending := by
  unfold State.dropUnissued
  repeat' (first | with_reducible rfl | (simp; done) | split | (intro _) | (with_reducible refine foldl_pending (fun _ _ => ?_) ?_) | simp)
@[simp] theorem State.resetTile_pending (a0 : State) (a1 : Nat) (a2 : Bool) (a3 : Nat) : (State.resetTile a0 a1 a2 a3).pending = a0.pending := by
  unfold State.resetTile
  repeat' (first | with_reducible rfl | (simp; done) | split | (intro _) | (with_reducible refine foldl_pending (fun _ _ => ?_) ?_) | simp)
@[simp] theorem State.resetRouter_pending (a0 : State) (a1 : Nat) : (State.resetRouter a0 a1).pending = a0.pending := by
  unfold State.resetRouter
  repeat' (first | with_reducible rfl | (simp; done) | split | (intro _) | (with_reducible refine foldl_pending (fun _ _ => ?_) ?_) | simp)
@[simp] theorem State.resetMeadow_pending (a0 : State) (a1 : Nat) (a2 : Bool) : (State.resetMeadow a0 a1 a2).pending = a0.pending := by
  unfold State.resetMeadow
  repeat' (first | with_reducible rfl | (simp; done) | split | (intro _) | (with_reducible refine foldl_pending (fun _ _ => ?_) ?_) | simp)
@[simp] theorem State.countReset_pending (a0 : State) (a1 : Nat) : (State.countReset a0 a1).pending = a0.pending := by
  unfold State.countReset
  repeat' (first | with_reducible rfl | (simp; done) | split | (intro _) | (with_reducible refine foldl_pending (fun _ _ => ?_) ?_) | simp)
theorem State.takeDump_pending (a0 : State) (a1 : List Nat) (a2 : Bool) (a3 : Bool) (a4 : Nat) {t : State} (h : State.takeDump a0 a1 a2 a3 a4 = some t) : t.pending = a0.pending := by
  unfold State.takeDump at h
  simp only [Option.map_eq_some_iff] at h
  obtain ⟨n, -, rfl⟩ := h
  rfl
@[simp] theorem State.hangFound_pending (a0 : State) (a1 : Nat) (a2 : Nat) : (State.hangFound a0 a1 a2).pending = a0.pending := by
  unfold State.hangFound
  split
  · have hd : ((State.takeDump a0 (a0.meadowUnits a1) false false 1).getD a0).pending = a0.pending := by
      cases hx : State.takeDump a0 (a0.meadowUnits a1) false false 1 with
      | none => rfl
      | some t => exact State.takeDump_pending _ _ _ _ _ hx
    dsimp only
    split <;> simp [hd]
  · rfl
@[simp] theorem State.pageAnswer_fused (a0 : State) (a1 : Nat) (a2 : PageClient) (a3 : Nat) (a4 : Nat) (a5 : Nat) (a6 : Nat) (a7 : Bytes) : (State.pageAnswer a0 a1 a2 a3 a4 a5 a6 a7).fused = a0.fused := by
  unfold State.pageAnswer
  repeat' (first | with_reducible rfl | (simp; done) | split | (intro _) | (with_reducible refine foldl_fused (fun _ _ => ?_) ?_) | simp)
@[simp] theorem State.attendsEnd_fused (a0 : State) (a1 : Nat) (a2 : Nat) (a3 : Nat) : (State.attendsEnd a0 a1 a2 a3).fused = a0.fused := by
  unfold State.attendsEnd
  repeat' (first | with_reducible rfl | (simp; done) | split | (intro _) | (with_reducible refine foldl_fused (fun _ _ => ?_) ?_) | simp)
@[simp] theorem State.storeLost_fused (a0 : State) (a1 : Nat) (a2 : Nat) : (State.storeLost a0 a1 a2).fused = a0.fused := by
  unfold State.storeLost
  repeat' (first | with_reducible rfl | (simp; done) | split | (intro _) | (with_reducible refine foldl_fused (fun _ _ => ?_) ?_) | simp)
@[simp] theorem State.regionLost_fused (a0 : State) (a1 : Nat) (a2 : Nat) : (State.regionLost a0 a1 a2).fused = a0.fused := by
  unfold State.regionLost
  repeat' (first | with_reducible rfl | (simp; done) | split | (intro _) | (with_reducible refine foldl_fused (fun _ _ => ?_) ?_) | simp)
@[simp] theorem State.copyFailed_fused (a0 : State) (a1 : Nat) (a2 : Nat) : (State.copyFailed a0 a1 a2).fused = a0.fused := by
  unfold State.copyFailed
  repeat' (first | with_reducible rfl | (simp; done) | split | (intro _) | (with_reducible refine foldl_fused (fun _ _ => ?_) ?_) | simp)
@[simp] theorem State.abandonMigration_fused (a0 : State) (a1 : Nat) (a2 : Nat) : (State.abandonMigration a0 a1 a2).fused = a0.fused := by
  unfold State.abandonMigration
  repeat' (first | with_reducible rfl | (simp; done) | split | (intro _) | (with_reducible refine foldl_fused (fun _ _ => ?_) ?_) | simp)
@[simp] theorem State.abandonShadow_fused (a0 : State) (a1 : Nat) : (State.abandonShadow a0 a1).fused = a0.fused := by
  unfold State.abandonShadow
  repeat' (first | with_reducible rfl | (simp; done) | split | (intro _) | (with_reducible refine foldl_fused (fun _ _ => ?_) ?_) | simp)
@[simp] theorem State.abandonShadows_fused (a0 : State) (a1 : Nat) : (State.abandonShadows a0 a1).fused = a0.fused := by
  unfold State.abandonShadows
  repeat' (first | with_reducible rfl | (simp; done) | split | (intro _) | (with_reducible refine foldl_fused (fun _ _ => ?_) ?_) | simp)
@[simp] theorem State.dropShadows_fused (a0 : State) (a1 : Nat) : (State.dropShadows a0 a1).fused = a0.fused := by
  unfold State.dropShadows
  repeat' (first | with_reducible rfl | (simp; done) | split | (intro _) | (with_reducible refine foldl_fused (fun _ _ => ?_) ?_) | simp)
@[simp] theorem State.dropUnissued_fused (a0 : State) (a1 : Nat) : (State.dropUnissued a0 a1).fused = a0.fused := by
  unfold State.dropUnissued
  repeat' (first | with_reducible rfl | (simp; done) | split | (intro _) | (with_reducible refine foldl_fused (fun _ _ => ?_) ?_) | simp)
@[simp] theorem State.resetTile_fused (a0 : State) (a1 : Nat) (a2 : Bool) (a3 : Nat) : (State.resetTile a0 a1 a2 a3).fused = a0.fused := by
  unfold State.resetTile
  repeat' (first | with_reducible rfl | (simp; done) | split | (intro _) | (with_reducible refine foldl_fused (fun _ _ => ?_) ?_) | simp)
@[simp] theorem State.resetRouter_fused (a0 : State) (a1 : Nat) : (State.resetRouter a0 a1).fused = a0.fused := by
  unfold State.resetRouter
  repeat' (first | with_reducible rfl | (simp; done) | split | (intro _) | (with_reducible refine foldl_fused (fun _ _ => ?_) ?_) | simp)
@[simp] theorem State.resetMeadow_fused (a0 : State) (a1 : Nat) (a2 : Bool) : (State.resetMeadow a0 a1 a2).fused = a0.fused := by
  unfold State.resetMeadow
  repeat' (first | with_reducible rfl | (simp; done) | split | (intro _) | (with_reducible refine foldl_fused (fun _ _ => ?_) ?_) | simp)
@[simp] theorem State.countReset_fused (a0 : State) (a1 : Nat) : (State.countReset a0 a1).fused = a0.fused := by
  unfold State.countReset
  repeat' (first | with_reducible rfl | (simp; done) | split | (intro _) | (with_reducible refine foldl_fused (fun _ _ => ?_) ?_) | simp)
theorem State.takeDump_fused (a0 : State) (a1 : List Nat) (a2 : Bool) (a3 : Bool) (a4 : Nat) {t : State} (h : State.takeDump a0 a1 a2 a3 a4 = some t) : t.fused = a0.fused := by
  unfold State.takeDump at h
  simp only [Option.map_eq_some_iff] at h
  obtain ⟨n, -, rfl⟩ := h
  rfl
@[simp] theorem State.hangFound_fused (a0 : State) (a1 : Nat) (a2 : Nat) : (State.hangFound a0 a1 a2).fused = a0.fused := by
  unfold State.hangFound
  split
  · have hd : ((State.takeDump a0 (a0.meadowUnits a1) false false 1).getD a0).fused = a0.fused := by
      cases hx : State.takeDump a0 (a0.meadowUnits a1) false false 1 with
      | none => rfl
      | some t => exact State.takeDump_fused _ _ _ _ _ hx
    dsimp only
    split <;> simp [hd]
  · rfl

/-! Wakes -/

@[simp] theorem State.startTile_pending (a0 : State) (a1 : Nat) (a2 : Nat) (a3 : Nat) : (State.startTile a0 a1 a2 a3).pending = a0.pending := by
  unfold State.startTile
  repeat' (first | with_reducible rfl | (simp; done) | split | (intro _) | (with_reducible refine foldl_pending (fun _ _ => ?_) ?_) | simp)
@[simp] theorem State.wakeT3_pending (a0 : State) (a1 : Nat) : (State.wakeT3 a0 a1).pending = a0.pending := by
  unfold State.wakeT3
  repeat' (first | with_reducible rfl | (simp; done) | split | (intro _) | (with_reducible refine foldl_pending (fun _ _ => ?_) ?_) | simp)
@[simp] theorem State.eventWake_pending (a0 : State) (a1 : Nat) : (State.eventWake a0 a1).pending = a0.pending := by
  unfold State.eventWake
  repeat' (first | with_reducible rfl | (simp; done) | split | (intro _) | (with_reducible refine foldl_pending (fun _ _ => ?_) ?_) | simp)
@[simp] theorem State.refuseHead_pending (a0 : State) (a1 : Nat) (a2 : Nat) : (State.refuseHead a0 a1 a2).pending = a0.pending := by
  unfold State.refuseHead
  repeat' (first | with_reducible rfl | (simp; done) | split | (intro _) | (with_reducible refine foldl_pending (fun _ _ => ?_) ?_) | simp)
@[simp] theorem State.startTile_fused (a0 : State) (a1 : Nat) (a2 : Nat) (a3 : Nat) : (State.startTile a0 a1 a2 a3).fused = a0.fused := by
  unfold State.startTile
  repeat' (first | with_reducible rfl | (simp; done) | split | (intro _) | (with_reducible refine foldl_fused (fun _ _ => ?_) ?_) | simp)
@[simp] theorem State.wakeT3_fused (a0 : State) (a1 : Nat) : (State.wakeT3 a0 a1).fused = a0.fused := by
  unfold State.wakeT3
  repeat' (first | with_reducible rfl | (simp; done) | split | (intro _) | (with_reducible refine foldl_fused (fun _ _ => ?_) ?_) | simp)
@[simp] theorem State.eventWake_fused (a0 : State) (a1 : Nat) : (State.eventWake a0 a1).fused = a0.fused := by
  unfold State.eventWake
  repeat' (first | with_reducible rfl | (simp; done) | split | (intro _) | (with_reducible refine foldl_fused (fun _ _ => ?_) ?_) | simp)
@[simp] theorem State.refuseHead_fused (a0 : State) (a1 : Nat) (a2 : Nat) : (State.refuseHead a0 a1 a2).fused = a0.fused := by
  unfold State.refuseHead
  repeat' (first | with_reducible rfl | (simp; done) | split | (intro _) | (with_reducible refine foldl_fused (fun _ _ => ?_) ?_) | simp)

/-! RedOps -/

@[simp] theorem State.notifyCounter_pending (a0 : State) (a1 : Nat) (a2 : Nat) : (State.notifyCounter a0 a1 a2).pending = a0.pending := by
  unfold State.notifyCounter
  repeat' (first | with_reducible rfl | (simp; done) | split | (intro _) | (with_reducible refine foldl_pending (fun _ _ => ?_) ?_) | simp)
@[simp] theorem State.redDone_pending (a0 : State) (a1 : Nat) (a2 : Nat) : (State.redDone a0 a1 a2).pending = a0.pending := by
  unfold State.redDone
  repeat' (first | with_reducible rfl | (simp; done) | split | (intro _) | (with_reducible refine foldl_pending (fun _ _ => ?_) ?_) | simp)
@[simp] theorem State.redRefused_pending (a0 : State) (a1 : Nat) (a2 : Nat) (a3 : Nat) : (State.redRefused a0 a1 a2 a3).pending = a0.pending := by
  unfold State.redRefused
  repeat' (first | with_reducible rfl | (simp; done) | split | (intro _) | (with_reducible refine foldl_pending (fun _ _ => ?_) ?_) | simp)
@[simp] theorem State.redForward_pending (a0 : State) (a1 : Nat) (a2 : Nat) (a3 : RedEntry) : (State.redForward a0 a1 a2 a3).pending = a0.pending := by
  unfold State.redForward
  repeat' (first | with_reducible rfl | (simp; done) | split | (intro _) | (with_reducible refine foldl_pending (fun _ _ => ?_) ?_) | simp)
@[simp] theorem State.redDeliver_pending (a0 : State) (a1 : Nat) (a2 : Nat) : (State.redDeliver a0 a1 a2).pending = a0.pending := by
  unfold State.redDeliver
  repeat' (first | with_reducible rfl | (simp; done) | split | (intro _) | (with_reducible refine foldl_pending (fun _ _ => ?_) ?_) | simp)
@[simp] theorem State.redCheck_pending (a0 : State) (a1 : Nat) (a2 : Nat) : (State.redCheck a0 a1 a2).pending = a0.pending := by
  unfold State.redCheck
  repeat' (first | with_reducible rfl | (simp; done) | split | (intro _) | (with_reducible refine foldl_pending (fun _ _ => ?_) ?_) | simp)
@[simp] theorem State.redOver_pending (a0 : State) (a1 : Nat) (a2 : Nat) (a3 : Nat) : (State.redOver a0 a1 a2 a3).pending = a0.pending := by
  unfold State.redOver
  repeat' (first | with_reducible rfl | (simp; done) | split | (intro _) | (with_reducible refine foldl_pending (fun _ _ => ?_) ?_) | simp)
@[simp] theorem State.redProgram_pending (a0 : State) (a1 : Nat) (a2 : Nat) (a3 : Nat) (a4 : Nat) (a5 : Nat) (a6 : Nat) (a7 : Bytes) : (State.redProgram a0 a1 a2 a3 a4 a5 a6 a7).pending = a0.pending := by
  unfold State.redProgram
  repeat' (first | with_reducible rfl | (simp; done) | split | (intro _) | (with_reducible refine foldl_pending (fun _ _ => ?_) ?_) | simp)
@[simp] theorem State.quietNotice_pending (a0 : State) (a1 : Nat) (a2 : Nat) : (State.quietNotice a0 a1 a2).pending = a0.pending := by
  unfold State.quietNotice
  repeat' (first | with_reducible rfl | (simp; done) | split | (intro _) | (with_reducible refine foldl_pending (fun _ _ => ?_) ?_) | simp)
@[simp] theorem State.quietCount_pending (a0 : State) (a1 : Nat) (a2 : Nat) (a3 : Nat) : (State.quietCount a0 a1 a2 a3).pending = a0.pending := by
  unfold State.quietCount
  repeat' (first | with_reducible rfl | (simp; done) | split | (intro _) | (with_reducible refine foldl_pending (fun _ _ => ?_) ?_) | simp)
@[simp] theorem State.modBarElem_pending (a0 : State) (a1 a2 a3 : Nat) (a4 : BarElem → BarElem) : (State.modBarElem a0 a1 a2 a3 a4).pending = a0.pending := by
  unfold State.modBarElem
  simp
@[simp] theorem State.barrierArrival_pending (a0 : State) (a1 : Nat) (a2 : Nat) (a3 : Nat) (a4 : Nat) (a5 : Nat) (a6 : Nat) : (State.barrierArrival a0 a1 a2 a3 a4 a5 a6).pending = a0.pending := by
  unfold State.barrierArrival
  repeat' (first | with_reducible rfl | (simp; done) | split | (intro _) | (with_reducible refine foldl_pending (fun _ _ => ?_) ?_) | simp)
@[simp] theorem State.stepMismatch_pending (a0 : State) (a1 : Nat) : (State.stepMismatch a0 a1).pending = a0.pending := by
  unfold State.stepMismatch
  repeat' (first | with_reducible rfl | (simp; done) | split | (intro _) | (with_reducible refine foldl_pending (fun _ _ => ?_) ?_) | simp)
@[simp] theorem State.stepReleased_pending (a0 : State) (a1 : Nat) (a2 : Nat) : (State.stepReleased a0 a1 a2).pending = a0.pending := by
  unfold State.stepReleased
  repeat' (first | with_reducible rfl | (simp; done) | split | (intro _) | (with_reducible refine foldl_pending (fun _ _ => ?_) ?_) | simp)
@[simp] theorem State.sendReleases_pending (a0 : State) (a1 : Nat) : (State.sendReleases a0 a1).pending = a0.pending := by
  unfold State.sendReleases
  repeat' (first | with_reducible rfl | (simp; done) | split | (intro _) | (with_reducible refine foldl_pending (fun _ _ => ?_) ?_) | simp)
@[simp] theorem State.redModule_pending (a0 : State) (a1 a2 a3 a4 : Nat) (a5 : Bytes) : (State.redModule a0 a1 a2 a3 a4 a5).pending = a0.pending := by
  unfold State.redModule
  extract_lets n v x w y s
  have hs : s.pending = a0.pending := by
    clear_value y
    dsimp only [s]
    split <;> simp
  clear_value s y n
  split
  · simp [hs]
  · split
    · split
      · simp [hs]
      · exact hs
    · split
      · exact hs
      · dsimp only
        repeat' (first | (simp [hs]; done) | split)
@[simp] theorem State.stepArrive_pending (a0 : State) (a1 : Nat) : (State.stepArrive a0 a1).pending = a0.pending := by
  unfold State.stepArrive
  repeat' (first | with_reducible rfl | (simp; done) | split | (intro _) | (with_reducible refine foldl_pending (fun _ _ => ?_) ?_) | simp)
@[simp] theorem State.redArrive_pending (a0 : State) (a1 : Nat) (a2 : Nat) (a3 : Nat) (a4 : Nat) (a5 : Nat) (a6 : Nat) (a7 : Nat) (a8 : Bytes) : (State.redArrive a0 a1 a2 a3 a4 a5 a6 a7 a8).pending = a0.pending := by
  unfold State.redArrive
  repeat' (first | with_reducible rfl | (simp; done) | split | (intro _) | (with_reducible refine foldl_pending (fun _ _ => ?_) ?_) | simp)
@[simp] theorem State.notifyCounter_fused (a0 : State) (a1 : Nat) (a2 : Nat) : (State.notifyCounter a0 a1 a2).fused = a0.fused := by
  unfold State.notifyCounter
  repeat' (first | with_reducible rfl | (simp; done) | split | (intro _) | (with_reducible refine foldl_fused (fun _ _ => ?_) ?_) | simp)
@[simp] theorem State.redDone_fused (a0 : State) (a1 : Nat) (a2 : Nat) : (State.redDone a0 a1 a2).fused = a0.fused := by
  unfold State.redDone
  repeat' (first | with_reducible rfl | (simp; done) | split | (intro _) | (with_reducible refine foldl_fused (fun _ _ => ?_) ?_) | simp)
@[simp] theorem State.redRefused_fused (a0 : State) (a1 : Nat) (a2 : Nat) (a3 : Nat) : (State.redRefused a0 a1 a2 a3).fused = a0.fused := by
  unfold State.redRefused
  repeat' (first | with_reducible rfl | (simp; done) | split | (intro _) | (with_reducible refine foldl_fused (fun _ _ => ?_) ?_) | simp)
@[simp] theorem State.redForward_fused (a0 : State) (a1 : Nat) (a2 : Nat) (a3 : RedEntry) : (State.redForward a0 a1 a2 a3).fused = a0.fused := by
  unfold State.redForward
  repeat' (first | with_reducible rfl | (simp; done) | split | (intro _) | (with_reducible refine foldl_fused (fun _ _ => ?_) ?_) | simp)
@[simp] theorem State.redDeliver_fused (a0 : State) (a1 : Nat) (a2 : Nat) : (State.redDeliver a0 a1 a2).fused = a0.fused := by
  unfold State.redDeliver
  repeat' (first | with_reducible rfl | (simp; done) | split | (intro _) | (with_reducible refine foldl_fused (fun _ _ => ?_) ?_) | simp)
@[simp] theorem State.redCheck_fused (a0 : State) (a1 : Nat) (a2 : Nat) : (State.redCheck a0 a1 a2).fused = a0.fused := by
  unfold State.redCheck
  repeat' (first | with_reducible rfl | (simp; done) | split | (intro _) | (with_reducible refine foldl_fused (fun _ _ => ?_) ?_) | simp)
@[simp] theorem State.redOver_fused (a0 : State) (a1 : Nat) (a2 : Nat) (a3 : Nat) : (State.redOver a0 a1 a2 a3).fused = a0.fused := by
  unfold State.redOver
  repeat' (first | with_reducible rfl | (simp; done) | split | (intro _) | (with_reducible refine foldl_fused (fun _ _ => ?_) ?_) | simp)
@[simp] theorem State.redProgram_fused (a0 : State) (a1 : Nat) (a2 : Nat) (a3 : Nat) (a4 : Nat) (a5 : Nat) (a6 : Nat) (a7 : Bytes) : (State.redProgram a0 a1 a2 a3 a4 a5 a6 a7).fused = a0.fused := by
  unfold State.redProgram
  repeat' (first | with_reducible rfl | (simp; done) | split | (intro _) | (with_reducible refine foldl_fused (fun _ _ => ?_) ?_) | simp)
@[simp] theorem State.quietNotice_fused (a0 : State) (a1 : Nat) (a2 : Nat) : (State.quietNotice a0 a1 a2).fused = a0.fused := by
  unfold State.quietNotice
  repeat' (first | with_reducible rfl | (simp; done) | split | (intro _) | (with_reducible refine foldl_fused (fun _ _ => ?_) ?_) | simp)
@[simp] theorem State.quietCount_fused (a0 : State) (a1 : Nat) (a2 : Nat) (a3 : Nat) : (State.quietCount a0 a1 a2 a3).fused = a0.fused := by
  unfold State.quietCount
  repeat' (first | with_reducible rfl | (simp; done) | split | (intro _) | (with_reducible refine foldl_fused (fun _ _ => ?_) ?_) | simp)
@[simp] theorem State.modBarElem_fused (a0 : State) (a1 a2 a3 : Nat) (a4 : BarElem → BarElem) : (State.modBarElem a0 a1 a2 a3 a4).fused = a0.fused := by
  unfold State.modBarElem
  simp
@[simp] theorem State.barrierArrival_fused (a0 : State) (a1 : Nat) (a2 : Nat) (a3 : Nat) (a4 : Nat) (a5 : Nat) (a6 : Nat) : (State.barrierArrival a0 a1 a2 a3 a4 a5 a6).fused = a0.fused := by
  unfold State.barrierArrival
  repeat' (first | with_reducible rfl | (simp; done) | split | (intro _) | (with_reducible refine foldl_fused (fun _ _ => ?_) ?_) | simp)
@[simp] theorem State.stepMismatch_fused (a0 : State) (a1 : Nat) : (State.stepMismatch a0 a1).fused = a0.fused := by
  unfold State.stepMismatch
  repeat' (first | with_reducible rfl | (simp; done) | split | (intro _) | (with_reducible refine foldl_fused (fun _ _ => ?_) ?_) | simp)
@[simp] theorem State.stepReleased_fused (a0 : State) (a1 : Nat) (a2 : Nat) : (State.stepReleased a0 a1 a2).fused = a0.fused := by
  unfold State.stepReleased
  repeat' (first | with_reducible rfl | (simp; done) | split | (intro _) | (with_reducible refine foldl_fused (fun _ _ => ?_) ?_) | simp)
@[simp] theorem State.sendReleases_fused (a0 : State) (a1 : Nat) : (State.sendReleases a0 a1).fused = a0.fused := by
  unfold State.sendReleases
  repeat' (first | with_reducible rfl | (simp; done) | split | (intro _) | (with_reducible refine foldl_fused (fun _ _ => ?_) ?_) | simp)
@[simp] theorem State.redModule_fused (a0 : State) (a1 a2 a3 a4 : Nat) (a5 : Bytes) : (State.redModule a0 a1 a2 a3 a4 a5).fused = a0.fused := by
  unfold State.redModule
  extract_lets n v x w y s
  have hs : s.fused = a0.fused := by
    clear_value y
    dsimp only [s]
    split <;> simp
  clear_value s y n
  split
  · simp [hs]
  · split
    · split
      · simp [hs]
      · exact hs
    · split
      · exact hs
      · dsimp only
        repeat' (first | (simp [hs]; done) | split)
@[simp] theorem State.stepArrive_fused (a0 : State) (a1 : Nat) : (State.stepArrive a0 a1).fused = a0.fused := by
  unfold State.stepArrive
  repeat' (first | with_reducible rfl | (simp; done) | split | (intro _) | (with_reducible refine foldl_fused (fun _ _ => ?_) ?_) | simp)
@[simp] theorem State.redArrive_fused (a0 : State) (a1 : Nat) (a2 : Nat) (a3 : Nat) (a4 : Nat) (a5 : Nat) (a6 : Nat) (a7 : Nat) (a8 : Bytes) : (State.redArrive a0 a1 a2 a3 a4 a5 a6 a7 a8).fused = a0.fused := by
  unfold State.redArrive
  repeat' (first | with_reducible rfl | (simp; done) | split | (intro _) | (with_reducible refine foldl_fused (fun _ _ => ?_) ?_) | simp)

/-! PageOps -/

@[simp] theorem State.pageRefuse_pending (a0 : State) (a1 : Nat) (a2 : PageClient) (a3 : Nat) (a4 : Nat) (a5 : Nat) : (State.pageRefuse a0 a1 a2 a3 a4 a5).pending = a0.pending := by
  unfold State.pageRefuse
  repeat' (first | with_reducible rfl | (simp; done) | split | (intro _) | (with_reducible refine foldl_pending (fun _ _ => ?_) ?_) | simp)
@[simp] theorem State.takeFrame_pending (a0 : State) (a1 : Nat) (a2 : Nat) (a3 : Nat) (a4 : Nat) (a5 : Nat × Nat) : (State.takeFrame a0 a1 a2 a3 a4 a5).2.pending = a0.pending := by
  unfold State.takeFrame
  repeat' (first | with_reducible rfl | (simp; done) | split | (intro _) | (with_reducible refine foldl_pending (fun _ _ => ?_) ?_) | simp)
theorem State.allocHalf_pending (a0 : State) (a1 : Nat) (a2 : Nat) (a3 : Nat) (a4 : Nat) (a5 : Bool) {t : Nat × State} (h : State.allocHalf a0 a1 a2 a3 a4 a5 = some t) : t.2.pending = a0.pending := by
  unfold State.allocHalf at h
  split at h
  · simp only [Option.map_eq_some_iff] at h
    obtain ⟨n, -, rfl⟩ := h
    simp
  · simp only [Option.map_eq_some_iff] at h
    obtain ⟨n, -, rfl⟩ := h
    simp
@[simp] theorem State.attendAdd_pending (a0 : State) (a1 : Nat) (a2 : Nat) (a3 : Nat) (a4 : AttendReq) : (State.attendAdd a0 a1 a2 a3 a4).pending = a0.pending := by
  unfold State.attendAdd
  repeat' (first | with_reducible rfl | (simp; done) | split | (intro _) | (with_reducible refine foldl_pending (fun _ _ => ?_) ?_) | simp)
@[simp] theorem State.pageAct_pending (a0 : State) (a1 : Nat) (a2 : PageClient) (a3 : Nat) (a4 : PageReq) (a5 : Nat) : (State.pageAct a0 a1 a2 a3 a4 a5).pending = a0.pending := by
  unfold State.pageAct
  repeat' (first | with_reducible rfl | (simp; done) | split | (intro _) | (with_reducible refine foldl_pending (fun _ _ => ?_) ?_) | simp)
@[simp] theorem State.pageWritten_pending (a0 : State) (a1 : Nat) (a2 : PageClient) (a3 : Nat) (a4 : Nat) (a5 : Nat) (a6 : Nat) (a7 : Nat) (a8 : Nat) : (State.pageWritten a0 a1 a2 a3 a4 a5 a6 a7 a8).pending = a0.pending := by
  unfold State.pageWritten
  repeat' (first | with_reducible rfl | (simp; done) | split | (intro _) | (with_reducible refine foldl_pending (fun _ _ => ?_) ?_) | simp)
@[simp] theorem State.pageForward_pending (a0 : State) (a1 : Nat) (a2 : Nat) (a3 : Nat) (a4 : Nat) (a5 : PageReq) : (State.pageForward a0 a1 a2 a3 a4 a5).pending = a0.pending := by
  unfold State.pageForward
  repeat' (first | with_reducible rfl | (simp; done) | split | (intro _) | (with_reducible refine foldl_pending (fun _ _ => ?_) ?_) | simp)
@[simp] theorem State.allocFrom_pending (a0 : State) (a1 : Nat) (a2 : Nat) (a3 : Nat) (a4 : Nat) (a5 : Nat) (a6 : Nat) : (State.allocFrom a0 a1 a2 a3 a4 a5 a6).pending = a0.pending := by
  unfold State.allocFrom
  dsimp only
  split
  · split
    · rename_i h; simp [State.allocHalf_pending _ _ _ _ _ _ h]
    · simp
  · split
    · rename_i h; simp [State.allocHalf_pending _ _ _ _ _ _ h]
    · simp
@[simp] theorem State.pageForwarded_pending (a0 : State) (a1 : Nat) (a2 : Nat) (a3 : Nat) (a4 : Nat) (a5 : Nat) (a6 : Nat) (a7 : Nat) (a8 : Nat) (a9 : Nat) (a10 : Bytes) : (State.pageForwarded a0 a1 a2 a3 a4 a5 a6 a7 a8 a9 a10).pending = a0.pending := by
  unfold State.pageForwarded
  repeat' (first | with_reducible rfl | (simp; done) | split | (intro _) | (with_reducible refine foldl_pending (fun _ _ => ?_) ?_) | simp)
@[simp] theorem State.pageRequest_pending (a0 : State) (a1 : Nat) (a2 : Nat) (a3 : Nat) (a4 : Nat) (a5 : PageReq) (a6 : Nat) : (State.pageRequest a0 a1 a2 a3 a4 a5 a6).pending = a0.pending := by
  unfold State.pageRequest
  repeat' (first | with_reducible rfl | (simp; done) | split | (intro _) | (with_reducible refine foldl_pending (fun _ _ => ?_) ?_) | simp)
@[simp] theorem State.pageRefuse_fused (a0 : State) (a1 : Nat) (a2 : PageClient) (a3 : Nat) (a4 : Nat) (a5 : Nat) : (State.pageRefuse a0 a1 a2 a3 a4 a5).fused = a0.fused := by
  unfold State.pageRefuse
  repeat' (first | with_reducible rfl | (simp; done) | split | (intro _) | (with_reducible refine foldl_fused (fun _ _ => ?_) ?_) | simp)
@[simp] theorem State.takeFrame_fused (a0 : State) (a1 : Nat) (a2 : Nat) (a3 : Nat) (a4 : Nat) (a5 : Nat × Nat) : (State.takeFrame a0 a1 a2 a3 a4 a5).2.fused = a0.fused := by
  unfold State.takeFrame
  repeat' (first | with_reducible rfl | (simp; done) | split | (intro _) | (with_reducible refine foldl_fused (fun _ _ => ?_) ?_) | simp)
theorem State.allocHalf_fused (a0 : State) (a1 : Nat) (a2 : Nat) (a3 : Nat) (a4 : Nat) (a5 : Bool) {t : Nat × State} (h : State.allocHalf a0 a1 a2 a3 a4 a5 = some t) : t.2.fused = a0.fused := by
  unfold State.allocHalf at h
  split at h
  · simp only [Option.map_eq_some_iff] at h
    obtain ⟨n, -, rfl⟩ := h
    simp
  · simp only [Option.map_eq_some_iff] at h
    obtain ⟨n, -, rfl⟩ := h
    simp
@[simp] theorem State.attendAdd_fused (a0 : State) (a1 : Nat) (a2 : Nat) (a3 : Nat) (a4 : AttendReq) : (State.attendAdd a0 a1 a2 a3 a4).fused = a0.fused := by
  unfold State.attendAdd
  repeat' (first | with_reducible rfl | (simp; done) | split | (intro _) | (with_reducible refine foldl_fused (fun _ _ => ?_) ?_) | simp)
@[simp] theorem State.pageAct_fused (a0 : State) (a1 : Nat) (a2 : PageClient) (a3 : Nat) (a4 : PageReq) (a5 : Nat) : (State.pageAct a0 a1 a2 a3 a4 a5).fused = a0.fused := by
  unfold State.pageAct
  repeat' (first | with_reducible rfl | (simp; done) | split | (intro _) | (with_reducible refine foldl_fused (fun _ _ => ?_) ?_) | simp)
@[simp] theorem State.pageWritten_fused (a0 : State) (a1 : Nat) (a2 : PageClient) (a3 : Nat) (a4 : Nat) (a5 : Nat) (a6 : Nat) (a7 : Nat) (a8 : Nat) : (State.pageWritten a0 a1 a2 a3 a4 a5 a6 a7 a8).fused = a0.fused := by
  unfold State.pageWritten
  repeat' (first | with_reducible rfl | (simp; done) | split | (intro _) | (with_reducible refine foldl_fused (fun _ _ => ?_) ?_) | simp)
@[simp] theorem State.pageForward_fused (a0 : State) (a1 : Nat) (a2 : Nat) (a3 : Nat) (a4 : Nat) (a5 : PageReq) : (State.pageForward a0 a1 a2 a3 a4 a5).fused = a0.fused := by
  unfold State.pageForward
  repeat' (first | with_reducible rfl | (simp; done) | split | (intro _) | (with_reducible refine foldl_fused (fun _ _ => ?_) ?_) | simp)
@[simp] theorem State.allocFrom_fused (a0 : State) (a1 : Nat) (a2 : Nat) (a3 : Nat) (a4 : Nat) (a5 : Nat) (a6 : Nat) : (State.allocFrom a0 a1 a2 a3 a4 a5 a6).fused = a0.fused := by
  unfold State.allocFrom
  dsimp only
  split
  · split
    · rename_i h; simp [State.allocHalf_fused _ _ _ _ _ _ h]
    · simp
  · split
    · rename_i h; simp [State.allocHalf_fused _ _ _ _ _ _ h]
    · simp
@[simp] theorem State.pageForwarded_fused (a0 : State) (a1 : Nat) (a2 : Nat) (a3 : Nat) (a4 : Nat) (a5 : Nat) (a6 : Nat) (a7 : Nat) (a8 : Nat) (a9 : Nat) (a10 : Bytes) : (State.pageForwarded a0 a1 a2 a3 a4 a5 a6 a7 a8 a9 a10).fused = a0.fused := by
  unfold State.pageForwarded
  repeat' (first | with_reducible rfl | (simp; done) | split | (intro _) | (with_reducible refine foldl_fused (fun _ _ => ?_) ?_) | simp)
@[simp] theorem State.pageRequest_fused (a0 : State) (a1 : Nat) (a2 : Nat) (a3 : Nat) (a4 : Nat) (a5 : PageReq) (a6 : Nat) : (State.pageRequest a0 a1 a2 a3 a4 a5 a6).fused = a0.fused := by
  unfold State.pageRequest
  repeat' (first | with_reducible rfl | (simp; done) | split | (intro _) | (with_reducible refine foldl_fused (fun _ _ => ?_) ?_) | simp)

end Sys2Proof.Machine
end

