-- ==== Sys2Proof/Laws/KeptNet.lean ====
section
/-! SUPPORT. What the operations of CmdOps, HostOps, Dict, CommitCheck, Replies, Ports, Routes, Txns leave unchanged: the queue of waiting
commands and, but for the three that burn them, the fuses. -/

namespace Sys2Proof.Machine

/-! CmdOps -/

@[simp] theorem State.setCmd_pending (a0 : State) (a1 : Nat) (a2 : Nat) (a3 : Option PageCmd) : (State.setCmd a0 a1 a2 a3).pending = a0.pending := by
  unfold State.setCmd
  repeat' (first | with_reducible rfl | (simp; done) | split | (intro _) | (with_reducible refine foldl_pending (fun _ _ => ?_) ?_) | simp)
@[simp] theorem State.cmdFinish_pending (a0 : State) (a1 : Nat) (a2 : Nat) (a3 : Nat) (a4 : Bool) : (State.cmdFinish a0 a1 a2 a3 a4).pending = a0.pending := by
  unfold State.cmdFinish
  repeat' (first | with_reducible rfl | (simp; done) | split | (intro _) | (with_reducible refine foldl_pending (fun _ _ => ?_) ?_) | simp)
theorem State.cmdStore_pending (a0 : State) (a1 : Nat) (a2 : Nat) (a3 : Nat) (a4 : Nat) (a5 : Bytes) {t : State} (h : State.cmdStore a0 a1 a2 a3 a4 a5 = some t) : t.pending = a0.pending := by
  unfold State.cmdStore at h
  try dsimp only at h
  repeat' (first | (simp at h; done) | (simp only [Option.some.injEq] at h; subst h; repeat' (first | with_reducible rfl | (simp; done) | split | (intro _) | (with_reducible refine foldl_pending (fun _ _ => ?_) ?_) | simp)) | split at h)
@[simp] theorem State.cmdResult_pending (a0 : State) (a1 : Nat) (a2 : Nat) : (State.cmdResult a0 a1 a2).pending = a0.pending := by
  unfold State.cmdResult
  split
  · dsimp only
    split
    · rename_i h; simp [State.cmdStore_pending _ _ _ _ _ _ h]
    · simp
  · rfl
@[simp] theorem State.cmdSend_pending (a0 : State) (a1 : Nat) (a2 : Nat) (a3 : PageCmd) (a4 : Nat) (a5 : Nat) (a6 : Nat) (a7 : Nat) (a8 : Nat) (a9 : Nat) (a10 : Nat) (a11 : Bytes) : (State.cmdSend a0 a1 a2 a3 a4 a5 a6 a7 a8 a9 a10 a11).pending = a0.pending := by
  unfold State.cmdSend
  repeat' (first | with_reducible rfl | (simp; done) | split | (intro _) | (with_reducible refine foldl_pending (fun _ _ => ?_) ?_) | simp)
@[simp] theorem State.cmdFailed_pending (a0 : State) (a1 : Nat) (a2 : Nat) : (State.cmdFailed a0 a1 a2).pending = a0.pending := by
  unfold State.cmdFailed
  repeat' (first | with_reducible rfl | (simp; done) | split | (intro _) | (with_reducible refine foldl_pending (fun _ _ => ?_) ?_) | simp)
@[simp] theorem State.cmdChunks_pending (a0 : State) (a1 : Nat) (a2 : Nat) : (State.cmdChunks a0 a1 a2).pending = a0.pending := by
  unfold State.cmdChunks
  repeat' (first | with_reducible rfl | (simp; done) | split | (intro _) | (with_reducible refine foldl_pending (fun _ _ => ?_) ?_) | simp)
@[simp] theorem State.cmdLoaded_pending (a0 : State) (a1 : Nat) (a2 : Nat) (a3 : Nat) (a4 : Mem) : (State.cmdLoaded a0 a1 a2 a3 a4).pending = a0.pending := by
  unfold State.cmdLoaded
  repeat' (first | with_reducible rfl | (simp; done) | split | (intro _) | (with_reducible refine foldl_pending (fun _ _ => ?_) ?_) | simp)
@[simp] theorem State.cmdLoad_pending (a0 : State) (a1 : Nat) (a2 : Nat) (a3 : Nat) (a4 : Nat) (a5 : Nat) : (State.cmdLoad a0 a1 a2 a3 a4 a5).pending = a0.pending := by
  unfold State.cmdLoad
  repeat' (first | with_reducible rfl | (simp; done) | split | (intro _) | (with_reducible refine foldl_pending (fun _ _ => ?_) ?_) | simp)
@[simp] theorem State.cmdStart_pending (a0 : State) (a1 : Nat) (a2 : Nat) (a3 : Packet) : (State.cmdStart a0 a1 a2 a3).pending = a0.pending := by
  unfold State.cmdStart
  repeat' (first | with_reducible rfl | (simp; done) | split | (intro _) | (with_reducible refine foldl_pending (fun _ _ => ?_) ?_) | simp)
@[simp] theorem State.cmdAnswered_pending (a0 : State) (a1 : Nat) (a2 : Nat) : (State.cmdAnswered a0 a1 a2).pending = a0.pending := by
  unfold State.cmdAnswered
  split
  · dsimp only
    split
    · simp
    · split
      · split
        · rename_i h; simp [State.cmdStore_pending _ _ _ _ _ _ h]
        · simp
      · simp
  · rfl
@[simp] theorem State.cmdReply_pending (a0 : State) (a1 : Nat) (a2 : Nat) (a3 : Nat) (a4 : Nat) (a5 : Bytes) : (State.cmdReply a0 a1 a2 a3 a4 a5).pending = a0.pending := by
  unfold State.cmdReply
  repeat' (first | with_reducible rfl | (simp; done) | split | (intro _) | (with_reducible refine foldl_pending (fun _ _ => ?_) ?_) | simp)
@[simp] theorem State.cmdWrote_pending (a0 : State) (a1 : Nat) (a2 : Nat) (a3 : Nat) : (State.cmdWrote a0 a1 a2 a3).pending = a0.pending := by
  unfold State.cmdWrote
  repeat' (first | with_reducible rfl | (simp; done) | split | (intro _) | (with_reducible refine foldl_pending (fun _ _ => ?_) ?_) | simp)
@[simp] theorem State.setCmd_fused (a0 : State) (a1 : Nat) (a2 : Nat) (a3 : Option PageCmd) : (State.setCmd a0 a1 a2 a3).fused = a0.fused := by
  unfold State.setCmd
  repeat' (first | with_reducible rfl | (simp; done) | split | (intro _) | (with_reducible refine foldl_fused (fun _ _ => ?_) ?_) | simp)
@[simp] theorem State.cmdFinish_fused (a0 : State) (a1 : Nat) (a2 : Nat) (a3 : Nat) (a4 : Bool) : (State.cmdFinish a0 a1 a2 a3 a4).fused = a0.fused := by
  unfold State.cmdFinish
  repeat' (first | with_reducible rfl | (simp; done) | split | (intro _) | (with_reducible refine foldl_fused (fun _ _ => ?_) ?_) | simp)
theorem State.cmdStore_fused (a0 : State) (a1 : Nat) (a2 : Nat) (a3 : Nat) (a4 : Nat) (a5 : Bytes) {t : State} (h : State.cmdStore a0 a1 a2 a3 a4 a5 = some t) : t.fused = a0.fused := by
  unfold State.cmdStore at h
  try dsimp only at h
  repeat' (first | (simp at h; done) | (simp only [Option.some.injEq] at h; subst h; repeat' (first | with_reducible rfl | (simp; done) | split | (intro _) | (with_reducible refine foldl_fused (fun _ _ => ?_) ?_) | simp)) | split at h)
@[simp] theorem State.cmdResult_fused (a0 : State) (a1 : Nat) (a2 : Nat) : (State.cmdResult a0 a1 a2).fused = a0.fused := by
  unfold State.cmdResult
  split
  · dsimp only
    split
    · rename_i h; simp [State.cmdStore_fused _ _ _ _ _ _ h]
    · simp
  · rfl
@[simp] theorem State.cmdSend_fused (a0 : State) (a1 : Nat) (a2 : Nat) (a3 : PageCmd) (a4 : Nat) (a5 : Nat) (a6 : Nat) (a7 : Nat) (a8 : Nat) (a9 : Nat) (a10 : Nat) (a11 : Bytes) : (State.cmdSend a0 a1 a2 a3 a4 a5 a6 a7 a8 a9 a10 a11).fused = a0.fused := by
  unfold State.cmdSend
  repeat' (first | with_reducible rfl | (simp; done) | split | (intro _) | (with_reducible refine foldl_fused (fun _ _ => ?_) ?_) | simp)
@[simp] theorem State.cmdFailed_fused (a0 : State) (a1 : Nat) (a2 : Nat) : (State.cmdFailed a0 a1 a2).fused = a0.fused := by
  unfold State.cmdFailed
  repeat' (first | with_reducible rfl | (simp; done) | split | (intro _) | (with_reducible refine foldl_fused (fun _ _ => ?_) ?_) | simp)
@[simp] theorem State.cmdChunks_fused (a0 : State) (a1 : Nat) (a2 : Nat) : (State.cmdChunks a0 a1 a2).fused = a0.fused := by
  unfold State.cmdChunks
  repeat' (first | with_reducible rfl | (simp; done) | split | (intro _) | (with_reducible refine foldl_fused (fun _ _ => ?_) ?_) | simp)
@[simp] theorem State.cmdLoaded_fused (a0 : State) (a1 : Nat) (a2 : Nat) (a3 : Nat) (a4 : Mem) : (State.cmdLoaded a0 a1 a2 a3 a4).fused = a0.fused := by
  unfold State.cmdLoaded
  repeat' (first | with_reducible rfl | (simp; done) | split | (intro _) | (with_reducible refine foldl_fused (fun _ _ => ?_) ?_) | simp)
@[simp] theorem State.cmdLoad_fused (a0 : State) (a1 : Nat) (a2 : Nat) (a3 : Nat) (a4 : Nat) (a5 : Nat) : (State.cmdLoad a0 a1 a2 a3 a4 a5).fused = a0.fused := by
  unfold State.cmdLoad
  repeat' (first | with_reducible rfl | (simp; done) | split | (intro _) | (with_reducible refine foldl_fused (fun _ _ => ?_) ?_) | simp)
@[simp] theorem State.cmdStart_fused (a0 : State) (a1 : Nat) (a2 : Nat) (a3 : Packet) : (State.cmdStart a0 a1 a2 a3).fused = a0.fused := by
  unfold State.cmdStart
  repeat' (first | with_reducible rfl | (simp; done) | split | (intro _) | (with_reducible refine foldl_fused (fun _ _ => ?_) ?_) | simp)
@[simp] theorem State.cmdAnswered_fused (a0 : State) (a1 : Nat) (a2 : Nat) : (State.cmdAnswered a0 a1 a2).fused = a0.fused := by
  unfold State.cmdAnswered
  split
  · dsimp only
    split
    · simp
    · split
      · split
        · rename_i h; simp [State.cmdStore_fused _ _ _ _ _ _ h]
        · simp
      · simp
  · rfl
@[simp] theorem State.cmdReply_fused (a0 : State) (a1 : Nat) (a2 : Nat) (a3 : Nat) (a4 : Nat) (a5 : Bytes) : (State.cmdReply a0 a1 a2 a3 a4 a5).fused = a0.fused := by
  unfold State.cmdReply
  repeat' (first | with_reducible rfl | (simp; done) | split | (intro _) | (with_reducible refine foldl_fused (fun _ _ => ?_) ?_) | simp)
@[simp] theorem State.cmdWrote_fused (a0 : State) (a1 : Nat) (a2 : Nat) (a3 : Nat) : (State.cmdWrote a0 a1 a2 a3).fused = a0.fused := by
  unfold State.cmdWrote
  repeat' (first | with_reducible rfl | (simp; done) | split | (intro _) | (with_reducible refine foldl_fused (fun _ _ => ?_) ?_) | simp)

/-! HostOps -/

@[simp] theorem State.modRq_pending (a0 : State) (a1 : Nat) (a2 : RQueue → RQueue) : (State.modRq a0 a1 a2).pending = a0.pending := by
  unfold State.modRq
  repeat' (first | with_reducible rfl | (simp; done) | split | (intro _) | (with_reducible refine foldl_pending (fun _ _ => ?_) ?_) | simp)
@[simp] theorem State.postAnswer_pending (a0 : State) (a1 : Nat) (a2 : Nat) : (State.postAnswer a0 a1 a2).pending = a0.pending := by
  unfold State.postAnswer
  repeat' (first | with_reducible rfl | (simp; done) | split | (intro _) | (with_reducible refine foldl_pending (fun _ _ => ?_) ?_) | simp)
@[simp] theorem State.postRefuse_pending (a0 : State) (a1 : Nat) (a2 : Nat) : (State.postRefuse a0 a1 a2).pending = a0.pending := by
  unfold State.postRefuse
  repeat' (first | with_reducible rfl | (simp; done) | split | (intro _) | (with_reducible refine foldl_pending (fun _ _ => ?_) ?_) | simp)
@[simp] theorem State.rqWrite_pending (a0 : State) (a1 : Nat) (a2 : Post) (a3 : Bytes) : (State.rqWrite a0 a1 a2 a3).pending = a0.pending := by
  unfold State.rqWrite
  repeat' (first | with_reducible rfl | (simp; done) | split | (intro _) | (with_reducible refine foldl_pending (fun _ _ => ?_) ?_) | simp)
@[simp] theorem State.rqStart_pending (a0 : State) (a1 : Nat) (a2 : Post) : (State.rqStart a0 a1 a2).pending = a0.pending := by
  unfold State.rqStart
  repeat' (first | with_reducible rfl | (simp; done) | split | (intro _) | (with_reducible refine foldl_pending (fun _ _ => ?_) ?_) | simp)
@[simp] theorem State.rqGo_pending (a0 : State) (a1 : Nat) (a2 : Nat) : (State.rqGo a0 a1 a2).pending = a0.pending := by
  induction a2 generalizing a0 with
  | zero => rfl
  | succ n ih =>
    unfold State.rqGo
    split
    · rfl
    · split
      · dsimp only; split <;> simp [ih]
      · rfl
@[simp] theorem State.postRead_pending (a0 : State) (a1 : Nat) (a2 : Nat) (a3 : Mem) : (State.postRead a0 a1 a2 a3).pending = a0.pending := by
  unfold State.postRead
  repeat' (first | with_reducible rfl | (simp; done) | split | (intro _) | (with_reducible refine foldl_pending (fun _ _ => ?_) ?_) | simp)
@[simp] theorem State.postArrive_pending (a0 : State) (a1 : Nat) (a2 : Post) : (State.postArrive a0 a1 a2).pending = a0.pending := by
  unfold State.postArrive
  repeat' (first | with_reducible rfl | (simp; done) | split | (intro _) | (with_reducible refine foldl_pending (fun _ _ => ?_) ?_) | simp)
@[simp] theorem State.modDoorbell_pending (a0 : State) (a1 : Nat) (a2 : Doorbell → Doorbell) : (State.modDoorbell a0 a1 a2).pending = a0.pending := by
  unfold State.modDoorbell
  repeat' (first | with_reducible rfl | (simp; done) | split | (intro _) | (with_reducible refine foldl_pending (fun _ _ => ?_) ?_) | simp)
@[simp] theorem State.doorbellDone_pending (a0 : State) (a1 : Nat) (a2 : Nat) : (State.doorbellDone a0 a1 a2).pending = a0.pending := by
  unfold State.doorbellDone
  repeat' (first | with_reducible rfl | (simp; done) | split | (intro _) | (with_reducible refine foldl_pending (fun _ _ => ?_) ?_) | simp)
@[simp] theorem State.doorbellSend_pending (a0 : State) (a1 : Nat) (a2 : Nat) : (State.doorbellSend a0 a1 a2).pending = a0.pending := by
  unfold State.doorbellSend
  repeat' (first | with_reducible rfl | (simp; done) | split | (intro _) | (with_reducible refine foldl_pending (fun _ _ => ?_) ?_) | simp)
@[simp] theorem State.bar2Answer_pending (a0 : State) (a1 : Bytes) : (State.bar2Answer a0 a1).pending = a0.pending := by
  unfold State.bar2Answer
  repeat' (first | with_reducible rfl | (simp; done) | split | (intro _) | (with_reducible refine foldl_pending (fun _ _ => ?_) ?_) | simp)
@[simp] theorem State.bar2Fail_pending (a0 : State) (a1 : Nat) : (State.bar2Fail a0 a1).pending = a0.pending := by
  unfold State.bar2Fail
  repeat' (first | with_reducible rfl | (simp; done) | split | (intro _) | (with_reducible refine foldl_pending (fun _ _ => ?_) ?_) | simp)
@[simp] theorem State.modRq_fused (a0 : State) (a1 : Nat) (a2 : RQueue → RQueue) : (State.modRq a0 a1 a2).fused = a0.fused := by
  unfold State.modRq
  repeat' (first | with_reducible rfl | (simp; done) | split | (intro _) | (with_reducible refine foldl_fused (fun _ _ => ?_) ?_) | simp)
@[simp] theorem State.postAnswer_fused (a0 : State) (a1 : Nat) (a2 : Nat) : (State.postAnswer a0 a1 a2).fused = a0.fused := by
  unfold State.postAnswer
  repeat' (first | with_reducible rfl | (simp; done) | split | (intro _) | (with_reducible refine foldl_fused (fun _ _ => ?_) ?_) | simp)
@[simp] theorem State.postRefuse_fused (a0 : State) (a1 : Nat) (a2 : Nat) : (State.postRefuse a0 a1 a2).fused = a0.fused := by
  unfold State.postRefuse
  repeat' (first | with_reducible rfl | (simp; done) | split | (intro _) | (with_reducible refine foldl_fused (fun _ _ => ?_) ?_) | simp)
@[simp] theorem State.rqWrite_fused (a0 : State) (a1 : Nat) (a2 : Post) (a3 : Bytes) : (State.rqWrite a0 a1 a2 a3).fused = a0.fused := by
  unfold State.rqWrite
  repeat' (first | with_reducible rfl | (simp; done) | split | (intro _) | (with_reducible refine foldl_fused (fun _ _ => ?_) ?_) | simp)
@[simp] theorem State.rqStart_fused (a0 : State) (a1 : Nat) (a2 : Post) : (State.rqStart a0 a1 a2).fused = a0.fused := by
  unfold State.rqStart
  repeat' (first | with_reducible rfl | (simp; done) | split | (intro _) | (with_reducible refine foldl_fused (fun _ _ => ?_) ?_) | simp)
@[simp] theorem State.rqGo_fused (a0 : State) (a1 : Nat) (a2 : Nat) : (State.rqGo a0 a1 a2).fused = a0.fused := by
  induction a2 generalizing a0 with
  | zero => rfl
  | succ n ih =>
    unfold State.rqGo
    split
    · rfl
    · split
      · dsimp only; split <;> simp [ih]
      · rfl
@[simp] theorem State.postRead_fused (a0 : State) (a1 : Nat) (a2 : Nat) (a3 : Mem) : (State.postRead a0 a1 a2 a3).fused = a0.fused := by
  unfold State.postRead
  repeat' (first | with_reducible rfl | (simp; done) | split | (intro _) | (with_reducible refine foldl_fused (fun _ _ => ?_) ?_) | simp)
@[simp] theorem State.postArrive_fused (a0 : State) (a1 : Nat) (a2 : Post) : (State.postArrive a0 a1 a2).fused = a0.fused := by
  unfold State.postArrive
  repeat' (first | with_reducible rfl | (simp; done) | split | (intro _) | (with_reducible refine foldl_fused (fun _ _ => ?_) ?_) | simp)
@[simp] theorem State.modDoorbell_fused (a0 : State) (a1 : Nat) (a2 : Doorbell → Doorbell) : (State.modDoorbell a0 a1 a2).fused = a0.fused := by
  unfold State.modDoorbell
  repeat' (first | with_reducible rfl | (simp; done) | split | (intro _) | (with_reducible refine foldl_fused (fun _ _ => ?_) ?_) | simp)
@[simp] theorem State.doorbellDone_fused (a0 : State) (a1 : Nat) (a2 : Nat) : (State.doorbellDone a0 a1 a2).fused = a0.fused := by
  unfold State.doorbellDone
  repeat' (first | with_reducible rfl | (simp; done) | split | (intro _) | (with_reducible refine foldl_fused (fun _ _ => ?_) ?_) | simp)
@[simp] theorem State.doorbellSend_fused (a0 : State) (a1 : Nat) (a2 : Nat) : (State.doorbellSend a0 a1 a2).fused = a0.fused := by
  unfold State.doorbellSend
  repeat' (first | with_reducible rfl | (simp; done) | split | (intro _) | (with_reducible refine foldl_fused (fun _ _ => ?_) ?_) | simp)
@[simp] theorem State.bar2Answer_fused (a0 : State) (a1 : Bytes) : (State.bar2Answer a0 a1).fused = a0.fused := by
  unfold State.bar2Answer
  repeat' (first | with_reducible rfl | (simp; done) | split | (intro _) | (with_reducible refine foldl_fused (fun _ _ => ?_) ?_) | simp)
@[simp] theorem State.bar2Fail_fused (a0 : State) (a1 : Nat) : (State.bar2Fail a0 a1).fused = a0.fused := by
  unfold State.bar2Fail
  repeat' (first | with_reducible rfl | (simp; done) | split | (intro _) | (with_reducible refine foldl_fused (fun _ _ => ?_) ?_) | simp)

/-! Dict -/

@[simp] theorem State.runComps_pending (a0 : State) (a1 : List Nat) : (State.runComps a0 a1).pending = a0.pending := by
  unfold State.runComps
  repeat' (first | with_reducible rfl | (simp; done) | split | (intro _) | (with_reducible refine foldl_pending (fun _ _ => ?_) ?_) | simp)
@[simp] theorem State.modTxn_pending (a0 : State) (a1 : Nat) (a2 : Txn → Txn) : (State.modTxn a0 a1 a2).pending = a0.pending := by
  unfold State.modTxn
  repeat' (first | with_reducible rfl | (simp; done) | split | (intro _) | (with_reducible refine foldl_pending (fun _ _ => ?_) ?_) | simp)
@[simp] theorem State.txnStatus_pending (a0 : State) (a1 : Nat) (a2 : Nat) (a3 : Nat) (a4 : Option Nat) : (State.txnStatus a0 a1 a2 a3 a4).pending = a0.pending := by
  unfold State.txnStatus
  repeat' (first | with_reducible rfl | (simp; done) | split | (intro _) | (with_reducible refine foldl_pending (fun _ _ => ?_) ?_) | simp)
@[simp] theorem State.endTxn_pending (a0 : State) (a1 : Nat) (a2 : Nat) (a3 : Nat) (a4 : Option Nat) : (State.endTxn a0 a1 a2 a3 a4).pending = a0.pending := by
  unfold State.endTxn
  repeat' (first | with_reducible rfl | (simp; done) | split | (intro _) | (with_reducible refine foldl_pending (fun _ _ => ?_) ?_) | simp)
@[simp] theorem State.takeOwn_pending (a0 : State) : (State.takeOwn a0).pending = a0.pending := by
  unfold State.takeOwn
  repeat' (first | with_reducible rfl | (simp; done) | split | (intro _) | (with_reducible refine foldl_pending (fun _ _ => ?_) ?_) | simp)
@[simp] theorem State.abortTxn_pending (a0 : State) (a1 : Nat) (a2 : Nat) : (State.abortTxn a0 a1 a2).pending = a0.pending := by
  unfold State.abortTxn
  repeat' (first | with_reducible rfl | (simp; done) | split | (intro _) | (with_reducible refine foldl_pending (fun _ _ => ?_) ?_) | simp)
@[simp] theorem State.stage_pending (a0 : State) (a1 : Source) (a2 : ObjInfo) (a3 : Nat) (a4 : List Nat) : (State.stage a0 a1 a2 a3 a4).1.pending = a0.pending := by
  unfold State.stage
  repeat' (first | with_reducible rfl | (simp; done) | split | (intro _) | (with_reducible refine foldl_pending (fun _ _ => ?_) ?_) | simp)
@[simp] theorem State.putRw_pending (a0 : State) (a1 : ObjInfo) (a2 : Nat) (a3 : Nat) : (State.putRw a0 a1 a2 a3).pending = a0.pending := by
  unfold State.putRw
  repeat' (first | with_reducible rfl | (simp; done) | split | (intro _) | (with_reducible refine foldl_pending (fun _ _ => ?_) ?_) | simp)
theorem State.writeElems_pending (a0 : Act) (a1 : Source) (a2 : ObjInfo) (a3 : State) (a4 : Nat) (a5 : List Nat) (h : ∀ s k e v, (a0 s a1 k e v).1.pending = s.pending) : (State.writeElems a0 a1 a2 a3 a4 a5).1.pending = a3.pending := by
  induction a5 generalizing a3 a4 with
  | nil => rfl
  | cons v vs ih =>
    unfold State.writeElems
    split
    · rfl
    · dsimp only
      split
      · exact h _ _ _ _
      · rw [ih, h]
theorem State.writeObject_pending (a0 : Act) (a1 : State) (a2 : Source) (a3 : ObjInfo) (a4 : Nat) (a5 : List Nat) (h : ∀ s k e v, (a0 s a2 k e v).1.pending = s.pending) : (State.writeObject a0 a1 a2 a3 a4 a5).1.pending = a1.pending := by
  unfold State.writeObject
  repeat' (first | with_reducible rfl | (simp; done) | split | exact State.writeElems_pending _ _ _ _ _ _ h | dsimp only)
@[simp] theorem State.refusal_pending (a0 : State) (a1 : Nat) (a2 : Nat) (a3 : Nat) (a4 : Nat) : (State.refusal a0 a1 a2 a3 a4).pending = a0.pending := by
  unfold State.refusal
  repeat' (first | with_reducible rfl | (simp; done) | split | (intro _) | (with_reducible refine foldl_pending (fun _ _ => ?_) ?_) | simp)
theorem State.serveReq_pending (a0 : Act) (a1 : State) (a2 : Source) (a3 : DictReq) (h : ∀ s k e v, (a0 s a2 k e v).1.pending = s.pending) : (State.serveReq a0 a1 a2 a3).1.pending = a1.pending := by
  unfold State.serveReq
  repeat' (first | with_reducible rfl | (simp; done) | split | exact State.writeObject_pending _ _ _ _ _ _ h | dsimp only)
@[simp] theorem State.serve_pending (a0 : Act) (a1 : State) (a2 : Source) (a3 : DictReq) (h : ∀ s k e v, (a0 s a2 k e v).1.pending = s.pending) : (State.serve a0 a1 a2 a3).1.pending = a1.pending := by
  unfold State.serve
  dsimp only
  split <;> simp [State.serveReq_pending _ _ _ _ h]
@[simp] theorem State.respond_pending (a0 : State) (a1 : Source) (a2 : DictResp) : (State.respond a0 a1 a2).pending = a0.pending := by
  unfold State.respond
  repeat' (first | with_reducible rfl | (simp; done) | split | (intro _) | (with_reducible refine foldl_pending (fun _ _ => ?_) ?_) | simp)
@[simp] theorem State.modSess_pending (a0 : State) (a1 : Nat) (a2 : SessionSt → SessionSt) : (State.modSess a0 a1 a2).pending = a0.pending := by
  unfold State.modSess
  repeat' (first | with_reducible rfl | (simp; done) | split | (intro _) | (with_reducible refine foldl_pending (fun _ _ => ?_) ?_) | simp)
@[simp] theorem State.endSession_pending (a0 : State) (a1 : Nat) : (State.endSession a0 a1).pending = a0.pending := by
  unfold State.endSession
  repeat' (first | with_reducible rfl | (simp; done) | split | (intro _) | (with_reducible refine foldl_pending (fun _ _ => ?_) ?_) | simp)
@[simp] theorem State.refuseReq_pending (a0 : State) (a1 : Source) (a2 : DictReq) (a3 : Nat) : (State.refuseReq a0 a1 a2 a3).pending = a0.pending := by
  unfold State.refuseReq
  repeat' (first | with_reducible rfl | (simp; done) | split | (intro _) | (with_reducible refine foldl_pending (fun _ _ => ?_) ?_) | simp)
theorem State.slotWrite_pending (a0 : Act) (a1 : State) (a2 a3 a4 : Nat) (h : ∀ s k e v, (a0 s .bar0 k e v).1.pending = s.pending) : (State.slotWrite a0 a1 a2 a3 a4).1.pending = a1.pending := by
  unfold State.slotWrite
  repeat' (first | with_reducible rfl | (simp; done) | split | exact State.writeObject_pending _ _ _ _ _ _ h | dsimp only)
@[simp] theorem State.journalSettings_pending (a0 : State) : (State.journalSettings a0).pending = a0.pending := by
  unfold State.journalSettings
  repeat' (first | with_reducible rfl | (simp; done) | split | (intro _) | (with_reducible refine foldl_pending (fun _ _ => ?_) ?_) | simp)
@[simp] theorem State.oldSettings_pending (a0 : State) : (State.oldSettings a0).pending = a0.pending := by
  unfold State.oldSettings
  repeat' (first | with_reducible rfl | (simp; done) | split | (intro _) | (with_reducible refine foldl_pending (fun _ _ => ?_) ?_) | simp)
@[simp] theorem State.runComps_fused (a0 : State) (a1 : List Nat) : (State.runComps a0 a1).fused = a0.fused := by
  unfold State.runComps
  repeat' (first | with_reducible rfl | (simp; done) | split | (intro _) | (with_reducible refine foldl_fused (fun _ _ => ?_) ?_) | simp)
@[simp] theorem State.modTxn_fused (a0 : State) (a1 : Nat) (a2 : Txn → Txn) : (State.modTxn a0 a1 a2).fused = a0.fused := by
  unfold State.modTxn
  repeat' (first | with_reducible rfl | (simp; done) | split | (intro _) | (with_reducible refine foldl_fused (fun _ _ => ?_) ?_) | simp)
@[simp] theorem State.txnStatus_fused (a0 : State) (a1 : Nat) (a2 : Nat) (a3 : Nat) (a4 : Option Nat) : (State.txnStatus a0 a1 a2 a3 a4).fused = a0.fused := by
  unfold State.txnStatus
  repeat' (first | with_reducible rfl | (simp; done) | split | (intro _) | (with_reducible refine foldl_fused (fun _ _ => ?_) ?_) | simp)
@[simp] theorem State.endTxn_fused (a0 : State) (a1 : Nat) (a2 : Nat) (a3 : Nat) (a4 : Option Nat) : (State.endTxn a0 a1 a2 a3 a4).fused = a0.fused := by
  unfold State.endTxn
  repeat' (first | with_reducible rfl | (simp; done) | split | (intro _) | (with_reducible refine foldl_fused (fun _ _ => ?_) ?_) | simp)
@[simp] theorem State.takeOwn_fused (a0 : State) : (State.takeOwn a0).fused = a0.fused := by
  unfold State.takeOwn
  repeat' (first | with_reducible rfl | (simp; done) | split | (intro _) | (with_reducible refine foldl_fused (fun _ _ => ?_) ?_) | simp)
@[simp] theorem State.abortTxn_fused (a0 : State) (a1 : Nat) (a2 : Nat) : (State.abortTxn a0 a1 a2).fused = a0.fused := by
  unfold State.abortTxn
  repeat' (first | with_reducible rfl | (simp; done) | split | (intro _) | (with_reducible refine foldl_fused (fun _ _ => ?_) ?_) | simp)
@[simp] theorem State.stage_fused (a0 : State) (a1 : Source) (a2 : ObjInfo) (a3 : Nat) (a4 : List Nat) : (State.stage a0 a1 a2 a3 a4).1.fused = a0.fused := by
  unfold State.stage
  repeat' (first | with_reducible rfl | (simp; done) | split | (intro _) | (with_reducible refine foldl_fused (fun _ _ => ?_) ?_) | simp)
@[simp] theorem State.putRw_fused (a0 : State) (a1 : ObjInfo) (a2 : Nat) (a3 : Nat) : (State.putRw a0 a1 a2 a3).fused = a0.fused := by
  unfold State.putRw
  repeat' (first | with_reducible rfl | (simp; done) | split | (intro _) | (with_reducible refine foldl_fused (fun _ _ => ?_) ?_) | simp)
theorem State.writeElems_fused (a0 : Act) (a1 : Source) (a2 : ObjInfo) (a3 : State) (a4 : Nat) (a5 : List Nat) (h : ∀ s k e v, (a0 s a1 k e v).1.fused = s.fused) : (State.writeElems a0 a1 a2 a3 a4 a5).1.fused = a3.fused := by
  induction a5 generalizing a3 a4 with
  | nil => rfl
  | cons v vs ih =>
    unfold State.writeElems
    split
    · rfl
    · dsimp only
      split
      · exact h _ _ _ _
      · rw [ih, h]
theorem State.writeObject_fused (a0 : Act) (a1 : State) (a2 : Source) (a3 : ObjInfo) (a4 : Nat) (a5 : List Nat) (h : ∀ s k e v, (a0 s a2 k e v).1.fused = s.fused) : (State.writeObject a0 a1 a2 a3 a4 a5).1.fused = a1.fused := by
  unfold State.writeObject
  repeat' (first | with_reducible rfl | (simp; done) | split | exact State.writeElems_fused _ _ _ _ _ _ h | dsimp only)
@[simp] theorem State.refusal_fused (a0 : State) (a1 : Nat) (a2 : Nat) (a3 : Nat) (a4 : Nat) : (State.refusal a0 a1 a2 a3 a4).fused = a0.fused := by
  unfold State.refusal
  repeat' (first | with_reducible rfl | (simp; done) | split | (intro _) | (with_reducible refine foldl_fused (fun _ _ => ?_) ?_) | simp)
theorem State.serveReq_fused (a0 : Act) (a1 : State) (a2 : Source) (a3 : DictReq) (h : ∀ s k e v, (a0 s a2 k e v).1.fused = s.fused) : (State.serveReq a0 a1 a2 a3).1.fused = a1.fused := by
  unfold State.serveReq
  repeat' (first | with_reducible rfl | (simp; done) | split | exact State.writeObject_fused _ _ _ _ _ _ h | dsimp only)
@[simp] theorem State.serve_fused (a0 : Act) (a1 : State) (a2 : Source) (a3 : DictReq) (h : ∀ s k e v, (a0 s a2 k e v).1.fused = s.fused) : (State.serve a0 a1 a2 a3).1.fused = a1.fused := by
  unfold State.serve
  dsimp only
  split <;> simp [State.serveReq_fused _ _ _ _ h]
@[simp] theorem State.respond_fused (a0 : State) (a1 : Source) (a2 : DictResp) : (State.respond a0 a1 a2).fused = a0.fused := by
  unfold State.respond
  repeat' (first | with_reducible rfl | (simp; done) | split | (intro _) | (with_reducible refine foldl_fused (fun _ _ => ?_) ?_) | simp)
@[simp] theorem State.modSess_fused (a0 : State) (a1 : Nat) (a2 : SessionSt → SessionSt) : (State.modSess a0 a1 a2).fused = a0.fused := by
  unfold State.modSess
  repeat' (first | with_reducible rfl | (simp; done) | split | (intro _) | (with_reducible refine foldl_fused (fun _ _ => ?_) ?_) | simp)
@[simp] theorem State.endSession_fused (a0 : State) (a1 : Nat) : (State.endSession a0 a1).fused = a0.fused := by
  unfold State.endSession
  repeat' (first | with_reducible rfl | (simp; done) | split | (intro _) | (with_reducible refine foldl_fused (fun _ _ => ?_) ?_) | simp)
@[simp] theorem State.refuseReq_fused (a0 : State) (a1 : Source) (a2 : DictReq) (a3 : Nat) : (State.refuseReq a0 a1 a2 a3).fused = a0.fused := by
  unfold State.refuseReq
  repeat' (first | with_reducible rfl | (simp; done) | split | (intro _) | (with_reducible refine foldl_fused (fun _ _ => ?_) ?_) | simp)
theorem State.slotWrite_fused (a0 : Act) (a1 : State) (a2 a3 a4 : Nat) (h : ∀ s k e v, (a0 s .bar0 k e v).1.fused = s.fused) : (State.slotWrite a0 a1 a2 a3 a4).1.fused = a1.fused := by
  unfold State.slotWrite
  repeat' (first | with_reducible rfl | (simp; done) | split | exact State.writeObject_fused _ _ _ _ _ _ h | dsimp only)
@[simp] theorem State.journalSettings_fused (a0 : State) : (State.journalSettings a0).fused = a0.fused := by
  unfold State.journalSettings
  repeat' (first | with_reducible rfl | (simp; done) | split | (intro _) | (with_reducible refine foldl_fused (fun _ _ => ?_) ?_) | simp)
@[simp] theorem State.oldSettings_fused (a0 : State) : (State.oldSettings a0).fused = a0.fused := by
  unfold State.oldSettings
  repeat' (first | with_reducible rfl | (simp; done) | split | (intro _) | (with_reducible refine foldl_fused (fun _ _ => ?_) ?_) | simp)

/-! CommitCheck -/

@[simp] theorem State.withValues_pending (a0 : State) (a1 : Tbl (Option Nat)) : (State.withValues a0 a1).pending = a0.pending := by
  unfold State.withValues
  repeat' (first | with_reducible rfl | (simp; done) | split | (intro _) | (with_reducible refine foldl_pending (fun _ _ => ?_) ?_) | simp)
@[simp] theorem State.withValues_fused (a0 : State) (a1 : Tbl (Option Nat)) : (State.withValues a0 a1).fused = a0.fused := by
  unfold State.withValues
  repeat' (first | with_reducible rfl | (simp; done) | split | (intro _) | (with_reducible refine foldl_fused (fun _ _ => ?_) ?_) | simp)

/-! Replies -/

@[simp] theorem State.windowDone_pending (a0 : State) (a1 : Nat) (a2 : Nat) : (State.windowDone a0 a1 a2).pending = a0.pending := by
  unfold State.windowDone
  dsimp only
  split <;> simp
@[simp] theorem State.groupMatch_pending (a0 : State) (a1 : Nat) (a2 : Nat) : (State.groupMatch a0 a1 a2).pending = a0.pending := by
  unfold State.groupMatch
  repeat' (first | with_reducible rfl | (simp; done) | split | (intro _) | (with_reducible refine foldl_pending (fun _ _ => ?_) ?_) | simp)
@[simp] theorem State.groupLanded_pending (a0 : State) (a1 : Nat) (a2 : Nat) (a3 : Nat) (a4 : Nat) (a5 : Nat) (a6 : Bool) (a7 : Nat) : (State.groupLanded a0 a1 a2 a3 a4 a5 a6 a7).pending = a0.pending := by
  unfold State.groupLanded
  repeat' (first | with_reducible rfl | (simp; done) | split | (intro _) | (with_reducible refine foldl_pending (fun _ _ => ?_) ?_) | simp)
@[simp] theorem State.dieDone_pending (a0 : State) (a1 : Nat) (a2 : Nat) : (State.dieDone a0 a1 a2).pending = a0.pending := by
  unfold State.dieDone
  repeat' (first | with_reducible rfl | (simp; done) | split | (intro _) | (with_reducible refine foldl_pending (fun _ _ => ?_) ?_) | simp)
@[simp] theorem State.dieReply_pending (a0 : State) (a1 : Nat) (a2 : Nat) (a3 : Nat) (a4 : Nat) (a5 : Bytes) : (State.dieReply a0 a1 a2 a3 a4 a5).pending = a0.pending := by
  unfold State.dieReply
  repeat' (first | with_reducible rfl | (simp; done) | split | (intro _) | (with_reducible refine foldl_pending (fun _ _ => ?_) ?_) | simp)
@[simp] theorem State.releaseReply_pending (a0 : State) (a1 : Nat) (a2 : Nat) : (State.releaseReply a0 a1 a2).pending = a0.pending := by
  unfold State.releaseReply
  repeat' (first | with_reducible rfl | (simp; done) | split | (intro _) | (with_reducible refine foldl_pending (fun _ _ => ?_) ?_) | simp)
@[simp] theorem State.pumpFail_pending (a0 : State) (a1 : Nat) (a2 : Nat) (a3 : PumpJob) (a4 : Nat) (a5 : Nat) : (State.pumpFail a0 a1 a2 a3 a4 a5).pending = a0.pending := by
  unfold State.pumpFail
  repeat' (first | with_reducible rfl | (simp; done) | split | (intro _) | (with_reducible refine foldl_pending (fun _ _ => ?_) ?_) | simp)
@[simp] theorem State.pumpReply_pending (a0 : State) (a1 : Nat) (a2 : Nat) (a3 : Packet) : (State.pumpReply a0 a1 a2 a3).pending = a0.pending := by
  unfold State.pumpReply
  repeat' (first | with_reducible rfl | (simp; done) | split | (intro _) | (with_reducible refine foldl_pending (fun _ _ => ?_) ?_) | simp)
@[simp] theorem State.dupReply_pending (a0 : State) (a1 : Nat) (a2 : Nat) (a3 : Nat) (a4 : Nat) (a5 : Nat) : (State.dupReply a0 a1 a2 a3 a4 a5).pending = a0.pending := by
  unfold State.dupReply
  repeat' (first | with_reducible rfl | (simp; done) | split | (intro _) | (with_reducible refine foldl_pending (fun _ _ => ?_) ?_) | simp)
@[simp] theorem State.windowDone_fused (a0 : State) (a1 : Nat) (a2 : Nat) : (State.windowDone a0 a1 a2).fused = a0.fused := by
  unfold State.windowDone
  dsimp only
  split <;> simp
@[simp] theorem State.groupMatch_fused (a0 : State) (a1 : Nat) (a2 : Nat) : (State.groupMatch a0 a1 a2).fused = a0.fused := by
  unfold State.groupMatch
  repeat' (first | with_reducible rfl | (simp; done) | split | (intro _) | (with_reducible refine foldl_fused (fun _ _ => ?_) ?_) | simp)
@[simp] theorem State.groupLanded_fused (a0 : State) (a1 : Nat) (a2 : Nat) (a3 : Nat) (a4 : Nat) (a5 : Nat) (a6 : Bool) (a7 : Nat) : (State.groupLanded a0 a1 a2 a3 a4 a5 a6 a7).fused = a0.fused := by
  unfold State.groupLanded
  repeat' (first | with_reducible rfl | (simp; done) | split | (intro _) | (with_reducible refine foldl_fused (fun _ _ => ?_) ?_) | simp)
@[simp] theorem State.dieDone_fused (a0 : State) (a1 : Nat) (a2 : Nat) : (State.dieDone a0 a1 a2).fused = a0.fused := by
  unfold State.dieDone
  repeat' (first | with_reducible rfl | (simp; done) | split | (intro _) | (with_reducible refine foldl_fused (fun _ _ => ?_) ?_) | simp)
@[simp] theorem State.dieReply_fused (a0 : State) (a1 : Nat) (a2 : Nat) (a3 : Nat) (a4 : Nat) (a5 : Bytes) : (State.dieReply a0 a1 a2 a3 a4 a5).fused = a0.fused := by
  unfold State.dieReply
  repeat' (first | with_reducible rfl | (simp; done) | split | (intro _) | (with_reducible refine foldl_fused (fun _ _ => ?_) ?_) | simp)
@[simp] theorem State.releaseReply_fused (a0 : State) (a1 : Nat) (a2 : Nat) : (State.releaseReply a0 a1 a2).fused = a0.fused := by
  unfold State.releaseReply
  repeat' (first | with_reducible rfl | (simp; done) | split | (intro _) | (with_reducible refine foldl_fused (fun _ _ => ?_) ?_) | simp)
@[simp] theorem State.pumpFail_fused (a0 : State) (a1 : Nat) (a2 : Nat) (a3 : PumpJob) (a4 : Nat) (a5 : Nat) : (State.pumpFail a0 a1 a2 a3 a4 a5).fused = a0.fused := by
  unfold State.pumpFail
  repeat' (first | with_reducible rfl | (simp; done) | split | (intro _) | (with_reducible refine foldl_fused (fun _ _ => ?_) ?_) | simp)
@[simp] theorem State.pumpReply_fused (a0 : State) (a1 : Nat) (a2 : Nat) (a3 : Packet) : (State.pumpReply a0 a1 a2 a3).fused = a0.fused := by
  unfold State.pumpReply
  repeat' (first | with_reducible rfl | (simp; done) | split | (intro _) | (with_reducible refine foldl_fused (fun _ _ => ?_) ?_) | simp)
@[simp] theorem State.dupReply_fused (a0 : State) (a1 : Nat) (a2 : Nat) (a3 : Nat) (a4 : Nat) (a5 : Nat) : (State.dupReply a0 a1 a2 a3 a4 a5).fused = a0.fused := by
  unfold State.dupReply
  repeat' (first | with_reducible rfl | (simp; done) | split | (intro _) | (with_reducible refine foldl_fused (fun _ _ => ?_) ?_) | simp)

/-! Ports -/

@[simp] theorem State.ptpShow_pending (a0 : State) (a1 : Nat) (a2 : Nat) : (State.ptpShow a0 a1 a2).pending = a0.pending := by
  unfold State.ptpShow
  repeat' (first | with_reducible rfl | (simp; done) | split | (intro _) | (with_reducible refine foldl_pending (fun _ _ => ?_) ?_) | simp)
@[simp] theorem State.ptpCheck_pending (a0 : State) : (State.ptpCheck a0).pending = a0.pending := by
  unfold State.ptpCheck
  repeat' (first | with_reducible rfl | (simp; done) | split | (intro _) | (with_reducible refine foldl_pending (fun _ _ => ?_) ?_) | simp)
@[simp] theorem State.portReport_pending (a0 : State) (a1 : Nat) (a2 : Nat) (a3 : Nat) : (State.portReport a0 a1 a2 a3).pending = a0.pending := by
  unfold State.portReport
  repeat' (first | with_reducible rfl | (simp; done) | split | (intro _) | (with_reducible refine foldl_pending (fun _ _ => ?_) ?_) | simp)
@[simp] theorem State.sendOther_pending (a0 : State) (a1 : Nat) (a2 : Bytes) : (State.sendOther a0 a1 a2).pending = a0.pending := by
  unfold State.sendOther
  repeat' (first | with_reducible rfl | (simp; done) | split | (intro _) | (with_reducible refine foldl_pending (fun _ _ => ?_) ?_) | simp)
@[simp] theorem State.correctTime_pending (a0 : State) (a1 : Int) : (State.correctTime a0 a1).pending = a0.pending := by
  unfold State.correctTime
  repeat' (first | with_reducible rfl | (simp; done) | split | (intro _) | (with_reducible refine foldl_pending (fun _ _ => ?_) ?_) | simp)
@[simp] theorem State.peerLost_pending (a0 : State) (a1 : Nat) (a2 : Nat) : (State.peerLost a0 a1 a2).pending = a0.pending := by
  unfold State.peerLost
  repeat' (first | with_reducible rfl | (simp; done) | split | (intro _) | (with_reducible refine foldl_pending (fun _ _ => ?_) ?_) | simp)
@[simp] theorem State.tellRequest_pending (a0 : State) (a1 : Nat) (a2 : OutReq) (a3 : Nat) (a4 : Bytes) : (State.tellRequest a0 a1 a2 a3 a4).pending = a0.pending := by
  unfold State.tellRequest
  repeat' (first | with_reducible rfl | (simp; done) | split | (intro _) | (with_reducible refine foldl_pending (fun _ _ => ?_) ?_) | simp)
@[simp] theorem State.ptpShow_fused (a0 : State) (a1 : Nat) (a2 : Nat) : (State.ptpShow a0 a1 a2).fused = a0.fused := by
  unfold State.ptpShow
  repeat' (first | with_reducible rfl | (simp; done) | split | (intro _) | (with_reducible refine foldl_fused (fun _ _ => ?_) ?_) | simp)
@[simp] theorem State.ptpCheck_fused (a0 : State) : (State.ptpCheck a0).fused = a0.fused := by
  unfold State.ptpCheck
  repeat' (first | with_reducible rfl | (simp; done) | split | (intro _) | (with_reducible refine foldl_fused (fun _ _ => ?_) ?_) | simp)
@[simp] theorem State.portReport_fused (a0 : State) (a1 : Nat) (a2 : Nat) (a3 : Nat) : (State.portReport a0 a1 a2 a3).fused = a0.fused := by
  unfold State.portReport
  repeat' (first | with_reducible rfl | (simp; done) | split | (intro _) | (with_reducible refine foldl_fused (fun _ _ => ?_) ?_) | simp)
@[simp] theorem State.sendOther_fused (a0 : State) (a1 : Nat) (a2 : Bytes) : (State.sendOther a0 a1 a2).fused = a0.fused := by
  unfold State.sendOther
  repeat' (first | with_reducible rfl | (simp; done) | split | (intro _) | (with_reducible refine foldl_fused (fun _ _ => ?_) ?_) | simp)
@[simp] theorem State.correctTime_fused (a0 : State) (a1 : Int) : (State.correctTime a0 a1).fused = a0.fused := by
  unfold State.correctTime
  repeat' (first | with_reducible rfl | (simp; done) | split | (intro _) | (with_reducible refine foldl_fused (fun _ _ => ?_) ?_) | simp)
@[simp] theorem State.peerLost_fused (a0 : State) (a1 : Nat) (a2 : Nat) : (State.peerLost a0 a1 a2).fused = a0.fused := by
  unfold State.peerLost
  repeat' (first | with_reducible rfl | (simp; done) | split | (intro _) | (with_reducible refine foldl_fused (fun _ _ => ?_) ?_) | simp)
@[simp] theorem State.tellRequest_fused (a0 : State) (a1 : Nat) (a2 : OutReq) (a3 : Nat) (a4 : Bytes) : (State.tellRequest a0 a1 a2 a3 a4).fused = a0.fused := by
  unfold State.tellRequest
  repeat' (first | with_reducible rfl | (simp; done) | split | (intro _) | (with_reducible refine foldl_fused (fun _ _ => ?_) ?_) | simp)

/-! Routes -/

@[simp] theorem State.layRoutes_pending (a0 : State) (a1 : Nat) : (State.layRoutes a0 a1).pending = a0.pending := by
  unfold State.layRoutes
  repeat' (first | with_reducible rfl | (simp; done) | split | (intro _) | (with_reducible refine foldl_pending (fun _ _ => ?_) ?_) | simp)
@[simp] theorem State.layAllRoutes_pending (a0 : State) : (State.layAllRoutes a0).pending = a0.pending := by
  unfold State.layAllRoutes
  repeat' (first | with_reducible rfl | (simp; done) | split | (intro _) | (with_reducible refine foldl_pending (fun _ _ => ?_) ?_) | simp)
@[simp] theorem State.layPipe_pending (a0 : State) (a1 : Nat) (a2 : Nat) (a3 : Nat) : (State.layPipe a0 a1 a2 a3).pending = a0.pending := by
  unfold State.layPipe
  repeat' (first | with_reducible rfl | (simp; done) | split | (intro _) | (with_reducible refine foldl_pending (fun _ _ => ?_) ?_) | simp)
@[simp] theorem State.layRoutes_fused (a0 : State) (a1 : Nat) : (State.layRoutes a0 a1).fused = a0.fused := by
  unfold State.layRoutes
  repeat' (first | with_reducible rfl | (simp; done) | split | (intro _) | (with_reducible refine foldl_fused (fun _ _ => ?_) ?_) | simp)
@[simp] theorem State.layAllRoutes_fused (a0 : State) : (State.layAllRoutes a0).fused = a0.fused := by
  unfold State.layAllRoutes
  repeat' (first | with_reducible rfl | (simp; done) | split | (intro _) | (with_reducible refine foldl_fused (fun _ _ => ?_) ?_) | simp)
@[simp] theorem State.layPipe_fused (a0 : State) (a1 : Nat) (a2 : Nat) (a3 : Nat) : (State.layPipe a0 a1 a2 a3).fused = a0.fused := by
  unfold State.layPipe
  repeat' (first | with_reducible rfl | (simp; done) | split | (intro _) | (with_reducible refine foldl_fused (fun _ _ => ?_) ?_) | simp)

/-! Txns -/

@[simp] theorem State.stageEnd_pending (a0 : State) (a1 : Nat) (a2 : Nat) : (State.stageEnd a0 a1 a2).pending = a0.pending := by
  unfold State.stageEnd
  repeat' (first | with_reducible rfl | (simp; done) | split | (intro _) | (with_reducible refine foldl_pending (fun _ _ => ?_) ?_) | simp)
@[simp] theorem State.stageBegin_pending (a0 : State) (a1 : Nat) : (State.stageBegin a0 a1).pending = a0.pending := by
  unfold State.stageBegin
  repeat' (first | with_reducible rfl | (simp; done) | split | (intro _) | (with_reducible refine foldl_pending (fun _ _ => ?_) ?_) | simp)
@[simp] theorem State.portTrain_pending (a0 : State) (a1 : Nat) : (State.portTrain a0 a1).pending = a0.pending := by
  unfold State.portTrain
  repeat' (first | with_reducible rfl | (simp; done) | split | (intro _) | (with_reducible refine foldl_pending (fun _ _ => ?_) ?_) | simp)
@[simp] theorem State.degrade_pending (a0 : State) (a1 : Nat) (a2 : Nat) : (State.degrade a0 a1 a2).pending = a0.pending := by
  unfold State.degrade
  repeat' (first | with_reducible rfl | (simp; done) | split | (intro _) | (with_reducible refine foldl_pending (fun _ _ => ?_) ?_) | simp)
@[simp] theorem State.refuseCommit_pending (a0 : State) (a1 : Commit) (a2 : Nat) (a3 : Option Nat) : (State.refuseCommit a0 a1 a2 a3).pending = a0.pending := by
  unfold State.refuseCommit
  repeat' (first | with_reducible rfl | (simp; done) | split | (intro _) | (with_reducible refine foldl_pending (fun _ _ => ?_) ?_) | simp)
@[simp] theorem State.takeUp_pending (a0 : State) (a1 : Nat) : (State.takeUp a0 a1).pending = a0.pending := by
  induction a1 generalizing a0 with
  | zero => rfl
  | succ n ih =>
    unfold State.takeUp
    split
    · extract_lets x s s' conflict early y
      have hs : s'.pending = a0.pending := by
        dsimp only [s', s]
        split <;> simp
      clear_value conflict early s'
      split
      · simp [ih, hs]
      · split
        · simp [ih, hs]
        · split
          · simp [ih, hs]
          · exact hs
    · rfl
@[simp] theorem State.nextCommit_pending (a0 : State) : (State.nextCommit a0).pending = a0.pending := by
  unfold State.nextCommit
  repeat' (first | with_reducible rfl | (simp; done) | split | (intro _) | (with_reducible refine foldl_pending (fun _ _ => ?_) ?_) | simp)
@[simp] theorem State.queueCommit_pending (a0 : State) (a1 : CommitWhy) (a2 : Tbl (Option Nat)) : (State.queueCommit a0 a1 a2).pending = a0.pending := by
  unfold State.queueCommit
  repeat' (first | with_reducible rfl | (simp; done) | split | (intro _) | (with_reducible refine foldl_pending (fun _ _ => ?_) ?_) | simp)
@[simp] theorem State.epochNotice_pending (a0 : State) (a1 : Commit) (a2 : Nat) : (State.epochNotice a0 a1 a2).pending = a0.pending := by
  unfold State.epochNotice
  repeat' (first | with_reducible rfl | (simp; done) | split | (intro _) | (with_reducible refine foldl_pending (fun _ _ => ?_) ?_) | simp)
@[simp] theorem State.sendEpoch_pending (a0 : State) (a1 : Commit) : (State.sendEpoch a0 a1).pending = a0.pending := by
  unfold State.sendEpoch
  repeat' (first | with_reducible rfl | (simp; done) | split | (intro _) | (with_reducible refine foldl_pending (fun _ _ => ?_) ?_) | simp)
@[simp] theorem State.trySend_pending (a0 : State) : (State.trySend a0).pending = a0.pending := by
  unfold State.trySend
  repeat' (first | with_reducible rfl | (simp; done) | split | (intro _) | (with_reducible refine foldl_pending (fun _ _ => ?_) ?_) | simp)
@[simp] theorem State.tileJoin_pending (a0 : State) (a1 a2 a3 : Nat) : (State.tileJoin a0 a1 a2 a3).pending = a0.pending := by
  unfold State.tileJoin
  dsimp only
  generalize hu : (State.resetTile _ a2 true 50000) = u
  have h : u.pending = a0.pending := by rw [← hu]; simp
  split
  · simp [h]
  · simp [h]
@[simp] theorem State.tileLeave_pending (a0 : State) (a1 : Nat) : (State.tileLeave a0 a1).pending = a0.pending := by
  unfold State.tileLeave
  repeat' (first | with_reducible rfl | (simp; done) | split | (intro _) | (with_reducible refine foldl_pending (fun _ _ => ?_) ?_) | simp)
@[simp] theorem State.handOver_pending (a0 : State) (a1 : Nat) (a2 : Nat) (a3 : Nat) : (State.handOver a0 a1 a2 a3).pending = a0.pending := by
  unfold State.handOver
  repeat' (first | with_reducible rfl | (simp; done) | split | (intro _) | (with_reducible refine foldl_pending (fun _ _ => ?_) ?_) | simp)
@[simp] theorem State.applyLeave_pending (a0 : State) (a1 : State) (a2 : Nat) : (State.applyLeave a0 a1 a2).pending = a1.pending := by
  unfold State.applyLeave
  repeat' (first | with_reducible rfl | (simp; done) | split | (intro _) | (with_reducible refine foldl_pending (fun _ _ => ?_) ?_) | simp)
@[simp] theorem State.applyJoin_pending (a0 : State) (a1 : Nat) : (State.applyJoin a0 a1).pending = a0.pending := by
  unfold State.applyJoin
  repeat' (first | with_reducible rfl | (simp; done) | split | (intro _) | (with_reducible refine foldl_pending (fun _ _ => ?_) ?_) | simp)
@[simp] theorem State.applyRoles_pending (a0 : State) (a1 : State) (a2 : CommitWhy) : (State.applyRoles a0 a1 a2).pending = a1.pending := by
  unfold State.applyRoles
  repeat' (first | with_reducible rfl | (simp; done) | split | (intro _) | (with_reducible refine foldl_pending (fun _ _ => ?_) ?_) | simp)
@[simp] theorem State.openPages_pending (a0 : State) (a1 : Nat) : (State.openPages a0 a1).pending = a0.pending := by
  unfold State.openPages
  repeat' (first | with_reducible rfl | (simp; done) | split | (intro _) | (with_reducible refine foldl_pending (fun _ _ => ?_) ?_) | simp)
@[simp] theorem State.applyBuckets_pending (a0 : State) (a1 : State) : (State.applyBuckets a0 a1).pending = a1.pending := by
  unfold State.applyBuckets
  refine foldl_pending (fun s g => ?_) rfl
  dsimp only
  split <;> (try refine foldl_pending (fun s g => by simp) ?_) <;> split <;> (try refine foldl_pending (fun s g => by simp) ?_) <;> (try split) <;> (try refine foldl_pending (fun s g => by simp) ?_) <;> rfl
@[simp] theorem State.applyWindow_pending (a0 : State) (a1 : State) (a2 : Nat) : (State.applyWindow a0 a1 a2).pending = a1.pending := by
  unfold State.applyWindow
  dsimp only
  split
  · simp
  · split
    · have h : ∀ x : State, ([0, 1].foldl (fun s d => State.abortGroups s d fun x => x.window == a2) x).pending = x.pending :=
        fun x => foldl_pending (fun s d => by simp) rfl
      split <;> simp [-List.foldl_cons, h]
    · rfl
@[simp] theorem State.applyPeer_pending (a0 : State) (a1 : State) (a2 : Nat) : (State.applyPeer a0 a1 a2).pending = a1.pending := by
  unfold State.applyPeer
  repeat' (first | with_reducible rfl | (simp; done) | split | (intro _) | (with_reducible refine foldl_pending (fun _ _ => ?_) ?_) | simp)
@[simp] theorem State.applyEndpoint_pending (a0 : State) (a1 : State) (a2 : Nat) : (State.applyEndpoint a0 a1 a2).pending = a1.pending := by
  unfold State.applyEndpoint
  repeat' (first | with_reducible rfl | (simp; done) | split | (intro _) | (with_reducible refine foldl_pending (fun _ _ => ?_) ?_) | simp)
@[simp] theorem State.applyQueue_pending (a0 : State) (a1 : State) (a2 : Nat) : (State.applyQueue a0 a1 a2).pending = a1.pending := by
  unfold State.applyQueue
  repeat' (first | with_reducible rfl | (simp; done) | split | (intro _) | (with_reducible refine foldl_pending (fun _ _ => ?_) ?_) | simp)
@[simp] theorem State.applyCommit_pending (a0 : State) (a1 : Commit) : (State.applyCommit a0 a1).pending = a0.pending := by
  unfold State.applyCommit
  repeat' (first | with_reducible rfl | (simp; done) | split | (intro _) | (with_reducible refine foldl_pending (fun _ _ => ?_) ?_) | simp)
@[simp] theorem State.markConflicts_pending (a0 : State) (a1 : Commit) : (State.markConflicts a0 a1).pending = a0.pending := by
  unfold State.markConflicts
  repeat' (first | with_reducible rfl | (simp; done) | split | (intro _) | (with_reducible refine foldl_pending (fun _ _ => ?_) ?_) | simp)
@[simp] theorem State.txnCommitted_pending (a0 : State) (a1 : Commit) (a2 : Nat) : (State.txnCommitted a0 a1 a2).pending = a0.pending := by
  unfold State.txnCommitted
  repeat' (first | with_reducible rfl | (simp; done) | split | (intro _) | (with_reducible refine foldl_pending (fun _ _ => ?_) ?_) | simp)
@[simp] theorem State.retireEpoch_pending (a0 : State) : (State.retireEpoch a0).pending = a0.pending := by
  unfold State.retireEpoch
  repeat' (first | with_reducible rfl | (simp; done) | split | (intro _) | (with_reducible refine foldl_pending (fun _ _ => ?_) ?_) | simp)
@[simp] theorem State.txnCommand_pending (a0 : State) (a1 : Source) (a2 : Nat) : (State.txnCommand a0 a1 a2).1.pending = a0.pending := by
  unfold State.txnCommand
  repeat' (first | with_reducible rfl | (simp; done) | split | (intro _) | (with_reducible refine foldl_pending (fun _ _ => ?_) ?_) | simp)
@[simp] theorem State.stageEnd_fused (a0 : State) (a1 : Nat) (a2 : Nat) : (State.stageEnd a0 a1 a2).fused = a0.fused := by
  unfold State.stageEnd
  repeat' (first | with_reducible rfl | (simp; done) | split | (intro _) | (with_reducible refine foldl_fused (fun _ _ => ?_) ?_) | simp)
@[simp] theorem State.stageBegin_fused (a0 : State) (a1 : Nat) : (State.stageBegin a0 a1).fused = a0.fused := by
  unfold State.stageBegin
  repeat' (first | with_reducible rfl | (simp; done) | split | (intro _) | (with_reducible refine foldl_fused (fun _ _ => ?_) ?_) | simp)
@[simp] theorem State.portTrain_fused (a0 : State) (a1 : Nat) : (State.portTrain a0 a1).fused = a0.fused := by
  unfold State.portTrain
  repeat' (first | with_reducible rfl | (simp; done) | split | (intro _) | (with_reducible refine foldl_fused (fun _ _ => ?_) ?_) | simp)
@[simp] theorem State.degrade_fused (a0 : State) (a1 : Nat) (a2 : Nat) : (State.degrade a0 a1 a2).fused = a0.fused := by
  unfold State.degrade
  repeat' (first | with_reducible rfl | (simp; done) | split | (intro _) | (with_reducible refine foldl_fused (fun _ _ => ?_) ?_) | simp)
@[simp] theorem State.refuseCommit_fused (a0 : State) (a1 : Commit) (a2 : Nat) (a3 : Option Nat) : (State.refuseCommit a0 a1 a2 a3).fused = a0.fused := by
  unfold State.refuseCommit
  repeat' (first | with_reducible rfl | (simp; done) | split | (intro _) | (with_reducible refine foldl_fused (fun _ _ => ?_) ?_) | simp)
@[simp] theorem State.takeUp_fused (a0 : State) (a1 : Nat) : (State.takeUp a0 a1).fused = a0.fused := by
  induction a1 generalizing a0 with
  | zero => rfl
  | succ n ih =>
    unfold State.takeUp
    split
    · extract_lets x s s' conflict early y
      have hs : s'.fused = a0.fused := by
        dsimp only [s', s]
        split <;> simp
      clear_value conflict early s'
      split
      · simp [ih, hs]
      · split
        · simp [ih, hs]
        · split
          · simp [ih, hs]
          · exact hs
    · rfl
@[simp] theorem State.nextCommit_fused (a0 : State) : (State.nextCommit a0).fused = a0.fused := by
  unfold State.nextCommit
  repeat' (first | with_reducible rfl | (simp; done) | split | (intro _) | (with_reducible refine foldl_fused (fun _ _ => ?_) ?_) | simp)
@[simp] theorem State.queueCommit_fused (a0 : State) (a1 : CommitWhy) (a2 : Tbl (Option Nat)) : (State.queueCommit a0 a1 a2).fused = a0.fused := by
  unfold State.queueCommit
  repeat' (first | with_reducible rfl | (simp; done) | split | (intro _) | (with_reducible refine foldl_fused (fun _ _ => ?_) ?_) | simp)
@[simp] theorem State.epochNotice_fused (a0 : State) (a1 : Commit) (a2 : Nat) : (State.epochNotice a0 a1 a2).fused = a0.fused := by
  unfold State.epochNotice
  repeat' (first | with_reducible rfl | (simp; done) | split | (intro _) | (with_reducible refine foldl_fused (fun _ _ => ?_) ?_) | simp)
@[simp] theorem State.sendEpoch_fused (a0 : State) (a1 : Commit) : (State.sendEpoch a0 a1).fused = a0.fused := by
  unfold State.sendEpoch
  repeat' (first | with_reducible rfl | (simp; done) | split | (intro _) | (with_reducible refine foldl_fused (fun _ _ => ?_) ?_) | simp)
@[simp] theorem State.trySend_fused (a0 : State) : (State.trySend a0).fused = a0.fused := by
  unfold State.trySend
  repeat' (first | with_reducible rfl | (simp; done) | split | (intro _) | (with_reducible refine foldl_fused (fun _ _ => ?_) ?_) | simp)
@[simp] theorem State.tileJoin_fused (a0 : State) (a1 a2 a3 : Nat) : (State.tileJoin a0 a1 a2 a3).fused = a0.fused := by
  unfold State.tileJoin
  dsimp only
  generalize hu : (State.resetTile _ a2 true 50000) = u
  have h : u.fused = a0.fused := by rw [← hu]; simp
  split
  · simp [h]
  · simp [h]
@[simp] theorem State.tileLeave_fused (a0 : State) (a1 : Nat) : (State.tileLeave a0 a1).fused = a0.fused := by
  unfold State.tileLeave
  repeat' (first | with_reducible rfl | (simp; done) | split | (intro _) | (with_reducible refine foldl_fused (fun _ _ => ?_) ?_) | simp)
@[simp] theorem State.handOver_fused (a0 : State) (a1 : Nat) (a2 : Nat) (a3 : Nat) : (State.handOver a0 a1 a2 a3).fused = a0.fused := by
  unfold State.handOver
  repeat' (first | with_reducible rfl | (simp; done) | split | (intro _) | (with_reducible refine foldl_fused (fun _ _ => ?_) ?_) | simp)
@[simp] theorem State.applyLeave_fused (a0 : State) (a1 : State) (a2 : Nat) : (State.applyLeave a0 a1 a2).fused = a1.fused := by
  unfold State.applyLeave
  repeat' (first | with_reducible rfl | (simp; done) | split | (intro _) | (with_reducible refine foldl_fused (fun _ _ => ?_) ?_) | simp)
@[simp] theorem State.applyJoin_fused (a0 : State) (a1 : Nat) : (State.applyJoin a0 a1).fused = a0.fused := by
  unfold State.applyJoin
  repeat' (first | with_reducible rfl | (simp; done) | split | (intro _) | (with_reducible refine foldl_fused (fun _ _ => ?_) ?_) | simp)
@[simp] theorem State.applyRoles_fused (a0 : State) (a1 : State) (a2 : CommitWhy) : (State.applyRoles a0 a1 a2).fused = a1.fused := by
  unfold State.applyRoles
  repeat' (first | with_reducible rfl | (simp; done) | split | (intro _) | (with_reducible refine foldl_fused (fun _ _ => ?_) ?_) | simp)
@[simp] theorem State.openPages_fused (a0 : State) (a1 : Nat) : (State.openPages a0 a1).fused = a0.fused := by
  unfold State.openPages
  repeat' (first | with_reducible rfl | (simp; done) | split | (intro _) | (with_reducible refine foldl_fused (fun _ _ => ?_) ?_) | simp)
@[simp] theorem State.applyBuckets_fused (a0 : State) (a1 : State) : (State.applyBuckets a0 a1).fused = a1.fused := by
  unfold State.applyBuckets
  refine foldl_fused (fun s g => ?_) rfl
  dsimp only
  split <;> (try refine foldl_fused (fun s g => by simp) ?_) <;> split <;> (try refine foldl_fused (fun s g => by simp) ?_) <;> (try split) <;> (try refine foldl_fused (fun s g => by simp) ?_) <;> rfl
@[simp] theorem State.applyWindow_fused (a0 : State) (a1 : State) (a2 : Nat) : (State.applyWindow a0 a1 a2).fused = a1.fused := by
  unfold State.applyWindow
  dsimp only
  split
  · simp
  · split
    · have h : ∀ x : State, ([0, 1].foldl (fun s d => State.abortGroups s d fun x => x.window == a2) x).fused = x.fused :=
        fun x => foldl_fused (fun s d => by simp) rfl
      split <;> simp [-List.foldl_cons, h]
    · rfl
@[simp] theorem State.applyPeer_fused (a0 : State) (a1 : State) (a2 : Nat) : (State.applyPeer a0 a1 a2).fused = a1.fused := by
  unfold State.applyPeer
  repeat' (first | with_reducible rfl | (simp; done) | split | (intro _) | (with_reducible refine foldl_fused (fun _ _ => ?_) ?_) | simp)
@[simp] theorem State.applyEndpoint_fused (a0 : State) (a1 : State) (a2 : Nat) : (State.applyEndpoint a0 a1 a2).fused = a1.fused := by
  unfold State.applyEndpoint
  repeat' (first | with_reducible rfl | (simp; done) | split | (intro _) | (with_reducible refine foldl_fused (fun _ _ => ?_) ?_) | simp)
@[simp] theorem State.applyQueue_fused (a0 : State) (a1 : State) (a2 : Nat) : (State.applyQueue a0 a1 a2).fused = a1.fused := by
  unfold State.applyQueue
  repeat' (first | with_reducible rfl | (simp; done) | split | (intro _) | (with_reducible refine foldl_fused (fun _ _ => ?_) ?_) | simp)
@[simp] theorem State.applyCommit_fused (a0 : State) (a1 : Commit) : (State.applyCommit a0 a1).fused = a0.fused := by
  unfold State.applyCommit
  repeat' (first | with_reducible rfl | (simp; done) | split | (intro _) | (with_reducible refine foldl_fused (fun _ _ => ?_) ?_) | simp)
@[simp] theorem State.markConflicts_fused (a0 : State) (a1 : Commit) : (State.markConflicts a0 a1).fused = a0.fused := by
  unfold State.markConflicts
  repeat' (first | with_reducible rfl | (simp; done) | split | (intro _) | (with_reducible refine foldl_fused (fun _ _ => ?_) ?_) | simp)
@[simp] theorem State.txnCommitted_fused (a0 : State) (a1 : Commit) (a2 : Nat) : (State.txnCommitted a0 a1 a2).fused = a0.fused := by
  unfold State.txnCommitted
  repeat' (first | with_reducible rfl | (simp; done) | split | (intro _) | (with_reducible refine foldl_fused (fun _ _ => ?_) ?_) | simp)
@[simp] theorem State.retireEpoch_fused (a0 : State) : (State.retireEpoch a0).fused = a0.fused := by
  unfold State.retireEpoch
  repeat' (first | with_reducible rfl | (simp; done) | split | (intro _) | (with_reducible refine foldl_fused (fun _ _ => ?_) ?_) | simp)
@[simp] theorem State.txnCommand_fused (a0 : State) (a1 : Source) (a2 : Nat) : (State.txnCommand a0 a1 a2).1.fused = a0.fused := by
  unfold State.txnCommand
  repeat' (first | with_reducible rfl | (simp; done) | split | (intro _) | (with_reducible refine foldl_fused (fun _ _ => ?_) ?_) | simp)

end Sys2Proof.Machine
end

