-- ==== Sys2Proof/Laws/KeptHost.lean ====
section
/-! SUPPORT. What the operations of Jobs, Migrate, Epochs, Errlog, Boot, Repair, Testing, BringUp leave unchanged: the queue of waiting
commands and, but for the three that burn them, the fuses. -/

namespace Sys2Proof.Machine

/-! Jobs -/

@[simp] theorem State.startImageTile_pending (a0 : State) (a1 : ImageTile) : (State.startImageTile a0 a1).pending = a0.pending := by
  unfold State.startImageTile
  repeat' (first | with_reducible rfl | (simp; done) | split | (intro _) | (with_reducible refine foldl_pending (fun _ _ => ?_) ?_) | simp)
@[simp] theorem State.setRegions_pending (a0 : State) (a1 : Nat) (a2 : List RegionDecl) : (State.setRegions a0 a1 a2).pending = a0.pending := by
  unfold State.setRegions
  repeat' (first | with_reducible rfl | (simp; done) | split | (intro _) | (with_reducible refine foldl_pending (fun _ _ => ?_) ?_) | simp)
@[simp] theorem State.loadImage_pending (a0 : State) (a1 : Nat) (a2 : GraphImage) : (State.loadImage a0 a1 a2).pending = a0.pending := by
  unfold State.loadImage
  repeat' (first | with_reducible rfl | (simp; done) | split | (intro _) | (with_reducible refine foldl_pending (fun _ _ => ?_) ?_) | simp)
@[simp] theorem State.jobLoad_pending (a0 : State) (a1 : Nat) (a2 : Option GraphImage) : (State.jobLoad a0 a1 a2).1.pending = a0.pending := by
  unfold State.jobLoad
  repeat' (first | with_reducible rfl | (simp; done) | split | (intro _) | (with_reducible refine foldl_pending (fun _ _ => ?_) ?_) | simp)
@[simp] theorem State.jobUnload_pending (a0 : State) (a1 : Nat) : (State.jobUnload a0 a1).1.pending = a0.pending := by
  unfold State.jobUnload
  have hm : ∀ (x : State) (g : Nat) (f : JobSt → JobSt), (x.modJob g f).pending = x.pending := fun _ _ _ => rfl
  by_cases h : a0.obe Ob.job_state a1 = 4
  · rw [if_pos h]
  · rw [if_neg h]
    dsimp only
    rw [State.countReset_pending, State.resetMeadow_pending, hm]
    exact foldl_pending (fun _ _ => by simp) (by simp)
@[simp] theorem State.restoreTile_pending (a0 : State) (a1 : GraphImage) (a2 : Nat) : (State.restoreTile a0 a1 a2).pending = a0.pending := by
  unfold State.restoreTile
  repeat' (first | with_reducible rfl | (simp; done) | split | (intro _) | (with_reducible refine foldl_pending (fun _ _ => ?_) ?_) | simp)
@[simp] theorem State.truncate_pending (a0 : State) (a1 : Nat) : (State.truncate a0 a1).pending = a0.pending := by
  unfold State.truncate
  repeat' (first | with_reducible rfl | (simp; done) | split | (intro _) | (with_reducible refine foldl_pending (fun _ _ => ?_) ?_) | simp)
@[simp] theorem State.restorePairs_pending (a0 : State) (a1 : Nat) : (State.restorePairs a0 a1).pending = a0.pending := by
  unfold State.restorePairs
  repeat' (first | with_reducible rfl | (simp; done) | split | (intro _) | (with_reducible refine foldl_pending (fun _ _ => ?_) ?_) | simp)
@[simp] theorem State.finishRecovery_pending (a0 : State) (a1 : Nat) : (State.finishRecovery a0 a1).pending = a0.pending := by
  unfold State.finishRecovery
  repeat' (first | with_reducible rfl | (simp; done) | split | (intro _) | (with_reducible refine foldl_pending (fun _ _ => ?_) ?_) | simp)
@[simp] theorem State.tryRecovery_pending (a0 : State) (a1 : Nat) : (State.tryRecovery a0 a1).pending = a0.pending := by
  unfold State.tryRecovery
  repeat' (first | with_reducible rfl | (simp; done) | split | (intro _) | (with_reducible refine foldl_pending (fun _ _ => ?_) ?_) | simp)
@[simp] theorem State.fenceFaults_pending (a0 : State) (a1 : Nat) : (State.fenceFaults a0 a1).pending = a0.pending := by
  unfold State.fenceFaults
  repeat' (first | with_reducible rfl | (simp; done) | split | (intro _) | (with_reducible refine foldl_pending (fun _ _ => ?_) ?_) | simp)
@[simp] theorem State.isolate_pending (a0 : State) (a1 : Nat) : (State.isolate a0 a1).pending = a0.pending := by
  unfold State.isolate
  repeat' (first | with_reducible rfl | (simp; done) | split | (intro _) | (with_reducible refine foldl_pending (fun _ _ => ?_) ?_) | simp)
@[simp] theorem State.replacedDone_pending (a0 : State) (a1 : Nat) : (State.replacedDone a0 a1).pending = a0.pending := by
  unfold State.replacedDone
  repeat' (first | with_reducible rfl | (simp; done) | split | (intro _) | (with_reducible refine foldl_pending (fun _ _ => ?_) ?_) | simp)
@[simp] theorem State.unitFault_pending (a0 : State) (a1 : Nat) (a2 : Nat) : (State.unitFault a0 a1 a2).pending = a0.pending := by
  unfold State.unitFault
  split
  · rfl
  · split
    · rfl
    · have hm : ∀ (l : List Nat) (x : State), (l.foldl (fun s m => s.abandonMigration m 3) x).pending = x.pending :=
        fun l x => foldl_pending (fun _ _ => by simp) rfl
      dsimp only
      rw [ite_pending, ite_pending]
      split
      · simp [hm]
      · split <;> simp [hm]
@[simp] theorem State.jobIsolate_pending (a0 : State) (a1 : Nat) : (State.jobIsolate a0 a1).1.pending = a0.pending := by
  unfold State.jobIsolate
  repeat' (first | with_reducible rfl | (simp; done) | split | (intro _) | (with_reducible refine foldl_pending (fun _ _ => ?_) ?_) | simp)
@[simp] theorem State.jobRecover_pending (a0 : State) (a1 : Nat) : (State.jobRecover a0 a1).1.pending = a0.pending := by
  unfold State.jobRecover
  repeat' (first | with_reducible rfl | (simp; done) | split | (intro _) | (with_reducible refine foldl_pending (fun _ _ => ?_) ?_) | simp)
@[simp] theorem State.jobCommand_pending (a0 : State) (a1 : Nat) (a2 : Option GraphImage) : (State.jobCommand a0 a1 a2).1.pending = a0.pending := by
  unfold State.jobCommand
  repeat' (first | with_reducible rfl | (simp; done) | split | (intro _) | (with_reducible refine foldl_pending (fun _ _ => ?_) ?_) | simp)
@[simp] theorem State.fill_pending (a0 : State) (a1 : Fill) : (State.fill a0 a1).pending = a0.pending := by
  unfold State.fill
  repeat' (first | with_reducible rfl | (simp; done) | split | (intro _) | (with_reducible refine foldl_pending (fun _ _ => ?_) ?_) | simp)
@[simp] theorem State.startImageTile_fused (a0 : State) (a1 : ImageTile) : (State.startImageTile a0 a1).fused = a0.fused := by
  unfold State.startImageTile
  repeat' (first | with_reducible rfl | (simp; done) | split | (intro _) | (with_reducible refine foldl_fused (fun _ _ => ?_) ?_) | simp)
@[simp] theorem State.setRegions_fused (a0 : State) (a1 : Nat) (a2 : List RegionDecl) : (State.setRegions a0 a1 a2).fused = a0.fused := by
  unfold State.setRegions
  repeat' (first | with_reducible rfl | (simp; done) | split | (intro _) | (with_reducible refine foldl_fused (fun _ _ => ?_) ?_) | simp)
@[simp] theorem State.loadImage_fused (a0 : State) (a1 : Nat) (a2 : GraphImage) : (State.loadImage a0 a1 a2).fused = a0.fused := by
  unfold State.loadImage
  repeat' (first | with_reducible rfl | (simp; done) | split | (intro _) | (with_reducible refine foldl_fused (fun _ _ => ?_) ?_) | simp)
@[simp] theorem State.jobLoad_fused (a0 : State) (a1 : Nat) (a2 : Option GraphImage) : (State.jobLoad a0 a1 a2).1.fused = a0.fused := by
  unfold State.jobLoad
  repeat' (first | with_reducible rfl | (simp; done) | split | (intro _) | (with_reducible refine foldl_fused (fun _ _ => ?_) ?_) | simp)
@[simp] theorem State.jobUnload_fused (a0 : State) (a1 : Nat) : (State.jobUnload a0 a1).1.fused = a0.fused := by
  unfold State.jobUnload
  have hm : ∀ (x : State) (g : Nat) (f : JobSt → JobSt), (x.modJob g f).fused = x.fused := fun _ _ _ => rfl
  by_cases h : a0.obe Ob.job_state a1 = 4
  · rw [if_pos h]
  · rw [if_neg h]
    dsimp only
    rw [State.countReset_fused, State.resetMeadow_fused, hm]
    exact foldl_fused (fun _ _ => by simp) (by simp)
@[simp] theorem State.restoreTile_fused (a0 : State) (a1 : GraphImage) (a2 : Nat) : (State.restoreTile a0 a1 a2).fused = a0.fused := by
  unfold State.restoreTile
  repeat' (first | with_reducible rfl | (simp; done) | split | (intro _) | (with_reducible refine foldl_fused (fun _ _ => ?_) ?_) | simp)
@[simp] theorem State.truncate_fused (a0 : State) (a1 : Nat) : (State.truncate a0 a1).fused = a0.fused := by
  unfold State.truncate
  repeat' (first | with_reducible rfl | (simp; done) | split | (intro _) | (with_reducible refine foldl_fused (fun _ _ => ?_) ?_) | simp)
@[simp] theorem State.restorePairs_fused (a0 : State) (a1 : Nat) : (State.restorePairs a0 a1).fused = a0.fused := by
  unfold State.restorePairs
  repeat' (first | with_reducible rfl | (simp; done) | split | (intro _) | (with_reducible refine foldl_fused (fun _ _ => ?_) ?_) | simp)
@[simp] theorem State.finishRecovery_fused (a0 : State) (a1 : Nat) : (State.finishRecovery a0 a1).fused = a0.fused := by
  unfold State.finishRecovery
  repeat' (first | with_reducible rfl | (simp; done) | split | (intro _) | (with_reducible refine foldl_fused (fun _ _ => ?_) ?_) | simp)
@[simp] theorem State.tryRecovery_fused (a0 : State) (a1 : Nat) : (State.tryRecovery a0 a1).fused = a0.fused := by
  unfold State.tryRecovery
  repeat' (first | with_reducible rfl | (simp; done) | split | (intro _) | (with_reducible refine foldl_fused (fun _ _ => ?_) ?_) | simp)
@[simp] theorem State.fenceFaults_fused (a0 : State) (a1 : Nat) : (State.fenceFaults a0 a1).fused = a0.fused := by
  unfold State.fenceFaults
  repeat' (first | with_reducible rfl | (simp; done) | split | (intro _) | (with_reducible refine foldl_fused (fun _ _ => ?_) ?_) | simp)
@[simp] theorem State.isolate_fused (a0 : State) (a1 : Nat) : (State.isolate a0 a1).fused = a0.fused := by
  unfold State.isolate
  repeat' (first | with_reducible rfl | (simp; done) | split | (intro _) | (with_reducible refine foldl_fused (fun _ _ => ?_) ?_) | simp)
@[simp] theorem State.replacedDone_fused (a0 : State) (a1 : Nat) : (State.replacedDone a0 a1).fused = a0.fused := by
  unfold State.replacedDone
  repeat' (first | with_reducible rfl | (simp; done) | split | (intro _) | (with_reducible refine foldl_fused (fun _ _ => ?_) ?_) | simp)
@[simp] theorem State.unitFault_fused (a0 : State) (a1 : Nat) (a2 : Nat) : (State.unitFault a0 a1 a2).fused = a0.fused := by
  unfold State.unitFault
  split
  · rfl
  · split
    · rfl
    · have hm : ∀ (l : List Nat) (x : State), (l.foldl (fun s m => s.abandonMigration m 3) x).fused = x.fused :=
        fun l x => foldl_fused (fun _ _ => by simp) rfl
      dsimp only
      rw [ite_fused, ite_fused]
      split
      · simp [hm]
      · split <;> simp [hm]
@[simp] theorem State.jobIsolate_fused (a0 : State) (a1 : Nat) : (State.jobIsolate a0 a1).1.fused = a0.fused := by
  unfold State.jobIsolate
  repeat' (first | with_reducible rfl | (simp; done) | split | (intro _) | (with_reducible refine foldl_fused (fun _ _ => ?_) ?_) | simp)
@[simp] theorem State.jobRecover_fused (a0 : State) (a1 : Nat) : (State.jobRecover a0 a1).1.fused = a0.fused := by
  unfold State.jobRecover
  repeat' (first | with_reducible rfl | (simp; done) | split | (intro _) | (with_reducible refine foldl_fused (fun _ _ => ?_) ?_) | simp)
@[simp] theorem State.jobCommand_fused (a0 : State) (a1 : Nat) (a2 : Option GraphImage) : (State.jobCommand a0 a1 a2).1.fused = a0.fused := by
  unfold State.jobCommand
  repeat' (first | with_reducible rfl | (simp; done) | split | (intro _) | (with_reducible refine foldl_fused (fun _ _ => ?_) ?_) | simp)
@[simp] theorem State.fill_fused (a0 : State) (a1 : Fill) : (State.fill a0 a1).fused = a0.fused := by
  unfold State.fill
  repeat' (first | with_reducible rfl | (simp; done) | split | (intro _) | (with_reducible refine foldl_fused (fun _ _ => ?_) ?_) | simp)

/-! Migrate -/

@[simp] theorem State.startMigration_pending (a0 : State) (a1 : Nat) (a2 : Nat) (a3 : Nat) (a4 : Nat) (a5 : Option Nat) : (State.startMigration a0 a1 a2 a3 a4 a5).pending = a0.pending := by
  unfold State.startMigration
  repeat' (first | with_reducible rfl | (simp; done) | split | (intro _) | (with_reducible refine foldl_pending (fun _ _ => ?_) ?_) | simp)
@[simp] theorem State.takeSpare_pending (a0 : State) (a1 : Nat) : (State.takeSpare a0 a1).pending = a0.pending := by
  unfold State.takeSpare
  repeat' (first | with_reducible rfl | (simp; done) | split | (intro _) | (with_reducible refine foldl_pending (fun _ _ => ?_) ?_) | simp)
@[simp] theorem State.copyAcross_pending (a0 : State) (a1 : Nat) (a2 : Nat) : (State.copyAcross a0 a1 a2).pending = a0.pending := by
  unfold State.copyAcross
  repeat' (first | with_reducible rfl | (simp; done) | split | (intro _) | (with_reducible refine foldl_pending (fun _ _ => ?_) ?_) | simp)
@[simp] theorem State.dropMigration_pending (a0 : State) (a1 : Nat) (a2 : Nat) : (State.dropMigration a0 a1 a2).pending = a0.pending := by
  unfold State.dropMigration
  repeat' (first | with_reducible rfl | (simp; done) | split | (intro _) | (with_reducible refine foldl_pending (fun _ _ => ?_) ?_) | simp)
@[simp] theorem State.startMigration_fused (a0 : State) (a1 : Nat) (a2 : Nat) (a3 : Nat) (a4 : Nat) (a5 : Option Nat) : (State.startMigration a0 a1 a2 a3 a4 a5).fused = a0.fused := by
  unfold State.startMigration
  repeat' (first | with_reducible rfl | (simp; done) | split | (intro _) | (with_reducible refine foldl_fused (fun _ _ => ?_) ?_) | simp)
@[simp] theorem State.takeSpare_fused (a0 : State) (a1 : Nat) : (State.takeSpare a0 a1).fused = a0.fused := by
  unfold State.takeSpare
  repeat' (first | with_reducible rfl | (simp; done) | split | (intro _) | (with_reducible refine foldl_fused (fun _ _ => ?_) ?_) | simp)
@[simp] theorem State.copyAcross_fused (a0 : State) (a1 : Nat) (a2 : Nat) : (State.copyAcross a0 a1 a2).fused = a0.fused := by
  unfold State.copyAcross
  repeat' (first | with_reducible rfl | (simp; done) | split | (intro _) | (with_reducible refine foldl_fused (fun _ _ => ?_) ?_) | simp)
@[simp] theorem State.dropMigration_fused (a0 : State) (a1 : Nat) (a2 : Nat) : (State.dropMigration a0 a1 a2).fused = a0.fused := by
  unfold State.dropMigration
  repeat' (first | with_reducible rfl | (simp; done) | split | (intro _) | (with_reducible refine foldl_fused (fun _ _ => ?_) ?_) | simp)

/-! Epochs -/

@[simp] theorem State.afterCommit_pending (a0 : State) (a1 : Commit) : (State.afterCommit a0 a1).pending = a0.pending := by
  unfold State.afterCommit
  repeat' (first | with_reducible rfl | (simp; done) | split | (intro _) | (with_reducible refine foldl_pending (fun _ _ => ?_) ?_) | simp)
@[simp] theorem State.noticesTaken_pending (a0 : State) (a1 : Nat) : (State.noticesTaken a0 a1).pending = a0.pending := by
  unfold State.noticesTaken
  repeat' (first | with_reducible rfl | (simp; done) | split | (intro _) | (with_reducible refine foldl_pending (fun _ _ => ?_) ?_) | simp)
@[simp] theorem State.afterCommit_fused (a0 : State) (a1 : Commit) : (State.afterCommit a0 a1).fused = a0.fused := by
  unfold State.afterCommit
  repeat' (first | with_reducible rfl | (simp; done) | split | (intro _) | (with_reducible refine foldl_fused (fun _ _ => ?_) ?_) | simp)
@[simp] theorem State.noticesTaken_fused (a0 : State) (a1 : Nat) : (State.noticesTaken a0 a1).fused = a0.fused := by
  unfold State.noticesTaken
  repeat' (first | with_reducible rfl | (simp; done) | split | (intro _) | (with_reducible refine foldl_fused (fun _ _ => ?_) ?_) | simp)

/-! Errlog -/

@[simp] theorem State.errlogPush_pending (a0 : State) (a1 : Nat) (a2 : Nat) (a3 : Nat) : (State.errlogPush a0 a1 a2 a3).pending = a0.pending := by
  unfold State.errlogPush
  repeat' (first | with_reducible rfl | (simp; done) | split | (intro _) | (with_reducible refine foldl_pending (fun _ _ => ?_) ?_) | simp)
@[simp] theorem State.logWrite_pending (a0 : State) (a1 : Report) : (State.logWrite a0 a1).pending = a0.pending := by
  unfold State.logWrite
  repeat' (first | with_reducible rfl | (simp; done) | split | (intro _) | (with_reducible refine foldl_pending (fun _ _ => ?_) ?_) | simp)
@[simp] theorem State.faultOf_pending (a0 : State) (a1 : Report) : (State.faultOf a0 a1).pending = a0.pending := by
  unfold State.faultOf
  repeat' (first | with_reducible rfl | (simp; done) | split | (intro _) | (with_reducible refine foldl_pending (fun _ _ => ?_) ?_) | simp)
@[simp] theorem State.errlogPush_fused (a0 : State) (a1 : Nat) (a2 : Nat) (a3 : Nat) : (State.errlogPush a0 a1 a2 a3).fused = a0.fused := by
  unfold State.errlogPush
  repeat' (first | with_reducible rfl | (simp; done) | split | (intro _) | (with_reducible refine foldl_fused (fun _ _ => ?_) ?_) | simp)
@[simp] theorem State.logWrite_fused (a0 : State) (a1 : Report) : (State.logWrite a0 a1).fused = a0.fused := by
  unfold State.logWrite
  repeat' (first | with_reducible rfl | (simp; done) | split | (intro _) | (with_reducible refine foldl_fused (fun _ _ => ?_) ?_) | simp)
@[simp] theorem State.faultOf_fused (a0 : State) (a1 : Report) : (State.faultOf a0 a1).fused = a0.fused := by
  unfold State.faultOf
  repeat' (first | with_reducible rfl | (simp; done) | split | (intro _) | (with_reducible refine foldl_fused (fun _ _ => ?_) ?_) | simp)

/-! Boot -/

@[simp] theorem State.abortAll_pending (a0 : State) (a1 : Nat) : (State.abortAll a0 a1).pending = a0.pending := by
  unfold State.abortAll
  repeat' (first | with_reducible rfl | (simp; done) | split | (intro _) | (with_reducible refine foldl_pending (fun _ _ => ?_) ?_) | simp)
@[simp] theorem State.fencesShown_pending (a0 : State) : (State.fencesShown a0).pending = a0.pending := by
  unfold State.fencesShown
  repeat' (first | with_reducible rfl | (simp; done) | split | (intro _) | (with_reducible refine foldl_pending (fun _ _ => ?_) ?_) | simp)
@[simp] theorem State.unitsLost_pending (a0 : State) : (State.unitsLost a0).pending = a0.pending := by
  unfold State.unitsLost
  repeat' (first | with_reducible rfl | (simp; done) | split | (intro _) | (with_reducible refine foldl_pending (fun _ _ => ?_) ?_) | simp)
@[simp] theorem State.reload_pending (a0 : State) (a1 : Bool) : (State.reload a0 a1).pending = a0.pending := by
  unfold State.reload
  repeat' (first | with_reducible rfl | (simp; done) | split | (intro _) | (with_reducible refine foldl_pending (fun _ _ => ?_) ?_) | simp)
@[simp] theorem State.linkOff_pending (a0 : State) : (State.linkOff a0).pending = a0.pending := by
  unfold State.linkOff
  repeat' (first | with_reducible rfl | (simp; done) | split | (intro _) | (with_reducible refine foldl_pending (fun _ _ => ?_) ?_) | simp)
@[simp] theorem State.mailboxReset_pending (a0 : State) : (State.mailboxReset a0).pending = a0.pending := by
  unfold State.mailboxReset
  repeat' (first | with_reducible rfl | (simp; done) | split | (intro _) | (with_reducible refine foldl_pending (fun _ _ => ?_) ?_) | simp)
@[simp] theorem State.loadsOff_pending (a0 : State) : (State.loadsOff a0).pending = a0.pending := by
  unfold State.loadsOff
  repeat' (first | with_reducible rfl | (simp; done) | split | (intro _) | (with_reducible refine foldl_pending (fun _ _ => ?_) ?_) | simp)
@[simp] theorem State.d6_pending (a0 : State) : (State.d6 a0).pending = a0.pending := by
  unfold State.d6
  have hw : ∀ (x : State) (a : Pins) (b : PowerState) (c : FwState) (d : BootState),
    ({ x with pins := a, power := b, fw := c, boot := d } : State).pending = x.pending := fun _ _ _ _ _ => rfl
  have hd : ∀ (x : State) (a : DictState), ({ x with dict := a } : State).pending = x.pending := fun _ _ => rfl
  refine (hw _ _ _ _ _).trans ?_
  simp only [State.runComps_pending, State.mailboxReset_pending, State.linkOff_pending, State.reload_pending]
  refine (foldl_pending (fun s i => State.endSession_pending s i) rfl).trans ?_
  rw [State.unitsLost_pending]
  split
  · exact hd _ _
  · rfl
@[simp] theorem State.stageAt_pending (a0 : State) (a1 : Nat) (a2 : Nat) (a3 : Nat) : (State.stageAt a0 a1 a2 a3).pending = a0.pending := by
  unfold State.stageAt
  repeat' (first | with_reducible rfl | (simp; done) | split | (intro _) | (with_reducible refine foldl_pending (fun _ _ => ?_) ?_) | simp)
@[simp] theorem State.stage1Due_pending (a0 : State) : (State.stage1Due a0).pending = a0.pending := by
  unfold State.stage1Due
  repeat' (first | with_reducible rfl | (simp; done) | split | (intro _) | (with_reducible refine foldl_pending (fun _ _ => ?_) ?_) | simp)
@[simp] theorem State.stageOver_pending (a0 : State) (a1 : Nat) : (State.stageOver a0 a1).pending = a0.pending := by
  unfold State.stageOver
  repeat' (first | with_reducible rfl | (simp; done) | split | (intro _) | (with_reducible refine foldl_pending (fun _ _ => ?_) ?_) | simp)
@[simp] theorem State.recoveryPort_pending (a0 : State) : (State.recoveryPort a0).pending = a0.pending := by
  unfold State.recoveryPort
  repeat' (first | with_reducible rfl | (simp; done) | split | (intro _) | (with_reducible refine foldl_pending (fun _ _ => ?_) ?_) | simp)
@[simp] theorem State.enterRecovery_pending (a0 : State) (a1 : Nat) : (State.enterRecovery a0 a1).pending = a0.pending := by
  unfold State.enterRecovery
  repeat' (first | with_reducible rfl | (simp; done) | split | (intro _) | (with_reducible refine foldl_pending (fun _ _ => ?_) ?_) | simp)
@[simp] theorem State.bootFailed_pending (a0 : State) : (State.bootFailed a0).1.pending = a0.pending := by
  unfold State.bootFailed
  repeat' (first | with_reducible rfl | (simp; done) | split | (intro _) | (with_reducible refine foldl_pending (fun _ _ => ?_) ?_) | simp)
@[simp] theorem State.bootRom_pending (a0 : State) (a1 : StewardMode) (a2 : Nat) : (State.bootRom a0 a1 a2).pending = a0.pending := by
  induction a2 generalizing a0 with
  | zero => rfl
  | succ n ih =>
    unfold State.bootRom
    split
    · rfl
    · dsimp only
      split <;> simp [ih]
@[simp] theorem State.resetEdge_pending (a0 : State) (a1 : Straps) (a2 : Bool) : (State.resetEdge a0 a1 a2).pending = a0.pending := by
  unfold State.resetEdge
  repeat' (first | with_reducible rfl | (simp; done) | split | (intro _) | (with_reducible refine foldl_pending (fun _ _ => ?_) ?_) | simp)
@[simp] theorem State.mismatchLogged_pending (a0 : State) : (State.mismatchLogged a0).pending = a0.pending := by
  unfold State.mismatchLogged
  repeat' (first | with_reducible rfl | (simp; done) | split | (intro _) | (with_reducible refine foldl_pending (fun _ _ => ?_) ?_) | simp)
@[simp] theorem State.applyResumed_pending (a0 : State) : (State.applyResumed a0).pending = a0.pending := by
  unfold State.applyResumed
  repeat' (first | with_reducible rfl | (simp; done) | split | (intro _) | (with_reducible refine foldl_pending (fun _ _ => ?_) ?_) | simp)
@[simp] theorem State.confirmResumed_pending (a0 : State) : (State.confirmResumed a0).pending = a0.pending := by
  unfold State.confirmResumed
  repeat' (first | with_reducible rfl | (simp; done) | split | (intro _) | (with_reducible refine foldl_pending (fun _ _ => ?_) ?_) | simp)
@[simp] theorem State.bootDone_pending (a0 : State) : (State.bootDone a0).pending = a0.pending := by
  unfold State.bootDone
  repeat' (first | with_reducible rfl | (simp; done) | split | (intro _) | (with_reducible refine foldl_pending (fun _ _ => ?_) ?_) | simp)
@[simp] theorem State.trainPcie_pending (a0 : State) : (State.trainPcie a0).pending = a0.pending := by
  unfold State.trainPcie
  repeat' (first | with_reducible rfl | (simp; done) | split | (intro _) | (with_reducible refine foldl_pending (fun _ _ => ?_) ?_) | simp)
@[simp] theorem State.portsDown_pending (a0 : State) (a1 : Nat) : (State.portsDown a0 a1).pending = a0.pending := by
  unfold State.portsDown
  repeat' (first | with_reducible rfl | (simp; done) | split | (intro _) | (with_reducible refine foldl_pending (fun _ _ => ?_) ?_) | simp)
@[simp] theorem State.stewardRestart_pending (a0 : State) : (State.stewardRestart a0).pending = a0.pending := by
  unfold State.stewardRestart
  repeat' (first | with_reducible rfl | (simp; done) | split | (intro _) | (with_reducible refine foldl_pending (fun _ _ => ?_) ?_) | simp)
@[simp] theorem State.replaceAgain_pending (a0 : State) : (State.replaceAgain a0).pending = a0.pending := by
  unfold State.replaceAgain
  repeat' (first | with_reducible rfl | (simp; done) | split | (intro _) | (with_reducible refine foldl_pending (fun _ _ => ?_) ?_) | simp)
@[simp] theorem State.abortAll_fused (a0 : State) (a1 : Nat) : (State.abortAll a0 a1).fused = a0.fused := by
  unfold State.abortAll
  repeat' (first | with_reducible rfl | (simp; done) | split | (intro _) | (with_reducible refine foldl_fused (fun _ _ => ?_) ?_) | simp)
@[simp] theorem State.fencesShown_fused (a0 : State) : (State.fencesShown a0).fused = a0.fused := by
  unfold State.fencesShown
  repeat' (first | with_reducible rfl | (simp; done) | split | (intro _) | (with_reducible refine foldl_fused (fun _ _ => ?_) ?_) | simp)
@[simp] theorem State.unitsLost_fused (a0 : State) : (State.unitsLost a0).fused = a0.fused := by
  unfold State.unitsLost
  repeat' (first | with_reducible rfl | (simp; done) | split | (intro _) | (with_reducible refine foldl_fused (fun _ _ => ?_) ?_) | simp)
@[simp] theorem State.reload_fused (a0 : State) (a1 : Bool) : (State.reload a0 a1).fused = a0.fused := by
  unfold State.reload
  repeat' (first | with_reducible rfl | (simp; done) | split | (intro _) | (with_reducible refine foldl_fused (fun _ _ => ?_) ?_) | simp)
@[simp] theorem State.linkOff_fused (a0 : State) : (State.linkOff a0).fused = a0.fused := by
  unfold State.linkOff
  repeat' (first | with_reducible rfl | (simp; done) | split | (intro _) | (with_reducible refine foldl_fused (fun _ _ => ?_) ?_) | simp)
@[simp] theorem State.mailboxReset_fused (a0 : State) : (State.mailboxReset a0).fused = a0.fused := by
  unfold State.mailboxReset
  repeat' (first | with_reducible rfl | (simp; done) | split | (intro _) | (with_reducible refine foldl_fused (fun _ _ => ?_) ?_) | simp)
@[simp] theorem State.loadsOff_fused (a0 : State) : (State.loadsOff a0).fused = a0.fused := by
  unfold State.loadsOff
  repeat' (first | with_reducible rfl | (simp; done) | split | (intro _) | (with_reducible refine foldl_fused (fun _ _ => ?_) ?_) | simp)
@[simp] theorem State.d6_fused (a0 : State) : (State.d6 a0).fused = a0.fused := by
  unfold State.d6
  have hw : ∀ (x : State) (a : Pins) (b : PowerState) (c : FwState) (d : BootState),
    ({ x with pins := a, power := b, fw := c, boot := d } : State).fused = x.fused := fun _ _ _ _ _ => rfl
  have hd : ∀ (x : State) (a : DictState), ({ x with dict := a } : State).fused = x.fused := fun _ _ => rfl
  refine (hw _ _ _ _ _).trans ?_
  simp only [State.runComps_fused, State.mailboxReset_fused, State.linkOff_fused, State.reload_fused]
  refine (foldl_fused (fun s i => State.endSession_fused s i) rfl).trans ?_
  rw [State.unitsLost_fused]
  split
  · exact hd _ _
  · rfl
@[simp] theorem State.stageAt_fused (a0 : State) (a1 : Nat) (a2 : Nat) (a3 : Nat) : (State.stageAt a0 a1 a2 a3).fused = a0.fused := by
  unfold State.stageAt
  repeat' (first | with_reducible rfl | (simp; done) | split | (intro _) | (with_reducible refine foldl_fused (fun _ _ => ?_) ?_) | simp)
@[simp] theorem State.stage1Due_fused (a0 : State) : (State.stage1Due a0).fused = a0.fused := by
  unfold State.stage1Due
  repeat' (first | with_reducible rfl | (simp; done) | split | (intro _) | (with_reducible refine foldl_fused (fun _ _ => ?_) ?_) | simp)
@[simp] theorem State.stageOver_fused (a0 : State) (a1 : Nat) : (State.stageOver a0 a1).fused = a0.fused := by
  unfold State.stageOver
  repeat' (first | with_reducible rfl | (simp; done) | split | (intro _) | (with_reducible refine foldl_fused (fun _ _ => ?_) ?_) | simp)
@[simp] theorem State.recoveryPort_fused (a0 : State) : (State.recoveryPort a0).fused = a0.fused := by
  unfold State.recoveryPort
  repeat' (first | with_reducible rfl | (simp; done) | split | (intro _) | (with_reducible refine foldl_fused (fun _ _ => ?_) ?_) | simp)
@[simp] theorem State.enterRecovery_fused (a0 : State) (a1 : Nat) : (State.enterRecovery a0 a1).fused = a0.fused := by
  unfold State.enterRecovery
  repeat' (first | with_reducible rfl | (simp; done) | split | (intro _) | (with_reducible refine foldl_fused (fun _ _ => ?_) ?_) | simp)
@[simp] theorem State.bootFailed_fused (a0 : State) : (State.bootFailed a0).1.fused = a0.fused := by
  unfold State.bootFailed
  repeat' (first | with_reducible rfl | (simp; done) | split | (intro _) | (with_reducible refine foldl_fused (fun _ _ => ?_) ?_) | simp)
@[simp] theorem State.bootRom_fused (a0 : State) (a1 : StewardMode) (a2 : Nat) : (State.bootRom a0 a1 a2).fused = a0.fused := by
  induction a2 generalizing a0 with
  | zero => rfl
  | succ n ih =>
    unfold State.bootRom
    split
    · rfl
    · dsimp only
      split <;> simp [ih]
@[simp] theorem State.resetEdge_fused (a0 : State) (a1 : Straps) (a2 : Bool) : (State.resetEdge a0 a1 a2).fused = a0.fused := by
  unfold State.resetEdge
  repeat' (first | with_reducible rfl | (simp; done) | split | (intro _) | (with_reducible refine foldl_fused (fun _ _ => ?_) ?_) | simp)
@[simp] theorem State.mismatchLogged_fused (a0 : State) : (State.mismatchLogged a0).fused = a0.fused := by
  unfold State.mismatchLogged
  repeat' (first | with_reducible rfl | (simp; done) | split | (intro _) | (with_reducible refine foldl_fused (fun _ _ => ?_) ?_) | simp)
@[simp] theorem State.applyResumed_fused (a0 : State) : (State.applyResumed a0).fused = a0.fused := by
  unfold State.applyResumed
  repeat' (first | with_reducible rfl | (simp; done) | split | (intro _) | (with_reducible refine foldl_fused (fun _ _ => ?_) ?_) | simp)
@[simp] theorem State.confirmResumed_fused (a0 : State) : (State.confirmResumed a0).fused = a0.fused := by
  unfold State.confirmResumed
  repeat' (first | with_reducible rfl | (simp; done) | split | (intro _) | (with_reducible refine foldl_fused (fun _ _ => ?_) ?_) | simp)
@[simp] theorem State.bootDone_fused (a0 : State) : (State.bootDone a0).fused = a0.fused := by
  unfold State.bootDone
  repeat' (first | with_reducible rfl | (simp; done) | split | (intro _) | (with_reducible refine foldl_fused (fun _ _ => ?_) ?_) | simp)
@[simp] theorem State.trainPcie_fused (a0 : State) : (State.trainPcie a0).fused = a0.fused := by
  unfold State.trainPcie
  repeat' (first | with_reducible rfl | (simp; done) | split | (intro _) | (with_reducible refine foldl_fused (fun _ _ => ?_) ?_) | simp)
@[simp] theorem State.portsDown_fused (a0 : State) (a1 : Nat) : (State.portsDown a0 a1).fused = a0.fused := by
  unfold State.portsDown
  repeat' (first | with_reducible rfl | (simp; done) | split | (intro _) | (with_reducible refine foldl_fused (fun _ _ => ?_) ?_) | simp)
@[simp] theorem State.stewardRestart_fused (a0 : State) : (State.stewardRestart a0).fused = a0.fused := by
  unfold State.stewardRestart
  repeat' (first | with_reducible rfl | (simp; done) | split | (intro _) | (with_reducible refine foldl_fused (fun _ _ => ?_) ?_) | simp)
@[simp] theorem State.replaceAgain_fused (a0 : State) : (State.replaceAgain a0).fused = a0.fused := by
  unfold State.replaceAgain
  repeat' (first | with_reducible rfl | (simp; done) | split | (intro _) | (with_reducible refine foldl_fused (fun _ _ => ?_) ?_) | simp)

/-! Repair -/

@[simp] theorem State.repairBank_pending (a0 : State) (a1 : Nat) : (State.repairBank a0 a1).state.pending = a0.pending := by
  unfold State.repairBank
  repeat' (first | with_reducible rfl | (simp; done) | split | (intro _) | (with_reducible refine foldl_pending (fun _ _ => ?_) ?_) | simp)
@[simp] theorem State.repair_pending (a0 : State) (a1 : Failure) : (State.repair a0 a1).state.pending = a0.pending := by
  unfold State.repair
  repeat' (first | with_reducible rfl | (simp; done) | split | (intro _) | (with_reducible refine foldl_pending (fun _ _ => ?_) ?_) | simp)
@[simp] theorem State.repairFailure_pending (a0 : State) (a1 : Nat) (a2 : Failure) : (State.repairFailure a0 a1 a2).state.pending = a0.pending := by
  unfold State.repairFailure
  repeat' (first | with_reducible rfl | (simp; done) | split | (intro _) | (with_reducible refine foldl_pending (fun _ _ => ?_) ?_) | simp)
@[simp] theorem State.repairAll_pending (a0 : State) (a1 : Nat) (a2 : List Failure) : (State.repairAll a0 a1 a2).state.pending = a0.pending := by
  unfold State.repairAll
  exact foldl_inv (P := fun x : RepairSum => x.state.pending = a0.pending) (fun x e hx => by simp [hx]) rfl
@[simp] theorem State.repairBank_fused (a0 : State) (a1 : Nat) : (State.repairBank a0 a1).state.fused = a0.fused := by
  unfold State.repairBank
  repeat' (first | with_reducible rfl | (simp; done) | split | (intro _) | (with_reducible refine foldl_fused (fun _ _ => ?_) ?_) | simp)
@[simp] theorem State.repair_fused (a0 : State) (a1 : Failure) : (State.repair a0 a1).state.fused = a0.fused := by
  unfold State.repair
  repeat' (first | with_reducible rfl | (simp; done) | split | (intro _) | (with_reducible refine foldl_fused (fun _ _ => ?_) ?_) | simp)
@[simp] theorem State.repairFailure_fused (a0 : State) (a1 : Nat) (a2 : Failure) : (State.repairFailure a0 a1 a2).state.fused = a0.fused := by
  unfold State.repairFailure
  repeat' (first | with_reducible rfl | (simp; done) | split | (intro _) | (with_reducible refine foldl_fused (fun _ _ => ?_) ?_) | simp)
@[simp] theorem State.repairAll_fused (a0 : State) (a1 : Nat) (a2 : List Failure) : (State.repairAll a0 a1 a2).state.fused = a0.fused := by
  unfold State.repairAll
  exact foldl_inv (P := fun x : RepairSum => x.state.fused = a0.fused) (fun x e hx => by simp [hx]) rfl

/-! Testing -/

@[simp] theorem State.setSlot_pending (a0 : State) (a1 : Nat) (a2 : RotSlot) : (State.setSlot a0 a1 a2).pending = a0.pending := by
  unfold State.setSlot
  repeat' (first | with_reducible rfl | (simp; done) | split | (intro _) | (with_reducible refine foldl_pending (fun _ _ => ?_) ?_) | simp)
@[simp] theorem State.countRotation_pending (a0 : State) (a1 : Nat) : (State.countRotation a0 a1).pending = a0.pending := by
  unfold State.countRotation
  repeat' (first | with_reducible rfl | (simp; done) | split | (intro _) | (with_reducible refine foldl_pending (fun _ _ => ?_) ?_) | simp)
@[simp] theorem State.isolateFallow_pending (a0 : State) (a1 : Nat) (a2 : Nat) : (State.isolateFallow a0 a1 a2).pending = a0.pending := by
  unfold State.isolateFallow
  repeat' (first | with_reducible rfl | (simp; done) | split | (intro _) | (with_reducible refine foldl_pending (fun _ _ => ?_) ?_) | simp)
@[simp] theorem State.rotationTry_pending (a0 : State) (a1 : List Nat) (a2 : Nat) (a3 : Nat) : (State.rotationTry a0 a1 a2 a3).1.pending = a0.pending := by
  unfold State.rotationTry
  repeat' (first | with_reducible rfl | (simp; done) | split | (intro _) | (with_reducible refine foldl_pending (fun _ _ => ?_) ?_) | simp)
@[simp] theorem State.rotationTake_pending (a0 : State) : (State.rotationTake a0).pending = a0.pending := by
  unfold State.rotationTake
  refine foldl_inv (P := fun x : State × List Nat × Nat => x.1.pending = a0.pending) (fun x e hx => ?_) rfl
  split
  · exact hx
  · dsimp only
    split <;> simp [hx]
@[simp] theorem State.routerStep_pending (a0 : State) (a1 : Nat) (a2 : List (Nat × Nat)) (a3 : Bool) : (State.routerStep a0 a1 a2 a3).pending = a0.pending := by
  unfold State.routerStep
  repeat' (first | with_reducible rfl | (simp; done) | split | (intro _) | (with_reducible refine foldl_pending (fun _ _ => ?_) ?_) | simp)
@[simp] theorem State.fleetFailed_pending (a0 : State) (a1 : List Failure) : (State.fleetFailed a0 a1).pending = a0.pending := by
  unfold State.fleetFailed
  repeat' (first | with_reducible rfl | (simp; done) | split | (intro _) | (with_reducible refine foldl_pending (fun _ _ => ?_) ?_) | simp)
@[simp] theorem State.endVisit_pending (a0 : State) (a1 : Nat) (a2 : RotSlot) (a3 : List Failure) : (State.endVisit a0 a1 a2 a3).pending = a0.pending := by
  unfold State.endVisit
  repeat' (first | with_reducible rfl | (simp; done) | split | (intro _) | (with_reducible refine foldl_pending (fun _ _ => ?_) ?_) | simp)
@[simp] theorem State.countShadow_pending (a0 : State) (a1 : Nat) : (State.countShadow a0 a1).pending = a0.pending := by
  unfold State.countShadow
  repeat' (first | with_reducible rfl | (simp; done) | split | (intro _) | (with_reducible refine foldl_pending (fun _ _ => ?_) ?_) | simp)
@[simp] theorem State.shadowReport_pending (a0 : State) (a1 : Shadow) (a2 : Nat) : (State.shadowReport a0 a1 a2).pending = a0.pending := by
  unfold State.shadowReport
  repeat' (first | with_reducible rfl | (simp; done) | split | (intro _) | (with_reducible refine foldl_pending (fun _ _ => ?_) ?_) | simp)
@[simp] theorem State.takeFirst_pending (a0 : State) (a1 : Nat) : (State.takeFirst a0 a1).pending = a0.pending := by
  unfold State.takeFirst
  repeat' (first | with_reducible rfl | (simp; done) | split | (intro _) | (with_reducible refine foldl_pending (fun _ _ => ?_) ?_) | simp)
@[simp] theorem State.testNow_pending (a0 : State) (a1 : Nat) : (State.testNow a0 a1).pending = a0.pending := by
  unfold State.testNow
  repeat' (first | with_reducible rfl | (simp; done) | split | (intro _) | (with_reducible refine foldl_pending (fun _ _ => ?_) ?_) | simp)
@[simp] theorem State.sourceSuspect_pending (a0 : State) (a1 : Shadow) (a2 : Nat) : (State.sourceSuspect a0 a1 a2).pending = a0.pending := by
  unfold State.sourceSuspect
  repeat' (first | with_reducible rfl | (simp; done) | split | (intro _) | (with_reducible refine foldl_pending (fun _ _ => ?_) ?_) | simp)
@[simp] theorem State.shadowSuspect_pending (a0 : State) (a1 : Shadow) (a2 : Nat) : (State.shadowSuspect a0 a1 a2).pending = a0.pending := by
  unfold State.shadowSuspect
  repeat' (first | with_reducible rfl | (simp; done) | split | (intro _) | (with_reducible refine foldl_pending (fun _ _ => ?_) ?_) | simp)
@[simp] theorem State.setSlot_fused (a0 : State) (a1 : Nat) (a2 : RotSlot) : (State.setSlot a0 a1 a2).fused = a0.fused := by
  unfold State.setSlot
  repeat' (first | with_reducible rfl | (simp; done) | split | (intro _) | (with_reducible refine foldl_fused (fun _ _ => ?_) ?_) | simp)
@[simp] theorem State.countRotation_fused (a0 : State) (a1 : Nat) : (State.countRotation a0 a1).fused = a0.fused := by
  unfold State.countRotation
  repeat' (first | with_reducible rfl | (simp; done) | split | (intro _) | (with_reducible refine foldl_fused (fun _ _ => ?_) ?_) | simp)
@[simp] theorem State.isolateFallow_fused (a0 : State) (a1 : Nat) (a2 : Nat) : (State.isolateFallow a0 a1 a2).fused = a0.fused := by
  unfold State.isolateFallow
  repeat' (first | with_reducible rfl | (simp; done) | split | (intro _) | (with_reducible refine foldl_fused (fun _ _ => ?_) ?_) | simp)
@[simp] theorem State.rotationTry_fused (a0 : State) (a1 : List Nat) (a2 : Nat) (a3 : Nat) : (State.rotationTry a0 a1 a2 a3).1.fused = a0.fused := by
  unfold State.rotationTry
  repeat' (first | with_reducible rfl | (simp; done) | split | (intro _) | (with_reducible refine foldl_fused (fun _ _ => ?_) ?_) | simp)
@[simp] theorem State.rotationTake_fused (a0 : State) : (State.rotationTake a0).fused = a0.fused := by
  unfold State.rotationTake
  refine foldl_inv (P := fun x : State × List Nat × Nat => x.1.fused = a0.fused) (fun x e hx => ?_) rfl
  split
  · exact hx
  · dsimp only
    split <;> simp [hx]
@[simp] theorem State.routerStep_fused (a0 : State) (a1 : Nat) (a2 : List (Nat × Nat)) (a3 : Bool) : (State.routerStep a0 a1 a2 a3).fused = a0.fused := by
  unfold State.routerStep
  repeat' (first | with_reducible rfl | (simp; done) | split | (intro _) | (with_reducible refine foldl_fused (fun _ _ => ?_) ?_) | simp)
@[simp] theorem State.fleetFailed_fused (a0 : State) (a1 : List Failure) : (State.fleetFailed a0 a1).fused = a0.fused := by
  unfold State.fleetFailed
  repeat' (first | with_reducible rfl | (simp; done) | split | (intro _) | (with_reducible refine foldl_fused (fun _ _ => ?_) ?_) | simp)
@[simp] theorem State.endVisit_fused (a0 : State) (a1 : Nat) (a2 : RotSlot) (a3 : List Failure) : (State.endVisit a0 a1 a2 a3).fused = a0.fused := by
  unfold State.endVisit
  repeat' (first | with_reducible rfl | (simp; done) | split | (intro _) | (with_reducible refine foldl_fused (fun _ _ => ?_) ?_) | simp)
@[simp] theorem State.countShadow_fused (a0 : State) (a1 : Nat) : (State.countShadow a0 a1).fused = a0.fused := by
  unfold State.countShadow
  repeat' (first | with_reducible rfl | (simp; done) | split | (intro _) | (with_reducible refine foldl_fused (fun _ _ => ?_) ?_) | simp)
@[simp] theorem State.shadowReport_fused (a0 : State) (a1 : Shadow) (a2 : Nat) : (State.shadowReport a0 a1 a2).fused = a0.fused := by
  unfold State.shadowReport
  repeat' (first | with_reducible rfl | (simp; done) | split | (intro _) | (with_reducible refine foldl_fused (fun _ _ => ?_) ?_) | simp)
@[simp] theorem State.takeFirst_fused (a0 : State) (a1 : Nat) : (State.takeFirst a0 a1).fused = a0.fused := by
  unfold State.takeFirst
  repeat' (first | with_reducible rfl | (simp; done) | split | (intro _) | (with_reducible refine foldl_fused (fun _ _ => ?_) ?_) | simp)
@[simp] theorem State.testNow_fused (a0 : State) (a1 : Nat) : (State.testNow a0 a1).fused = a0.fused := by
  unfold State.testNow
  repeat' (first | with_reducible rfl | (simp; done) | split | (intro _) | (with_reducible refine foldl_fused (fun _ _ => ?_) ?_) | simp)
@[simp] theorem State.sourceSuspect_fused (a0 : State) (a1 : Shadow) (a2 : Nat) : (State.sourceSuspect a0 a1 a2).fused = a0.fused := by
  unfold State.sourceSuspect
  repeat' (first | with_reducible rfl | (simp; done) | split | (intro _) | (with_reducible refine foldl_fused (fun _ _ => ?_) ?_) | simp)
@[simp] theorem State.shadowSuspect_fused (a0 : State) (a1 : Shadow) (a2 : Nat) : (State.shadowSuspect a0 a1 a2).fused = a0.fused := by
  unfold State.shadowSuspect
  repeat' (first | with_reducible rfl | (simp; done) | split | (intro _) | (with_reducible refine foldl_fused (fun _ _ => ?_) ?_) | simp)

/-! BringUp -/

@[simp] theorem State.command3_pending (a0 : State) : (State.command3 a0).pending = a0.pending := by
  unfold State.command3
  repeat' (first | with_reducible rfl | (simp; done) | split | (intro _) | (with_reducible refine foldl_pending (fun _ _ => ?_) ?_) | simp)
@[simp] theorem State.stage3Done_pending (a0 : State) : (State.stage3Done a0).pending = a0.pending := by
  unfold State.stage3Done
  repeat' (first | with_reducible rfl | (simp; done) | split | (intro _) | (with_reducible refine foldl_pending (fun _ _ => ?_) ?_) | simp)
@[simp] theorem State.putFences_pending (a0 : State) (a1 : List (Nat × Nat)) : (State.putFences a0 a1).pending = a0.pending := by
  unfold State.putFences
  repeat' (first | with_reducible rfl | (simp; done) | split | (intro _) | (with_reducible refine foldl_pending (fun _ _ => ?_) ?_) | simp)
@[simp] theorem State.command4_pending (a0 : State) (a1 : List Failure) : (State.command4 a0 a1).pending = a0.pending := by
  unfold State.command4
  repeat' (first | with_reducible rfl | (simp; done) | split | (intro _) | (with_reducible refine foldl_pending (fun _ _ => ?_) ?_) | simp)
@[simp] theorem State.stage4Done_pending (a0 : State) : (State.stage4Done a0).pending = a0.pending := by
  unfold State.stage4Done
  repeat' (first | with_reducible rfl | (simp; done) | split | (intro _) | (with_reducible refine foldl_pending (fun _ _ => ?_) ?_) | simp)
@[simp] theorem State.command5_pending (a0 : State) : (State.command5 a0).pending = a0.pending := by
  unfold State.command5
  repeat' (first | with_reducible rfl | (simp; done) | split | (intro _) | (with_reducible refine foldl_pending (fun _ _ => ?_) ?_) | simp)
@[simp] theorem State.command6_pending (a0 : State) : (State.command6 a0).pending = a0.pending := by
  unfold State.command6
  repeat' (first | with_reducible rfl | (simp; done) | split | (intro _) | (with_reducible refine foldl_pending (fun _ _ => ?_) ?_) | simp)
@[simp] theorem State.command7_pending (a0 : State) : (State.command7 a0).pending = a0.pending := by
  unfold State.command7
  repeat' (first | with_reducible rfl | (simp; done) | split | (intro _) | (with_reducible refine foldl_pending (fun _ _ => ?_) ?_) | simp)
@[simp] theorem State.bringupCommand_pending (a0 : State) (a1 : Nat) (a2 : List Failure) : (State.bringupCommand a0 a1 a2).1.pending = a0.pending := by
  unfold State.bringupCommand
  repeat' (first | with_reducible rfl | (simp; done) | split | (intro _) | (with_reducible refine foldl_pending (fun _ _ => ?_) ?_) | simp)
@[simp] theorem State.mapAdopt_pending (a0 : State) (a1 : Source) (a2 : Nat) : (State.mapAdopt a0 a1 a2).1.pending = a0.pending := by
  unfold State.mapAdopt
  repeat' (first | with_reducible rfl | (simp; done) | split | (intro _) | (with_reducible refine foldl_pending (fun _ _ => ?_) ?_) | simp)
@[simp] theorem State.fuseBurn_pending (a0 : State) (a1 : Nat) : (State.fuseBurn a0 a1).1.pending = a0.pending := by
  unfold State.fuseBurn
  repeat' (first | with_reducible rfl | (simp; done) | split | (intro _) | (with_reducible refine foldl_pending (fun _ _ => ?_) ?_) | simp)
@[simp] theorem State.commissionWrite_pending (a0 : State) (a1 : Nat) : (State.commissionWrite a0 a1).1.pending = a0.pending := by
  unfold State.commissionWrite
  repeat' (first | with_reducible rfl | (simp; done) | split | (intro _) | (with_reducible refine foldl_pending (fun _ _ => ?_) ?_) | simp)
@[simp] theorem State.command3_fused (a0 : State) : (State.command3 a0).fused = a0.fused := by
  unfold State.command3
  repeat' (first | with_reducible rfl | (simp; done) | split | (intro _) | (with_reducible refine foldl_fused (fun _ _ => ?_) ?_) | simp)
@[simp] theorem State.stage3Done_fused (a0 : State) : (State.stage3Done a0).fused = a0.fused := by
  unfold State.stage3Done
  repeat' (first | with_reducible rfl | (simp; done) | split | (intro _) | (with_reducible refine foldl_fused (fun _ _ => ?_) ?_) | simp)
@[simp] theorem State.putFences_fused (a0 : State) (a1 : List (Nat × Nat)) : (State.putFences a0 a1).fused = a0.fused := by
  unfold State.putFences
  repeat' (first | with_reducible rfl | (simp; done) | split | (intro _) | (with_reducible refine foldl_fused (fun _ _ => ?_) ?_) | simp)
@[simp] theorem State.command4_fused (a0 : State) (a1 : List Failure) : (State.command4 a0 a1).fused = a0.fused := by
  unfold State.command4
  repeat' (first | with_reducible rfl | (simp; done) | split | (intro _) | (with_reducible refine foldl_fused (fun _ _ => ?_) ?_) | simp)
@[simp] theorem State.stage4Done_fused (a0 : State) : (State.stage4Done a0).fused = a0.fused := by
  unfold State.stage4Done
  repeat' (first | with_reducible rfl | (simp; done) | split | (intro _) | (with_reducible refine foldl_fused (fun _ _ => ?_) ?_) | simp)
@[simp] theorem State.command5_fused (a0 : State) : (State.command5 a0).fused = a0.fused := by
  unfold State.command5
  repeat' (first | with_reducible rfl | (simp; done) | split | (intro _) | (with_reducible refine foldl_fused (fun _ _ => ?_) ?_) | simp)
@[simp] theorem State.command6_fused (a0 : State) : (State.command6 a0).fused = a0.fused := by
  unfold State.command6
  repeat' (first | with_reducible rfl | (simp; done) | split | (intro _) | (with_reducible refine foldl_fused (fun _ _ => ?_) ?_) | simp)
@[simp] theorem State.command7_fused (a0 : State) : (State.command7 a0).fused = a0.fused := by
  unfold State.command7
  repeat' (first | with_reducible rfl | (simp; done) | split | (intro _) | (with_reducible refine foldl_fused (fun _ _ => ?_) ?_) | simp)
@[simp] theorem State.bringupCommand_fused (a0 : State) (a1 : Nat) (a2 : List Failure) : (State.bringupCommand a0 a1 a2).1.fused = a0.fused := by
  unfold State.bringupCommand
  repeat' (first | with_reducible rfl | (simp; done) | split | (intro _) | (with_reducible refine foldl_fused (fun _ _ => ?_) ?_) | simp)
@[simp] theorem State.mapAdopt_fused (a0 : State) (a1 : Source) (a2 : Nat) : (State.mapAdopt a0 a1 a2).1.fused = a0.fused := by
  unfold State.mapAdopt
  repeat' (first | with_reducible rfl | (simp; done) | split | (intro _) | (with_reducible refine foldl_fused (fun _ _ => ?_) ?_) | simp)
@[simp] theorem State.commissionWrite_fused (a0 : State) (a1 : Nat) : (State.commissionWrite a0 a1).1.fused = a0.fused := by
  unfold State.commissionWrite
  repeat' (first | with_reducible rfl | (simp; done) | split | (intro _) | (with_reducible refine foldl_fused (fun _ _ => ?_) ?_) | simp)

end Sys2Proof.Machine
end

