-- ==== Sys2Proof/Laws/KeptSteward.lean ====
section
/-! SUPPORT. What the operations of Firmware, Links, Power, ResetCmds, Actions, Inbound, DictRows, Outbound, Steps, Tap, Tick leave unchanged: the queue of waiting
commands and, but for the three that burn them, the fuses. -/

namespace Sys2Proof.Machine

/-! Firmware -/

@[simp] theorem State.setSlotFw_pending (a0 : State) (a1 : Nat) (a2 : FwSlot) : (State.setSlotFw a0 a1 a2).pending = a0.pending := by
  unfold State.setSlotFw
  repeat' (first | with_reducible rfl | (simp; done) | split | (intro _) | (with_reducible refine foldl_pending (fun _ _ => ?_) ?_) | simp)
@[simp] theorem State.updSet_pending (a0 : State) (a1 : Nat) (a2 : Nat) (a3 : Nat) (a4 : Nat) : (State.updSet a0 a1 a2 a3 a4).pending = a0.pending := by
  unfold State.updSet
  repeat' (first | with_reducible rfl | (simp; done) | split | (intro _) | (with_reducible refine foldl_pending (fun _ _ => ?_) ?_) | simp)
@[simp] theorem State.updVerify_pending (a0 : State) : (State.updVerify a0).pending = a0.pending := by
  unfold State.updVerify
  repeat' (first | with_reducible rfl | (simp; done) | split | (intro _) | (with_reducible refine foldl_pending (fun _ _ => ?_) ?_) | simp)
@[simp] theorem State.activated_pending (a0 : State) : (State.activated a0).pending = a0.pending := by
  unfold State.activated
  repeat' (first | with_reducible rfl | (simp; done) | split | (intro _) | (with_reducible refine foldl_pending (fun _ _ => ?_) ?_) | simp)
@[simp] theorem State.updConfirm_pending (a0 : State) : (State.updConfirm a0).pending = a0.pending := by
  unfold State.updConfirm
  repeat' (first | with_reducible rfl | (simp; done) | split | (intro _) | (with_reducible refine foldl_pending (fun _ _ => ?_) ?_) | simp)
@[simp] theorem State.updCommand_pending (a0 : State) (a1 : Nat) : (State.updCommand a0 a1).1.pending = a0.pending := by
  unfold State.updCommand
  repeat' (first | with_reducible rfl | (simp; done) | split | (intro _) | (with_reducible refine foldl_pending (fun _ _ => ?_) ?_) | simp)
@[simp] theorem State.updChunk_pending (a0 : State) (a1 : Nat) (a2 : Nat) : (State.updChunk a0 a1 a2).1.pending = a0.pending := by
  unfold State.updChunk
  have hw : ∀ x : FwState, ({ a0 with fw := x } : State).pending = a0.pending := fun _ => rfl
  split
  · rfl
  · exact hw _
@[simp] theorem State.recInstall_pending (a0 : State) : (State.recInstall a0).pending = a0.pending := by
  unfold State.recInstall
  repeat' (first | with_reducible rfl | (simp; done) | split | (intro _) | (with_reducible refine foldl_pending (fun _ _ => ?_) ?_) | simp)
@[simp] theorem State.recLeave_pending (a0 : State) : (State.recLeave a0).pending = a0.pending := by
  unfold State.recLeave
  repeat' (first | with_reducible rfl | (simp; done) | split | (intro _) | (with_reducible refine foldl_pending (fun _ _ => ?_) ?_) | simp)
@[simp] theorem State.recCommand_pending (a0 : State) (a1 : Nat) : (State.recCommand a0 a1).1.pending = a0.pending := by
  unfold State.recCommand
  repeat' (first | with_reducible rfl | (simp; done) | split | (intro _) | (with_reducible refine foldl_pending (fun _ _ => ?_) ?_) | simp)
@[simp] theorem State.setSlotFw_fused (a0 : State) (a1 : Nat) (a2 : FwSlot) : (State.setSlotFw a0 a1 a2).fused = a0.fused := by
  unfold State.setSlotFw
  repeat' (first | with_reducible rfl | (simp; done) | split | (intro _) | (with_reducible refine foldl_fused (fun _ _ => ?_) ?_) | simp)
@[simp] theorem State.updSet_fused (a0 : State) (a1 : Nat) (a2 : Nat) (a3 : Nat) (a4 : Nat) : (State.updSet a0 a1 a2 a3 a4).fused = a0.fused := by
  unfold State.updSet
  repeat' (first | with_reducible rfl | (simp; done) | split | (intro _) | (with_reducible refine foldl_fused (fun _ _ => ?_) ?_) | simp)
@[simp] theorem State.updVerify_fused (a0 : State) : (State.updVerify a0).fused = a0.fused := by
  unfold State.updVerify
  repeat' (first | with_reducible rfl | (simp; done) | split | (intro _) | (with_reducible refine foldl_fused (fun _ _ => ?_) ?_) | simp)
@[simp] theorem State.activated_fused (a0 : State) : (State.activated a0).fused = a0.fused := by
  unfold State.activated
  repeat' (first | with_reducible rfl | (simp; done) | split | (intro _) | (with_reducible refine foldl_fused (fun _ _ => ?_) ?_) | simp)
@[simp] theorem State.updChunk_fused (a0 : State) (a1 : Nat) (a2 : Nat) : (State.updChunk a0 a1 a2).1.fused = a0.fused := by
  unfold State.updChunk
  have hw : ∀ x : FwState, ({ a0 with fw := x } : State).fused = a0.fused := fun _ => rfl
  split
  · rfl
  · exact hw _
@[simp] theorem State.recLeave_fused (a0 : State) : (State.recLeave a0).fused = a0.fused := by
  unfold State.recLeave
  repeat' (first | with_reducible rfl | (simp; done) | split | (intro _) | (with_reducible refine foldl_fused (fun _ _ => ?_) ?_) | simp)

/-! Links -/

@[simp] theorem State.fenceLink_pending (a0 : State) (a1 : Nat) (a2 : Nat) : (State.fenceLink a0 a1 a2).pending = a0.pending := by
  unfold State.fenceLink
  repeat' (first | with_reducible rfl | (simp; done) | split | (intro _) | (with_reducible refine foldl_pending (fun _ _ => ?_) ?_) | simp)
@[simp] theorem State.fenceRoles_pending (a0 : State) : (State.fenceRoles a0).pending = a0.pending := by
  unfold State.fenceRoles
  refine foldl_pending (fun s i => ?_) rfl
  split
  · rfl
  · split
    · simp
    · (try dsimp only); split <;> simp
@[simp] theorem State.fencePorts_pending (a0 : State) (a1 : Nat) : (State.fencePorts a0 a1).pending = a0.pending := by
  unfold State.fencePorts
  repeat' (first | with_reducible rfl | (simp; done) | split | (intro _) | (with_reducible refine foldl_pending (fun _ _ => ?_) ?_) | simp)
@[simp] theorem State.fenceLink_fused (a0 : State) (a1 : Nat) (a2 : Nat) : (State.fenceLink a0 a1 a2).fused = a0.fused := by
  unfold State.fenceLink
  repeat' (first | with_reducible rfl | (simp; done) | split | (intro _) | (with_reducible refine foldl_fused (fun _ _ => ?_) ?_) | simp)
@[simp] theorem State.fenceRoles_fused (a0 : State) : (State.fenceRoles a0).fused = a0.fused := by
  unfold State.fenceRoles
  refine foldl_fused (fun s i => ?_) rfl
  split
  · rfl
  · split
    · simp
    · (try dsimp only); split <;> simp
@[simp] theorem State.fencePorts_fused (a0 : State) (a1 : Nat) : (State.fencePorts a0 a1).fused = a0.fused := by
  unfold State.fencePorts
  repeat' (first | with_reducible rfl | (simp; done) | split | (intro _) | (with_reducible refine foldl_fused (fun _ _ => ?_) ?_) | simp)

/-! Power -/

@[simp] theorem State.powerBegin_pending (a0 : State) (a1 : Nat) (a2 : Nat) : (State.powerBegin a0 a1 a2).pending = a0.pending := by
  unfold State.powerBegin
  repeat' (first | with_reducible rfl | (simp; done) | split | (intro _) | (with_reducible refine foldl_pending (fun _ _ => ?_) ?_) | simp)
@[simp] theorem State.powerWakeTile_pending (a0 : State) (a1 : Nat) : (State.powerWakeTile a0 a1).pending = a0.pending := by
  unfold State.powerWakeTile
  repeat' (first | with_reducible rfl | (simp; done) | split | (intro _) | (with_reducible refine foldl_pending (fun _ _ => ?_) ?_) | simp)
@[simp] theorem State.powerWake_pending (a0 : State) (a1 : Nat) : (State.powerWake a0 a1).pending = a0.pending := by
  unfold State.powerWake
  repeat' (first | with_reducible rfl | (simp; done) | split | (intro _) | (with_reducible refine foldl_pending (fun _ _ => ?_) ?_) | simp)
@[simp] theorem State.meadowPower_pending (a0 : State) (a1 : Nat) : (State.meadowPower a0 a1).1.pending = a0.pending := by
  unfold State.meadowPower
  repeat' (first | with_reducible rfl | (simp; done) | split | (intro _) | (with_reducible refine foldl_pending (fun _ _ => ?_) ?_) | simp)
@[simp] theorem State.moduleBegin_pending (a0 : State) (a1 : Nat) (a2 : Nat) : (State.moduleBegin a0 a1 a2).pending = a0.pending := by
  unfold State.moduleBegin
  repeat' (first | with_reducible rfl | (simp; done) | split | (intro _) | (with_reducible refine foldl_pending (fun _ _ => ?_) ?_) | simp)
@[simp] theorem State.toM0_pending (a0 : State) : (State.toM0 a0).pending = a0.pending := by
  unfold State.toM0
  repeat' (first | with_reducible rfl | (simp; done) | split | (intro _) | (with_reducible refine foldl_pending (fun _ _ => ?_) ?_) | simp)
@[simp] theorem State.moduleRequest_pending (a0 : State) (a1 : Nat) : (State.moduleRequest a0 a1).1.pending = a0.pending := by
  unfold State.moduleRequest
  repeat' (first | with_reducible rfl | (simp; done) | split | (intro _) | (with_reducible refine foldl_pending (fun _ _ => ?_) ?_) | simp)
@[simp] theorem State.grant_pending (a0 : State) (a1 : Nat) (a2 : Nat) : (State.grant a0 a1 a2).pending = a0.pending := by
  unfold State.grant
  repeat' (first | with_reducible rfl | (simp; done) | split | (intro _) | (with_reducible refine foldl_pending (fun _ _ => ?_) ?_) | simp)
@[simp] theorem State.grantAll_pending (a0 : State) (a1 : Nat) : (State.grantAll a0 a1).pending = a0.pending := by
  unfold State.grantAll
  repeat' (first | with_reducible rfl | (simp; done) | split | (intro _) | (with_reducible refine foldl_pending (fun _ _ => ?_) ?_) | simp)
@[simp] theorem State.sensorLost_pending (a0 : State) (a1 : SensorReading) : (State.sensorLost a0 a1).pending = a0.pending := by
  unfold State.sensorLost
  repeat' (first | with_reducible rfl | (simp; done) | split | (intro _) | (with_reducible refine foldl_pending (fun _ _ => ?_) ?_) | simp)
@[simp] theorem State.throttleDie_pending (a0 : State) (a1 : List SensorReading) (a2 : Nat) : (State.throttleDie a0 a1 a2).pending = a0.pending := by
  unfold State.throttleDie
  split
  · rfl
  · dsimp only
    split
    · split <;> split <;> simp
    · (try dsimp only); split <;> simp
@[simp] theorem State.stepDown_pending (a0 : State) (a1 : Nat) : (State.stepDown a0 a1).pending = a0.pending := by
  unfold State.stepDown
  repeat' (first | with_reducible rfl | (simp; done) | split | (intro _) | (with_reducible refine foldl_pending (fun _ _ => ?_) ?_) | simp)
@[simp] theorem State.throttleShown_pending (a0 : State) (a1 : Nat) : (State.throttleShown a0 a1).pending = a0.pending := by
  unfold State.throttleShown
  repeat' (first | with_reducible rfl | (simp; done) | split | (intro _) | (with_reducible refine foldl_pending (fun _ _ => ?_) ?_) | simp)
@[simp] theorem State.thermalShutdown_pending (a0 : State) (a1 : SensorReading) : (State.thermalShutdown a0 a1).pending = a0.pending := by
  unfold State.thermalShutdown
  repeat' (first | with_reducible rfl | (simp; done) | split | (intro _) | (with_reducible refine foldl_pending (fun _ _ => ?_) ?_) | simp)
@[simp] theorem State.powerBegin_fused (a0 : State) (a1 : Nat) (a2 : Nat) : (State.powerBegin a0 a1 a2).fused = a0.fused := by
  unfold State.powerBegin
  repeat' (first | with_reducible rfl | (simp; done) | split | (intro _) | (with_reducible refine foldl_fused (fun _ _ => ?_) ?_) | simp)
@[simp] theorem State.powerWakeTile_fused (a0 : State) (a1 : Nat) : (State.powerWakeTile a0 a1).fused = a0.fused := by
  unfold State.powerWakeTile
  repeat' (first | with_reducible rfl | (simp; done) | split | (intro _) | (with_reducible refine foldl_fused (fun _ _ => ?_) ?_) | simp)
@[simp] theorem State.powerWake_fused (a0 : State) (a1 : Nat) : (State.powerWake a0 a1).fused = a0.fused := by
  unfold State.powerWake
  repeat' (first | with_reducible rfl | (simp; done) | split | (intro _) | (with_reducible refine foldl_fused (fun _ _ => ?_) ?_) | simp)
@[simp] theorem State.meadowPower_fused (a0 : State) (a1 : Nat) : (State.meadowPower a0 a1).1.fused = a0.fused := by
  unfold State.meadowPower
  repeat' (first | with_reducible rfl | (simp; done) | split | (intro _) | (with_reducible refine foldl_fused (fun _ _ => ?_) ?_) | simp)
@[simp] theorem State.moduleBegin_fused (a0 : State) (a1 : Nat) (a2 : Nat) : (State.moduleBegin a0 a1 a2).fused = a0.fused := by
  unfold State.moduleBegin
  repeat' (first | with_reducible rfl | (simp; done) | split | (intro _) | (with_reducible refine foldl_fused (fun _ _ => ?_) ?_) | simp)
@[simp] theorem State.toM0_fused (a0 : State) : (State.toM0 a0).fused = a0.fused := by
  unfold State.toM0
  repeat' (first | with_reducible rfl | (simp; done) | split | (intro _) | (with_reducible refine foldl_fused (fun _ _ => ?_) ?_) | simp)
@[simp] theorem State.moduleRequest_fused (a0 : State) (a1 : Nat) : (State.moduleRequest a0 a1).1.fused = a0.fused := by
  unfold State.moduleRequest
  repeat' (first | with_reducible rfl | (simp; done) | split | (intro _) | (with_reducible refine foldl_fused (fun _ _ => ?_) ?_) | simp)
@[simp] theorem State.grant_fused (a0 : State) (a1 : Nat) (a2 : Nat) : (State.grant a0 a1 a2).fused = a0.fused := by
  unfold State.grant
  repeat' (first | with_reducible rfl | (simp; done) | split | (intro _) | (with_reducible refine foldl_fused (fun _ _ => ?_) ?_) | simp)
@[simp] theorem State.grantAll_fused (a0 : State) (a1 : Nat) : (State.grantAll a0 a1).fused = a0.fused := by
  unfold State.grantAll
  repeat' (first | with_reducible rfl | (simp; done) | split | (intro _) | (with_reducible refine foldl_fused (fun _ _ => ?_) ?_) | simp)
@[simp] theorem State.sensorLost_fused (a0 : State) (a1 : SensorReading) : (State.sensorLost a0 a1).fused = a0.fused := by
  unfold State.sensorLost
  repeat' (first | with_reducible rfl | (simp; done) | split | (intro _) | (with_reducible refine foldl_fused (fun _ _ => ?_) ?_) | simp)
@[simp] theorem State.throttleDie_fused (a0 : State) (a1 : List SensorReading) (a2 : Nat) : (State.throttleDie a0 a1 a2).fused = a0.fused := by
  unfold State.throttleDie
  split
  · rfl
  · dsimp only
    split
    · split <;> split <;> simp
    · (try dsimp only); split <;> simp
@[simp] theorem State.stepDown_fused (a0 : State) (a1 : Nat) : (State.stepDown a0 a1).fused = a0.fused := by
  unfold State.stepDown
  repeat' (first | with_reducible rfl | (simp; done) | split | (intro _) | (with_reducible refine foldl_fused (fun _ _ => ?_) ?_) | simp)
@[simp] theorem State.throttleShown_fused (a0 : State) (a1 : Nat) : (State.throttleShown a0 a1).fused = a0.fused := by
  unfold State.throttleShown
  repeat' (first | with_reducible rfl | (simp; done) | split | (intro _) | (with_reducible refine foldl_fused (fun _ _ => ?_) ?_) | simp)
@[simp] theorem State.thermalShutdown_fused (a0 : State) (a1 : SensorReading) : (State.thermalShutdown a0 a1).fused = a0.fused := by
  unfold State.thermalShutdown
  repeat' (first | with_reducible rfl | (simp; done) | split | (intro _) | (with_reducible refine foldl_fused (fun _ _ => ?_) ?_) | simp)

/-! ResetCmds -/

@[simp] theorem State.resetStatus_pending (a0 : State) (a1 : Nat) (a2 : Nat) (a3 : Nat) : (State.resetStatus a0 a1 a2 a3).pending = a0.pending := by
  unfold State.resetStatus
  repeat' (first | with_reducible rfl | (simp; done) | split | (intro _) | (with_reducible refine foldl_pending (fun _ _ => ?_) ?_) | simp)
@[simp] theorem State.d5_pending (a0 : State) : (State.d5 a0).pending = a0.pending := by
  unfold State.d5
  dsimp only
  split <;> simp
@[simp] theorem State.resetDo_pending (a0 : State) (a1 : Nat) (a2 : Nat) (a3 : Bool) : (State.resetDo a0 a1 a2 a3).pending = a0.pending := by
  unfold State.resetDo
  repeat' (first | with_reducible rfl | (simp; done) | split | (intro _) | (with_reducible refine foldl_pending (fun _ _ => ?_) ?_) | simp)
@[simp] theorem State.resetRequest_pending (a0 : State) (a1 : Source) (a2 : Nat) : (State.resetRequest a0 a1 a2).1.pending = a0.pending := by
  unfold State.resetRequest
  repeat' (first | with_reducible rfl | (simp; done) | split | (intro _) | (with_reducible refine foldl_pending (fun _ _ => ?_) ?_) | simp)
@[simp] theorem State.dumpCommand_pending (a0 : State) (a1 : Nat) : (State.dumpCommand a0 a1).1.pending = a0.pending := by
  unfold State.dumpCommand
  dsimp only
  split
  · rfl
  · split
    · rename_i h
      split
      · simp [State.takeDump_pending _ _ _ _ _ h]
      · rfl
    · rfl
@[simp] theorem State.dumpUnprotect_pending (a0 : State) (a1 : Nat) : (State.dumpUnprotect a0 a1).1.pending = a0.pending := by
  unfold State.dumpUnprotect
  repeat' (first | with_reducible rfl | (simp; done) | split | (intro _) | (with_reducible refine foldl_pending (fun _ _ => ?_) ?_) | simp)
@[simp] theorem State.resetStatus_fused (a0 : State) (a1 : Nat) (a2 : Nat) (a3 : Nat) : (State.resetStatus a0 a1 a2 a3).fused = a0.fused := by
  unfold State.resetStatus
  repeat' (first | with_reducible rfl | (simp; done) | split | (intro _) | (with_reducible refine foldl_fused (fun _ _ => ?_) ?_) | simp)
@[simp] theorem State.d5_fused (a0 : State) : (State.d5 a0).fused = a0.fused := by
  unfold State.d5
  dsimp only
  split <;> simp
@[simp] theorem State.resetDo_fused (a0 : State) (a1 : Nat) (a2 : Nat) (a3 : Bool) : (State.resetDo a0 a1 a2 a3).fused = a0.fused := by
  unfold State.resetDo
  repeat' (first | with_reducible rfl | (simp; done) | split | (intro _) | (with_reducible refine foldl_fused (fun _ _ => ?_) ?_) | simp)
@[simp] theorem State.resetRequest_fused (a0 : State) (a1 : Source) (a2 : Nat) : (State.resetRequest a0 a1 a2).1.fused = a0.fused := by
  unfold State.resetRequest
  repeat' (first | with_reducible rfl | (simp; done) | split | (intro _) | (with_reducible refine foldl_fused (fun _ _ => ?_) ?_) | simp)
@[simp] theorem State.dumpCommand_fused (a0 : State) (a1 : Nat) : (State.dumpCommand a0 a1).1.fused = a0.fused := by
  unfold State.dumpCommand
  dsimp only
  split
  · rfl
  · split
    · rename_i h
      split
      · simp [State.takeDump_fused _ _ _ _ _ h]
      · rfl
    · rfl
@[simp] theorem State.dumpUnprotect_fused (a0 : State) (a1 : Nat) : (State.dumpUnprotect a0 a1).1.fused = a0.fused := by
  unfold State.dumpUnprotect
  repeat' (first | with_reducible rfl | (simp; done) | split | (intro _) | (with_reducible refine foldl_fused (fun _ _ => ?_) ?_) | simp)

/-! Actions -/

@[simp] theorem State.rootHashWrite_pending (a0 : State) (a1 : ObjInfo) (a2 : Nat) : (State.rootHashWrite a0 a1 a2).pending = a0.pending := by
  unfold State.rootHashWrite
  repeat' (first | with_reducible rfl | (simp; done) | split | (intro _) | (with_reducible refine foldl_pending (fun _ _ => ?_) ?_) | simp)
@[simp] theorem State.alertClear_pending (a0 : State) (a1 : Nat) : (State.alertClear a0 a1).pending = a0.pending := by
  unfold State.alertClear
  repeat' (first | with_reducible rfl | (simp; done) | split | (intro _) | (with_reducible refine foldl_pending (fun _ _ => ?_) ?_) | simp)
@[simp] theorem writeAct_pending (img : Option GraphImage) (fs : Option (List Failure)) (s : State) (src : Source) (k e v : Nat) :
    (writeAct img fs s src k e v).1.pending = s.pending := by
  unfold writeAct
  split
  · rfl
  · repeat' (first | with_reducible rfl | (simp; done) | (refine (apply_ite (fun x : State × Nat => x.1.pending) _ _ _).trans ?_; refine ite_eq_of ?_ ?_) | split)
@[simp] theorem State.rootHashWrite_fused (a0 : State) (a1 : ObjInfo) (a2 : Nat) : (State.rootHashWrite a0 a1 a2).fused = a0.fused := by
  unfold State.rootHashWrite
  repeat' (first | with_reducible rfl | (simp; done) | split | (intro _) | (with_reducible refine foldl_fused (fun _ _ => ?_) ?_) | simp)
@[simp] theorem State.alertClear_fused (a0 : State) (a1 : Nat) : (State.alertClear a0 a1).fused = a0.fused := by
  unfold State.alertClear
  repeat' (first | with_reducible rfl | (simp; done) | split | (intro _) | (with_reducible refine foldl_fused (fun _ _ => ?_) ?_) | simp)

/-! Inbound -/

theorem State.noSink_pending (a0 a1 : State) (a2 : Nat) (a3 : Frame) (h : a1.pending = a0.pending) : (State.noSink a0 a1 a2 a3).pending = a0.pending := by
  unfold State.noSink
  split <;> simp [h]
@[simp] theorem State.buffer_pending (a0 : State) (a1 : Nat) (a2 : Nat) : (State.buffer a0 a1 a2).pending = a0.pending := by
  unfold State.buffer
  repeat' (first | with_reducible rfl | (simp; done) | split | (intro _) | (with_reducible refine foldl_pending (fun _ _ => ?_) ?_) | simp)
@[simp] theorem State.writeIn_pending (a0 : State) (a1 : Nat) (a2 : Nat) (a3 : Nat) (a4 : Frame) (a5 : Option Nat) : (State.writeIn a0 a1 a2 a3 a4 a5).pending = a0.pending := by
  unfold State.writeIn
  repeat' (first | with_reducible rfl | (simp; done) | split | (intro _) | (with_reducible refine foldl_pending (fun _ _ => ?_) ?_) | simp)
theorem State.writeGrouped_pending (a0 a1 : State) (a2 a3 a4 : Nat) (a5 : Frame) (h : a1.pending = a0.pending) : (State.writeGrouped a0 a1 a2 a3 a4 a5).pending = a0.pending := by
  unfold State.writeGrouped
  repeat' (first | with_reducible rfl | (simp; done) | exact State.noSink_pending _ _ _ _ h | split | (intro _) | (with_reducible refine foldl_pending (fun _ _ => ?_) ?_) | simp)
theorem State.noSink_fused (a0 a1 : State) (a2 : Nat) (a3 : Frame) (h : a1.fused = a0.fused) : (State.noSink a0 a1 a2 a3).fused = a0.fused := by
  unfold State.noSink
  split <;> simp [h]
@[simp] theorem State.buffer_fused (a0 : State) (a1 : Nat) (a2 : Nat) : (State.buffer a0 a1 a2).fused = a0.fused := by
  unfold State.buffer
  repeat' (first | with_reducible rfl | (simp; done) | split | (intro _) | (with_reducible refine foldl_fused (fun _ _ => ?_) ?_) | simp)
@[simp] theorem State.writeIn_fused (a0 : State) (a1 : Nat) (a2 : Nat) (a3 : Nat) (a4 : Frame) (a5 : Option Nat) : (State.writeIn a0 a1 a2 a3 a4 a5).fused = a0.fused := by
  unfold State.writeIn
  repeat' (first | with_reducible rfl | (simp; done) | split | (intro _) | (with_reducible refine foldl_fused (fun _ _ => ?_) ?_) | simp)
theorem State.writeGrouped_fused (a0 a1 : State) (a2 a3 a4 : Nat) (a5 : Frame) (h : a1.fused = a0.fused) : (State.writeGrouped a0 a1 a2 a3 a4 a5).fused = a0.fused := by
  unfold State.writeGrouped
  repeat' (first | with_reducible rfl | (simp; done) | exact State.noSink_fused _ _ _ _ h | split | (intro _) | (with_reducible refine foldl_fused (fun _ _ => ?_) ?_) | simp)

/-! DictRows -/

@[simp] theorem State.spdm_pending (a0 : State) (a1 : Nat) (a2 : SpdmMsg) : (State.spdm a0 a1 a2).pending = a0.pending := by
  unfold State.spdm
  repeat' (first | with_reducible rfl | (simp; done) | split | (intro _) | (with_reducible refine foldl_pending (fun _ _ => ?_) ?_) | simp)
@[simp] theorem State.dictPayload_pending (a0 : State) (a1 : Bytes) : (State.dictPayload a0 a1).1.pending = a0.pending := by
  unfold State.dictPayload
  have h : ∀ (n : Session) s k e v, (plainAct s (.session n) k e v).1.pending = s.pending := fun _ _ _ _ _ => writeAct_pending _ _ _ _ _ _ _
  split
  · simp
  · split
    · dsimp only
      split
      · simp
      · simp [h]
    · (try dsimp only); split <;> simp
@[simp] theorem State.dictAct_pending (a0 : State) (a1 : Nat) (a2 : Frame) : (State.dictAct a0 a1 a2).pending = a0.pending := by
  unfold State.dictAct
  repeat' (first | with_reducible rfl | (simp; done) | split | (intro _) | (with_reducible refine foldl_pending (fun _ _ => ?_) ?_) | simp)
@[simp] theorem State.dictInOrder_pending (a0 : State) (a1 : Nat) (a2 : Nat) (a3 : Nat) : (State.dictInOrder a0 a1 a2 a3).pending = a0.pending := by
  induction a3 generalizing a0 with
  | zero => unfold State.dictInOrder; rfl
  | succ n ih => unfold State.dictInOrder; repeat' (first | with_reducible rfl | (simp [ih]; done) | split | (intro _) | (with_reducible refine foldl_pending (fun _ _ => ?_) ?_) | simp [ih])
@[simp] theorem State.dictRecovery_pending (a0 : State) (a1 : Frame) : (State.dictRecovery a0 a1).pending = a0.pending := by
  unfold State.dictRecovery
  repeat' (first | with_reducible rfl | (simp; done) | split | (intro _) | (with_reducible refine foldl_pending (fun _ _ => ?_) ?_) | simp)
@[simp] theorem State.spdm_fused (a0 : State) (a1 : Nat) (a2 : SpdmMsg) : (State.spdm a0 a1 a2).fused = a0.fused := by
  unfold State.spdm
  repeat' (first | with_reducible rfl | (simp; done) | split | (intro _) | (with_reducible refine foldl_fused (fun _ _ => ?_) ?_) | simp)

/-! Outbound -/

@[simp] theorem State.setOutGroup_pending (a0 : State) (a1 : Nat) (a2 : Nat) (a3 : OutGroup) : (State.setOutGroup a0 a1 a2 a3).pending = a0.pending := by
  unfold State.setOutGroup
  repeat' (first | with_reducible rfl | (simp; done) | split | (intro _) | (with_reducible refine foldl_pending (fun _ _ => ?_) ?_) | simp)
theorem State.countOut_pending (a0 : State) (a1 : Nat) (a2 : Nat) (a3 : Nat) (a4 : Nat) {t : State} (h : State.countOut a0 a1 a2 a3 a4 = .ok t) : t.pending = a0.pending := by
  unfold State.countOut at h
  try dsimp only at h
  repeat' (first | (simp at h; done) | (simp only [Except.ok.injEq] at h; subst h; repeat' (first | with_reducible rfl | (simp; done) | split | (intro _) | (with_reducible refine foldl_pending (fun _ _ => ?_) ?_) | simp)) | split at h)
@[simp] theorem State.setOutGroup_fused (a0 : State) (a1 : Nat) (a2 : Nat) (a3 : OutGroup) : (State.setOutGroup a0 a1 a2 a3).fused = a0.fused := by
  unfold State.setOutGroup
  repeat' (first | with_reducible rfl | (simp; done) | split | (intro _) | (with_reducible refine foldl_fused (fun _ _ => ?_) ?_) | simp)
theorem State.countOut_fused (a0 : State) (a1 : Nat) (a2 : Nat) (a3 : Nat) (a4 : Nat) {t : State} (h : State.countOut a0 a1 a2 a3 a4 = .ok t) : t.fused = a0.fused := by
  unfold State.countOut at h
  try dsimp only at h
  repeat' (first | (simp at h; done) | (simp only [Except.ok.injEq] at h; subst h; repeat' (first | with_reducible rfl | (simp; done) | split | (intro _) | (with_reducible refine foldl_fused (fun _ _ => ?_) ?_) | simp)) | split at h)

/-! Steps -/

@[simp] theorem State.checkpoint_pending (a0 : State) (a1 : Nat) : (State.checkpoint a0 a1).pending = a0.pending := by
  unfold State.checkpoint
  repeat' (first | with_reducible rfl | (simp; done) | split | (intro _) | (with_reducible refine foldl_pending (fun _ _ => ?_) ?_) | simp)
@[simp] theorem State.commitStep_pending (a0 : State) (a1 : Nat) : (State.commitStep a0 a1).pending = a0.pending := by
  unfold State.commitStep
  repeat' (first | with_reducible rfl | (simp; done) | split | (intro _) | (with_reducible refine foldl_pending (fun _ _ => ?_) ?_) | simp)
@[simp] theorem State.checkpoint_fused (a0 : State) (a1 : Nat) : (State.checkpoint a0 a1).fused = a0.fused := by
  unfold State.checkpoint
  repeat' (first | with_reducible rfl | (simp; done) | split | (intro _) | (with_reducible refine foldl_fused (fun _ _ => ?_) ?_) | simp)
@[simp] theorem State.commitStep_fused (a0 : State) (a1 : Nat) : (State.commitStep a0 a1).fused = a0.fused := by
  unfold State.commitStep
  repeat' (first | with_reducible rfl | (simp; done) | split | (intro _) | (with_reducible refine foldl_fused (fun _ _ => ?_) ?_) | simp)

/-! Tap -/

@[simp] theorem State.modTap_pending (a0 : State) (a1 : TapState → TapState) : (State.modTap a0 a1).pending = a0.pending := by
  unfold State.modTap
  repeat' (first | with_reducible rfl | (simp; done) | split | (intro _) | (with_reducible refine foldl_pending (fun _ _ => ?_) ?_) | simp)
@[simp] theorem State.boundary_pending (a0 : State) (a1 : TapInstr) (a2 : Nat) (a3 : Nat) : (State.boundary a0 a1 a2 a3).pending = a0.pending := by
  unfold State.boundary
  repeat' (first | with_reducible rfl | (simp; done) | split | (intro _) | (with_reducible refine foldl_pending (fun _ _ => ?_) ?_) | simp)
@[simp] theorem State.driving_pending (a0 : State) (a1 : TapInstr) (a2 : Nat) (a3 : Nat) : (State.driving a0 a1 a2 a3).pending = a0.pending := by
  unfold State.driving
  repeat' (first | with_reducible rfl | (simp; done) | split | (intro _) | (with_reducible refine foldl_pending (fun _ _ => ?_) ?_) | simp)
@[simp] theorem State.modTap_fused (a0 : State) (a1 : TapState → TapState) : (State.modTap a0 a1).fused = a0.fused := by
  unfold State.modTap
  repeat' (first | with_reducible rfl | (simp; done) | split | (intro _) | (with_reducible refine foldl_fused (fun _ _ => ?_) ?_) | simp)
@[simp] theorem State.boundary_fused (a0 : State) (a1 : TapInstr) (a2 : Nat) (a3 : Nat) : (State.boundary a0 a1 a2 a3).fused = a0.fused := by
  unfold State.boundary
  repeat' (first | with_reducible rfl | (simp; done) | split | (intro _) | (with_reducible refine foldl_fused (fun _ _ => ?_) ?_) | simp)
@[simp] theorem State.driving_fused (a0 : State) (a1 : TapInstr) (a2 : Nat) (a3 : Nat) : (State.driving a0 a1 a2 a3).fused = a0.fused := by
  unfold State.driving
  repeat' (first | with_reducible rfl | (simp; done) | split | (intro _) | (with_reducible refine foldl_fused (fun _ _ => ?_) ?_) | simp)

/-! Tick -/

@[simp] theorem State.timePasses_pending (a0 : State) : (State.timePasses a0).pending = a0.pending := by
  unfold State.timePasses
  repeat' (first | with_reducible rfl | (simp; done) | split | (intro _) | (with_reducible refine foldl_pending (fun _ _ => ?_) ?_) | simp)
@[simp] theorem tick_pending (a0 : State) : (tick a0).pending = a0.pending := by
  unfold tick
  repeat' (first | with_reducible rfl | (simp; done) | split | (intro _) | (with_reducible refine foldl_pending (fun _ _ => ?_) ?_) | simp)
@[simp] theorem State.timePasses_fused (a0 : State) : (State.timePasses a0).fused = a0.fused := by
  unfold State.timePasses
  repeat' (first | with_reducible rfl | (simp; done) | split | (intro _) | (with_reducible refine foldl_fused (fun _ _ => ?_) ?_) | simp)
@[simp] theorem tick_fused (a0 : State) : (tick a0).fused = a0.fused := by
  unfold tick
  repeat' (first | with_reducible rfl | (simp; done) | split | (intro _) | (with_reducible refine foldl_fused (fun _ _ => ?_) ?_) | simp)

end Sys2Proof.Machine
end

