-- ==== Sys2Proof/Laws/LoadStore.lean ====
section
/-! SUPPORT. The laws of loads and stores: the regions of the local offset space (R76), and that the fetch of an instruction changes nothing
that a load or store looks at. -/

namespace Sys2Proof.Machine

theorem cisternBytes_le (v : Nat) : cisternBytes v ≤ 0x500000 := by unfold cisternBytes; split <;> omega

theorem localRegion_cistern {v off : Nat} (h : off < cisternBytes v) : localRegion v off = .cistern := by
  unfold localRegion; rw [if_pos h]

theorem localRegion_absent {v off : Nat} (h : cisternBytes v ≤ off ∧ off < 0x600000 ∨ 0x718000 ≤ off ∧ off < 0x720000 ∨ 0x721200 ≤ off) :
    localRegion v off = .absent := by
  have := cisternBytes_le v
  unfold localRegion
  rw [if_neg (by omega)]
  repeat' (first | rfl | omega | split)

theorem localRegion_control {v off : Nat} (h : 0x600000 ≤ off) (h' : off < 0x700000) : localRegion v off = .control := by
  have := cisternBytes_le v
  unfold localRegion
  repeat' (first | rfl | omega | split)

theorem localRegion_imem {v off : Nat} (h : 0x700000 ≤ off) (h' : off < 0x710000) : localRegion v off = .imem := by
  have := cisternBytes_le v
  unfold localRegion
  repeat' (first | rfl | omega | split)

theorem localRegion_slots {v off : Nat} (h : 0x710000 ≤ off) (h' : off < 0x718000) : localRegion v off = .slots := by
  have := cisternBytes_le v
  unfold localRegion
  repeat' (first | rfl | omega | split)

theorem localRegion_msgBuf {v off : Nat} (h : 0x720000 ≤ off) (h' : off < 0x721000) : localRegion v off = .msgBuf := by
  have := cisternBytes_le v
  unfold localRegion
  repeat' (first | rfl | omega | split)

theorem localRegion_wellStatus {v off : Nat} (h : 0x721000 ≤ off) (h' : off < 0x721200) : localRegion v off = .wellStatus := by
  have := cisternBytes_le v
  unfold localRegion
  repeat' (first | rfl | omega | split)

theorem State.Touched.tile_eq {s u : State} {p k} {x} (h : s.Touched u p k x) : u.tile p = { s.tile p with seq := (u.tile p).seq } := by
  have := h.tile
  unfold Tile.besides at this
  cases hu : u.tile p
  cases hs : s.tile p
  rw [hu, hs] at this
  simp only [Tile.mk.injEq, true_and] at this ⊢
  exact this

theorem State.Touched.eqs {s u : State} {p k} {x} (h : s.Touched u p k x) :
   u = { s with tiles := u.tiles } ∧ u.tile p = { s.tile p with seq := (u.tile p).seq } :=
  ⟨State.eq_of_besidesTiles h.module, State.Touched.tile_eq h⟩

theorem State.Touched.strictFault_eq {s u : State} {p k} {x} (h : s.Touched u p k x) (off n) : u.strictFault (u.tile p) off n = s.strictFault (s.tile p) off n := by
  obtain ⟨h1, h2⟩ := State.Touched.eqs h
  rw [h2, h1]; rfl

theorem State.Touched.anyRange_eq {s u : State} {p k} {x} (h : s.Touched u p k x) (off n r) : (u.tile p).anyRange off n r = (s.tile p).anyRange off n r := by
  obtain ⟨h1, h2⟩ := State.Touched.eqs h
  rw [h2]; rfl

theorem State.Touched.poison_eq {s u : State} {p k} {x} (h : s.Touched u p k x) (off n) : (u.tile p).poison off n = (s.tile p).poison off n := by
  obtain ⟨h1, h2⟩ := State.Touched.eqs h
  rw [h2]; rfl

theorem State.Touched.logical_eq {s u : State} {p k} {x} (h : s.Touched u p k x) : (u.tile p).logical = (s.tile p).logical := by
  obtain ⟨h1, h2⟩ := State.Touched.eqs h
  rw [h2]

theorem State.Touched.variant_eq {s u : State} {p k} {x} (h : s.Touched u p k x) : u.variant = s.variant := by
  obtain ⟨h1, h2⟩ := State.Touched.eqs h
  rw [h1]; rfl

/-- A read of instruction memory that meets no error corrects nothing (R75). -/
theorem State.imemCorrected_clean {s : State} {p off n : Nat} (h1 : 0x700000 ≤ off) (h2 : off < 0x710000) (h : s.loadPoison p off n = 0) :
    s.imemCorrected p (off - 0x700000) n = s := by
  unfold State.loadPoison at h
  rw [localRegion_imem h1 h2] at h
  have hz := ((foldl_max_iff ..).1 (Nat.le_of_eq h)).2
  unfold State.imemCorrected
  dsimp only
  rw [if_pos]
  rw [List.map_eq_nil_iff, List.filter_eq_nil_iff]
  intro e he hc
  simp only [Bool.and_eq_true, beq_iff_eq, decide_eq_true_eq] at hc
  have := hz e (List.mem_filter.2 ⟨he, by simp [hc.1.2, hc.2]⟩)
  omega

/-- A read of a local extent that meets no error corrects nothing (R75, R103). -/
theorem State.localCorrected_clean {s : State} {p off n : Nat} (h : s.loadPoison p off n = 0) : s.localCorrected p off n = s := by
  have hc := cisternBytes_le s.variant
  unfold State.localCorrected
  split
  · rename_i hr
    unfold State.loadPoison at h
    rw [hr] at h
    exact State.corrected_clean h
  · rename_i hr
    have hb : 0x700000 ≤ off ∧ off < 0x710000 := by
      unfold localRegion at hr
      repeat' (first | cases hr | omega | split at hr)
    exact State.imemCorrected_clean hb.1 hb.2 h
  · rfl

theorem State.Touched.loadPoison_eq {s u : State} {p k} {x} (h : s.Touched u p k x) (off n) : u.loadPoison p off n = s.loadPoison p off n := by
  obtain ⟨h1, h2⟩ := State.Touched.eqs h
  unfold State.loadPoison
  rw [State.Touched.variant_eq h, h2]; rfl

theorem State.Touched.localBytes_eq {s u : State} {p k} (h : s.Touched u p k ((s.tile p).task k)) (off n) : u.localBytes p off n = s.localBytes p off n := by
  obtain ⟨h1, h2⟩ := State.Touched.eqs h
  have ht : ∀ j, (u.tile p).task j = (s.tile p).task j := fun j => by
    by_cases hj : j = k
    · rw [hj, h.task]
    · exact h.others j hj
  unfold State.localBytes
  rw [State.Touched.variant_eq h]
  simp only [ht]
  rw [h2]
  rfl

/-- The bytes of an aligned extent of the message buffers lie in one task's buffer (R76). -/
theorem State.localBytes_msgBuf {s : State} {p off n : Nat} (h1 : 0x720000 ≤ off) (h2 : off < 0x721000) (hn : n = 1 ∨ n = 2 ∨ n = 4 ∨ n = 8)
    (ha : off % n = 0) :
    s.localBytes p off n = ((s.tile p).task ((off - 0x720000) / 256)).msgBuf.readBytes ((off - 0x720000) % 256) n := by
  unfold State.localBytes Mem.readBytes
  rw [localRegion_msgBuf h1 h2]
  dsimp only
  apply List.map_congr_left
  intro i hi
  have hi := List.mem_range.1 hi
  have e1 : (off + i - 0x720000) / 256 = (off - 0x720000) / 256 := by rcases hn with rfl | rfl | rfl | rfl <;> omega
  have e2 : (off + i - 0x720000) % 256 = (off - 0x720000) % 256 + i := by rcases hn with rfl | rfl | rfl | rfl <;> omega
  rw [e1, e2]

/-- The bytes of an aligned extent of the well status words lie in one word (R76). -/
theorem State.localBytes_wellStatus {s : State} {p off n : Nat} (h1 : 0x721000 ≤ off) (h2 : off < 0x721200) (hn : n = 1 ∨ n = 2 ∨ n = 4 ∨ n = 8)
    (ha : off % n = 0) :
    s.localBytes p off n = ((toLE 8 (((s.tile p).well ((off - 0x721000) / 64)).statusWord (off / 8 % 8))).drop (off % 8)).take n := by
  unfold State.localBytes
  rw [localRegion_wellStatus h1 h2]
  dsimp only
  apply List.ext_getElem
  · simp; rcases hn with rfl | rfl | rfl | rfl <;> omega
  · intro i hi _
    simp only [List.length_map, List.length_range] at hi
    have e1 : (off + i - 0x721000) / 64 = (off - 0x721000) / 64 := by rcases hn with rfl | rfl | rfl | rfl <;> omega
    have e2 : (off + i - 0x721000) / 8 % 8 = off / 8 % 8 := by rcases hn with rfl | rfl | rfl | rfl <;> omega
    have e3 : (off + i) % 8 = off % 8 + i := by rcases hn with rfl | rfl | rfl | rfl <;> omega
    have e4 : off % 8 + i < 8 := by rcases hn with rfl | rfl | rfl | rfl <;> omega
    simp [e1, e2, e3, e4]

theorem State.Touched.inBuddyCopy_eq {s u : State} {p k} {x} (h : s.Touched u p k x) (off n) : u.inBuddyCopy (u.tile p) off n = s.inBuddyCopy (s.tile p) off n := by
  obtain ⟨h1, h2⟩ := State.Touched.eqs h
  rw [h2, h1]; rfl

theorem State.Touched.localOffset_eq {s u : State} {p k} {x} (h : s.Touched u p k x) {addr off} (hn : s.names p addr off) : localOffset ((u.tile p).logical.getD 0) addr.toNat = .ok off := by
  rw [State.Touched.logical_eq h]; exact localOffset_of_names hn

theorem State.fetched_tWord {s u : State} {p k} (hi : s.issues p k) (hu : u = s.fetched p k) (off) (ho : off < 0x600340 ∨ 0x600400 ≤ off) : u.tWord p off = s.tWord p off := by
  subst hu
  obtain ⟨h1, h2⟩ := State.Touched.eqs (State.fetched_touched hi)
  have h3 := (State.fetched_spec hi.clean).2.2
  unfold State.tWord
  rw [State.Touched.variant_eq (State.fetched_touched hi)]
  dsimp only
  have hnow : (s.fetched p k).now = s.now := by rw [h1]
  rw [hnow]
  have hc : (s.fetched p k).creditWord ((s.fetched p k).tile p) = s.creditWord (s.tile p) := by rw [h2, h1]; rfl
  rw [hc, h3]
  by_cases hp : 0x340 ≤ off - 0x600000 ∧ off - 0x600000 < 0x400
  · omega
  · rw [if_neg hp, if_neg hp]; rfl

end Sys2Proof.Machine
end

