-- ==== Sys2Proof/Laws/Mech.lean ====
section
/-! SUPPORT. The laws of the mechanism instructions (R63 to R74): what reading an issuing task's operands gives, and what posting
descriptors leaves. -/

namespace Sys2Proof.Machine

/-- A mechanism instruction whose unused fields are zero. -/
theorem mech_ok {p op : Nat} {d a b : Reg} {func : Func} {ok : Bool} {f : State → Nat → Issue} {s : State} (h : ok = true) :
    mech p op d a b func ok f s = issue p (encA op d a b func.toNat) f s := by
  subst h; rfl

theorem State.Touched.regN {s u : State} {p k : Nat} (h : s.Touched u p k ((s.tile p).task k)) (r : Reg) :
    u.regN p k r = (s.reg p k r).toNat := by
  unfold State.regN; rw [h.reg]; rfl

theorem Tile.rangesAt_nil {t : Tile} {a b : Nat} : t.rangesAt a b = [] ↔ ∀ r < 64, (t.range r).overlaps a b = false := by
  unfold Tile.rangesAt; simp

/-! Posting (R65). -/

theorem Tile.range_modRange (t : Tile) (r q : Nat) (f : Range → Range) : (t.modRange r f).range q = if q = r then f (t.range r) else t.range q := by
  unfold Tile.modRange Tile.range; dsimp only; rw [Tbl.get_put]

theorem Tile.pump_modPump (t : Tile) (n q : Nat) (f : Pump → Pump) : (t.modPump n f).pump q = if q = n then f (t.pump n) else t.pump q := by
  unfold Tile.modPump Tile.pump; dsimp only; rw [Tbl.get_put]

theorem Tile.trough_modTrough (t : Tile) (n q : Nat) (f : Trough → Trough) :
    (t.modTrough n f).trough q = if q = n then f (t.trough n) else t.trough q := by
  unfold Tile.modTrough Tile.trough; dsimp only; rw [Tbl.get_put]

theorem Tile.range_modPump (t : Tile) (n r : Nat) (f : Pump → Pump) : (t.modPump n f).range r = t.range r := rfl

/-- A tile but for what posting a descriptor changes. -/
def Tile.besidesPosts (t : Tile) : Tile := { t with ranges := [], stamp := 0, pumps := [] }

/-- What posting a descriptor does: one job at the end of its pump's, one fill mark and one drain mark on the ranges it names. -/
theorem Tile.post_spec (t : Tile) (variant n d slot : Nat) :
    (t.post variant n d slot).besidesPosts = t.besidesPosts ∧
    (∀ m, m ≠ n → (t.post variant n d slot).pump m = t.pump m) ∧
    (∃ j : PumpJob, (t.post variant n d slot).pump n = { t.pump n with jobs := (t.pump n).jobs ++ [j] } ∧ j.desc = d ∧ j.slot = slot) ∧
    (∀ r, ((t.post variant n d slot).range r).fills.length = (t.range r).fills.length + (if t.fillRange d = some r then 1 else 0)) ∧
    (∀ r, ((t.post variant n d slot).range r).drains.length = (t.range r).drains.length + (if drainRange d = some r then 1 else 0)) := by
  unfold Tile.post
  dsimp only
  generalize t.dstOffset variant d = o
  generalize hf : t.fillRange d = fr
  generalize hd : drainRange d = dr
  refine ⟨?_, ?_, ?_, ?_, ?_⟩
  · cases fr <;> cases dr <;> rfl
  · intro m hm
    rw [Tile.pump_modPump, if_neg hm]
    cases fr <;> cases dr <;> rfl
  · refine ⟨{ desc := d, slot, stamp := t.stamp + 1, dst := o.getD 0, dstRange := fr, srcRange := dr }, ?_, rfl, rfl⟩
    · rw [Tile.pump_modPump, if_pos rfl]
      cases fr <;> cases dr <;> rfl
  · intro r
    cases fr with
    | none =>
      cases dr with
      | none => simp only [reduceCtorEq, if_false, Nat.add_zero]; rfl
      | some y =>
        simp only [reduceCtorEq, if_false, Nat.add_zero]
        rw [Tile.range_modPump]; try dsimp only
        rw [Tile.range_modRange]; split
        · rename_i e; subst e; rfl
        · rfl
    | some x =>
      have h1 : ∀ u : Tile, u.range r = t.range r → ((u.modRange x fun z => { z with fills := z.fills ++ [t.stamp + 1] }).range r).fills.length =
          (t.range r).fills.length + if some x = some r then 1 else 0 := by
        intro u hu
        rw [Tile.range_modRange]
        by_cases e : r = x
        · subst e; simp [hu]
        · rw [if_neg e, if_neg (fun h => e (Option.some.inj h).symm), hu]; rfl
      cases dr with
      | none => exact h1 { t with stamp := t.stamp + 1 } rfl
      | some y =>
        rw [← h1 { t with stamp := t.stamp + 1 } rfl]
        rw [Tile.range_modPump]; try dsimp only
        rw [Tile.range_modRange]; split
        · rename_i e; subst e; rfl
        · rfl
  · intro r
    cases dr with
    | none =>
      simp only [reduceCtorEq, if_false, Nat.add_zero]
      cases fr with
      | none => rfl
      | some x =>
        rw [Tile.range_modPump]; try dsimp only
        rw [Tile.range_modRange]; split
        · rename_i e; subst e; rfl
        · rfl
    | some y =>
      have h1 : ∀ u : Tile, (u.range r).drains = (t.range r).drains → ((u.modRange y fun z => { z with drains := z.drains ++ [t.stamp + 1] }).range r).drains.length =
          (t.range r).drains.length + if some y = some r then 1 else 0 := by
        intro u hu
        rw [Tile.range_modRange]
        by_cases e : r = y
        · subst e; simp [hu]
        · rw [if_neg e, if_neg (fun h => e (Option.some.inj h).symm), hu]; rfl
      cases fr with
      | none => exact h1 { t with stamp := t.stamp + 1 } rfl
      | some x =>
        refine h1 (Tile.modRange { t with stamp := t.stamp + 1 } x fun z => { z with fills := z.fills ++ [t.stamp + 1] }) ?_
        rw [Tile.range_modRange]; split
        · rename_i e; subst e; rfl
        · rfl

theorem Tile.fillRange_congr {t u : Tile} (h : u.besidesPosts = t.besidesPosts) (d : Nat) : u.fillRange d = t.fillRange d := by
  have := congrArg Tile.troughs h
  unfold Tile.fillRange Tile.trough
  rw [show u.troughs = t.troughs from this]

/-- What posting a run of descriptors does. -/
theorem Tile.posts_spec (variant n : Nat) (g : Nat → Nat) (l : List (Nat × Nat)) : ∀ t : Tile,
    let u := l.foldl (fun (t : Tile) di => t.post variant n di.1 (g di.2)) t
    u.besidesPosts = t.besidesPosts ∧
    (∀ m, m ≠ n → u.pump m = t.pump m) ∧
    (∃ js : List PumpJob, u.pump n = { t.pump n with jobs := (t.pump n).jobs ++ js } ∧ js.map (fun j => (j.desc, j.slot)) = l.map fun x => (x.1, g x.2)) ∧
    (∀ r, (u.range r).fills.length = (t.range r).fills.length + (l.filter fun x => t.fillRange x.1 = some r).length) ∧
    (∀ r, (u.range r).drains.length = (t.range r).drains.length + (l.filter fun x => drainRange x.1 = some r).length) := by
  induction l with
  | nil => intro t; exact ⟨rfl, fun _ _ => rfl, ⟨[], by simp, rfl⟩, fun _ => rfl, fun _ => rfl⟩
  | cons x l ih =>
    intro t
    obtain ⟨a1, a2, ⟨j, a3, a4, a5⟩, a6, a7⟩ := t.post_spec variant n x.1 (g x.2)
    obtain ⟨b1, b2, ⟨js, b3, b4⟩, b6, b7⟩ := ih (t.post variant n x.1 (g x.2))
    refine ⟨b1.trans a1, fun m hm => (b2 m hm).trans (a2 m hm), ⟨j :: js, ?_, ?_⟩, fun r => ?_, fun r => ?_⟩
    · show (List.foldl _ _ _ : Tile).pump n = _
      rw [List.foldl_cons, b3, a3]
      simp
    · rw [List.map_cons, List.map_cons, b4, a4, a5]
    · show ((List.foldl _ _ _ : Tile).range r).fills.length = _
      rw [List.foldl_cons, b6 r, a6 r, List.filter_cons]
      have : (l.filter fun x_1 => decide ((t.post variant n x.1 (g x.2)).fillRange x_1.1 = some r)) = l.filter fun x => decide (t.fillRange x.1 = some r) := by
        congr 1; funext y; rw [Tile.fillRange_congr a1]
      rw [this]
      by_cases e : t.fillRange x.1 = some r
      · simp [e]; omega
      · simp [e]
    · show ((List.foldl _ _ _ : Tile).range r).drains.length = _
      rw [List.foldl_cons, b7 r, a7 r, List.filter_cons]
      by_cases e : drainRange x.1 = some r
      · simp [e]; omega
      · simp [e]

theorem Tile.well_modWell (t : Tile) (n q : Nat) (f : Well → Well) : (t.modWell n f).well q = if q = n then f (t.well n) else t.well q := by
  unfold Tile.modWell Tile.well; dsimp only; rw [Tbl.get_put]

/-! Requests of a network interface (R174, R176). -/

/-- The packet of a request that a tile's network interface is given. -/
def State.requestPkt (s : State) (p cls op flow dst dstKind addr arg0 arg1 tag deadline : Nat) (data : Bytes) : Packet :=
  { h := { cls, op, flow, dst, dstKind, addr, arg0, arg1, tag, seq := Tbl.get 0 (s.tile p).ni.seqs flow, src := (s.tile p).logical.getD 0xFFF,
           meadow := (s.tile p).meadow.getD 0xFF, length := ceilDiv data.length 64 }
    data, since := s.now, issuer := p, deadlineFull := deadline }

/-- What giving a request to a network interface does: one more packet, and the flow's sequence number. -/
theorem State.tileRequest_eq (s : State) (p cls op flow dst dstKind addr arg0 arg1 tag deadline : Nat) (data : Bytes) :
    s.tileRequest p cls op flow dst dstKind addr arg0 arg1 tag deadline data =
      (s.modTile p fun t => { t with ni := { t.ni with seqs := t.ni.seqs.put 0 flow ((Tbl.get 0 (s.tile p).ni.seqs flow + 1) % 65536) } }).newPkt
        (s.requestPkt p cls op flow dst dstKind addr arg0 arg1 tag deadline data) := rfl

end Sys2Proof.Machine
end

