-- ==== Sys2Proof/Laws/Wakes.lean ====
section
/-! SUPPORT. The laws of waking (R71): what ending the waits whose events have come leaves alone. -/

namespace Sys2Proof.Machine

/-- Going on after an instruction changes only its own task, and with a fault the run bit. -/
theorem State.advance_tile (s : State) (p k word : Nat) :
    (∀ q, q ≠ p → (s.advance p k word).tile q = s.tile q) ∧ ((s.advance p k word).tile p).besides = (s.tile p).besides ∧
    (∀ j, j ≠ k → ((s.advance p k word).tile p).task j = (s.tile p).task j) := by
  unfold State.advance
  split
  · refine ⟨fun q hq => by rw [State.taskFault_tile, if_neg hq], ?_, fun j hj => ?_⟩
    · rw [State.taskFault_tile, if_pos rfl]; rfl
    · rw [State.taskFault_tile, if_pos rfl, Tile.faulted_task_ne _ hj]
  · refine ⟨fun q hq => by rw [State.tile_modTile, if_neg hq], ?_, fun j hj => ?_⟩
    · rw [State.tile_modTile_self, Tile.modTask_besides]
    · rw [State.tile_modTile_self, Tile.task_modTask, if_neg hj]

/-- Ending a task's wait changes only that task, and with a fault of it the run bit. -/
theorem State.endWait_tile (s : State) (p k : Nat) (d : Reg) (r word : Nat) :
    (∀ q, q ≠ p → (s.endWait p k d r word).tile q = s.tile q) ∧ ((s.endWait p k d r word).tile p).besides = (s.tile p).besides ∧
    (∀ j, j ≠ k → ((s.endWait p k d r word).tile p).task j = (s.tile p).task j) := by
  unfold State.endWait
  dsimp only
  obtain ⟨h1, h2, h3⟩ := (s.modTile p fun t => t.modTask k fun x =>
    { (x.setReg d (BitVec.ofNat 64 r)) with state := .ready, pend := x.pend - (x.pend &&& r), wdSince := s.now }).advance_tile p k word
  refine ⟨fun q hq => ?_, ?_, fun j hj => ?_⟩
  · rw [h1 q hq, State.tile_modTile, if_neg hq]
  · rw [h2, State.tile_modTile_self, Tile.modTask_besides]
  · rw [h3 j hj, State.tile_modTile_self, Tile.task_modTask, if_neg hj]

theorem Tile.wakeFull_seq (t : Tile) : t.wakeFull.seq = t.seq := by
  unfold Tile.wakeFull; split
  · split <;> rfl
  all_goals rfl

theorem Tile.wakeFull_task (t : Tile) (j : Nat) : t.wakeFull.task j = t.task j := by unfold Tile.task; rw [Tile.wakeFull_seq]

theorem Tile.wakeFull_beside (t : Tile) : t.wakeFull.beside = t.beside := by
  unfold Tile.wakeFull; split
  · split <;> rfl
  all_goals rfl

theorem Tile.wakeFull_eq (t : Tile) : ∃ w : TilePower, t.wakeFull = { t with power := w } := by
  unfold Tile.wakeFull; split
  · split
    · exact ⟨_, rfl⟩
    · exact ⟨t.power, rfl⟩
  all_goals exact ⟨t.power, rfl⟩

/-- The abort of an entry changes the tile's power record and the count of aborts. -/
theorem State.abortEntry_spec (s : State) (p : Nat) :
    (∀ q, q ≠ p → (s.abortEntry p).tile q = s.tile q) ∧ (∃ w : TilePower, (s.abortEntry p).tile p = { s.tile p with power := w }) ∧
    (s.abortEntry p).errs = s.errs ∧ (s.abortEntry p).net = s.net ∧ (s.abortEntry p).now = s.now := by
  unfold State.abortEntry
  split
  · extract_lets a u
    have h1 : ∀ q, q ≠ p → u.tile q = s.tile q := fun q hq => by dsimp only [u]; rw [State.tile_modTile, if_neg hq]
    have h2 : ∃ w : TilePower, u.tile p = { s.tile p with power := w } := by
      dsimp only [u]; rw [State.tile_modTile_self]; exact ⟨_, rfl⟩
    have h3 : u.errs = s.errs ∧ u.net = s.net ∧ u.now = s.now := ⟨rfl, rfl, rfl⟩
    clear_value u
    split
    · exact ⟨fun q hq => by rw [State.putObe_tile]; exact h1 q hq, by rw [State.putObe_tile]; exact h2, h3⟩
    · exact ⟨h1, h2, h3⟩
  · exact ⟨fun _ _ => rfl, ⟨(s.tile p).power, rfl⟩, rfl, rfl, rfl⟩

/-- A task's wake event changes the tile's power record and the count of aborts. -/
theorem State.wakePower_spec (s : State) (p : Nat) :
    (∀ q, q ≠ p → (s.wakePower p).tile q = s.tile q) ∧ (∃ w : TilePower, (s.wakePower p).tile p = { s.tile p with power := w }) ∧
    (s.wakePower p).errs = s.errs ∧ (s.wakePower p).net = s.net ∧ (s.wakePower p).now = s.now := by
  unfold State.wakePower
  split
  · obtain ⟨h1, ⟨w, h2⟩, h3⟩ := s.abortEntry_spec p
    refine ⟨fun q hq => by rw [State.tile_modTile, if_neg hq]; exact h1 q hq, ?_, h3⟩
    obtain ⟨x, hx⟩ := ((s.abortEntry p).tile p).wakeFull_eq
    exact ⟨x, by rw [State.tile_modTile_self, hx, h2]⟩
  · exact ⟨fun _ _ => rfl, ⟨(s.tile p).power, rfl⟩, rfl, rfl, rfl⟩

/-- Ending the waits of a tile whose events have come changes only tasks that wait, the run bit and the tile's power state. -/
theorem State.wakeTasks_spec (s : State) (p : Nat) :
    (∀ q, q ≠ p → (s.wakeTasks p).tile q = s.tile q) ∧ ((s.wakeTasks p).tile p).beside = (s.tile p).beside ∧
    (∀ j, ((s.tile p).task j).state ≠ .waiting → ((s.wakeTasks p).tile p).task j = (s.tile p).task j) := by
  have key : ∀ l : List Nat, ∀ u : State, (∀ q, q ≠ p → u.tile q = s.tile q) → (u.tile p).besides = (s.tile p).besides →
      (∀ j, ((s.tile p).task j).state ≠ .waiting → (u.tile p).task j = (s.tile p).task j) →
      let v := l.foldl (fun s k =>
        let t := s.tile p
        let x := t.task k
        if x.state = .waiting then
          match t.waitResult k x.waitMask.toNat with
          | some r => s.endWait p k x.waitD r (waitWord t k)
          | none => s
        else s) u
      (∀ q, q ≠ p → v.tile q = s.tile q) ∧ (v.tile p).besides = (s.tile p).besides ∧
      (∀ j, ((s.tile p).task j).state ≠ .waiting → (v.tile p).task j = (s.tile p).task j) := by
    intro l
    induction l with
    | nil => intro u h1 h2 h3; exact ⟨h1, h2, h3⟩
    | cons k l ih =>
      intro u h1 h2 h3
      rw [List.foldl_cons]
      dsimp only
      split
      · rename_i hw
        cases hr : (u.tile p).waitResult k ((u.tile p).task k).waitMask.toNat with
        | none => exact ih u h1 h2 h3
        | some r =>
          obtain ⟨g1, g2, g3⟩ := u.endWait_tile p k ((u.tile p).task k).waitD r (waitWord (u.tile p) k)
          refine ih _ (fun q hq => (g1 q hq).trans (h1 q hq)) (g2.trans h2) fun j hj => ?_
          have hjk : j ≠ k := by
            intro e; subst e
            rw [h3 j hj] at hw; exact hj hw
          exact (g3 j hjk).trans (h3 j hj)
      · exact ih u h1 h2 h3
  obtain ⟨h1, h2, h3⟩ := key (List.range 16) s (fun _ _ => rfl) rfl (fun _ _ => rfl)
  unfold State.wakeTasks
  generalize (List.range 16).foldl _ s = v at h1 h2 h3 ⊢
  obtain ⟨g1, ⟨w, g2⟩, -⟩ := v.wakePower_spec p
  refine ⟨fun q hq => (g1 q hq).trans (h1 q hq), ?_, fun j hj => ?_⟩
  · rw [g2]; exact congrArg (fun x : Tile => { x with power := {} }) h2
  · rw [g2]; exact h3 j hj

/-- A tile in T0 or T1 with a task to run is in T0 once settled. -/
theorem Tile.clock_awake {t : Tile} (h : t.hasWork = true) (hp : t.power.state = .t0 ∨ t.power.state = .t1) :
    t.clock = { t with power := { t.power with state := .t0 } } := by
  have h' : (t.anyTask fun x => x.state == .ready || x.state == .running) = true := h
  unfold Tile.clock
  rcases hp with e | e <;> rw [e] <;> simp only [h', if_true] <;> rw [if_neg (fun e => TPower.noConfusion e.2)]

theorem Tile.settle_awake {t : Tile} (h : t.hasWork = true) (hp : t.power.state = .t0 ∨ t.power.state = .t1) :
    t.settle.power = { t.power with state := .t0 } ∧ t.settle.hasWork = true := by
  unfold Tile.settle
  rw [Tile.clock_awake h hp]
  have h2 : ({ t with power := { t.power with state := .t0 } } : Tile).schedule.hasWork = true :=
    Tile.schedule_hasWork (t := { t with power := { t.power with state := .t0 } }) h
  rw [Tile.clock_of_hasWork h2 (by rw [Tile.schedule_power])]
  exact ⟨Tile.schedule_power _, h2⟩

theorem State.settle_awake {s : State} {p : Nat} (h : (s.tile p).hasWork = true)
    (hp : (s.tile p).power.state = .t0 ∨ (s.tile p).power.state = .t1) :
    ((s.settle p).tile p).power = { (s.tile p).power with state := .t0 } := by
  obtain ⟨h1, h2⟩ := Tile.settle_awake h hp
  have hp' : ((s.modTile p Tile.settle).leftRun (s.tile p) p).tile p = (s.tile p).settle := by
    rw [State.tile_congr (State.leftRun_tiles _ _ _), State.tile_modTile_self]
  unfold State.settle
  dsimp only
  rw [hp', Tile.not_allWaiting h2]
  simp only [Bool.false_and, Bool.false_eq_true, if_false]
  rw [hp', h1]

/-- Ending the waits of a tile leaves its sequencer's controls but the run bit. -/
theorem State.endWait_controls (s : State) (p k : Nat) (d : Reg) (r word : Nat) :
    { ((s.endWait p k d r word).tile p).seq.controls with run := false } = { (s.tile p).seq.controls with run := false } := by
  unfold State.endWait State.advance
  dsimp only
  split
  · rw [State.taskFault_tile, if_pos rfl, State.tile_modTile_self]; rfl
  · rw [State.tile_modTile_self, State.tile_modTile_self]; rfl

theorem State.wakeTasks_controls (s : State) (p : Nat) :
    { ((s.wakeTasks p).tile p).seq.controls with run := false } = { (s.tile p).seq.controls with run := false } := by
  have key : ∀ l : List Nat, ∀ u : State,
      { ((l.foldl (fun (s : State) k =>
        let t := s.tile p
        let x := t.task k
        if x.state = .waiting then
          match t.waitResult k x.waitMask.toNat with
          | some r => s.endWait p k x.waitD r (waitWord t k)
          | none => s
        else s) u).tile p).seq.controls with run := false } = { (u.tile p).seq.controls with run := false } := by
    intro l
    induction l with
    | nil => intro u; rfl
    | cons k l ih =>
      intro u
      rw [List.foldl_cons]
      dsimp only
      split
      · split
        · rw [ih, State.endWait_controls]
        · exact ih u
      · exact ih u
  have hk := key (List.range 16) s
  unfold State.wakeTasks
  generalize (List.range 16).foldl _ s = v at hk ⊢
  obtain ⟨-, ⟨w, g2⟩, -⟩ := v.wakePower_spec p
  rw [g2]
  exact hk

/-- A task that is Ready or Running stays one of the two through scheduling. -/
theorem Tile.schedule_live {t : Tile} {j : Nat} (h : (t.task j).state = .ready ∨ (t.task j).state = .running) :
    (t.schedule.task j).state = .ready ∨ (t.schedule.task j).state = .running := by
  have hr : ∀ (t' : Tile) (n : Nat), ((t'.task j).state = .ready ∨ (t'.task j).state = .running) →
      (((t'.run n).task j).state = .ready ∨ ((t'.run n).task j).state = .running) := by
    intro t' n h'
    have e : (t'.run n).task j = (t'.modTask n fun x => { x with state := .running, stall := none }).task j := rfl
    rw [e, Tile.task_modTask]
    split
    · right; rfl
    · exact h'
  unfold Tile.schedule
  split
  · exact h
  · split
    · exact h
    · split
      · split
        · apply hr
          rw [Tile.task_modTask]
          split
          · left; rfl
          · exact h
        · exact h
      · exact hr _ _ h

theorem Tile.settle_live {t : Tile} {j : Nat} (h : (t.task j).state = .ready ∨ (t.task j).state = .running) :
    (t.settle.task j).state = .ready ∨ (t.settle.task j).state = .running := by
  unfold Tile.settle
  rw [Tile.clock_task]
  apply Tile.schedule_live
  rw [Tile.clock_task]
  exact h

theorem State.settle_live {s : State} {p j : Nat} (h : ((s.tile p).task j).state = .ready ∨ ((s.tile p).task j).state = .running) :
    (((s.settle p).tile p).task j).state = .ready ∨ (((s.settle p).tile p).task j).state = .running := by
  have hp : ((s.modTile p Tile.settle).leftRun (s.tile p) p).tile p = (s.tile p).settle := by
    rw [State.tile_congr (State.leftRun_tiles _ _ _), State.tile_modTile_self]
  have e : ((s.settle p).tile p).seq = (s.tile p).settle.seq := by
    unfold State.settle
    dsimp only
    split
    · split
      · rw [hp]
      · split
        · rw [State.enterPower_seq, hp]
        · rw [State.tile_modTile_self, hp]
    · rw [hp]
  unfold Tile.task
  rw [e]
  exact Tile.settle_live h

theorem State.advance_now (s : State) (p k word : Nat) : (s.advance p k word).now = s.now := by
  unfold State.advance
  split
  · unfold State.taskFault
    dsimp only
    rw [if_pos (by decide), State.raise_now, if_neg (by decide)]
    rfl
  · rfl

theorem State.endWait_now (s : State) (p k : Nat) (d : Reg) (r word : Nat) : (s.endWait p k d r word).now = s.now := by
  unfold State.endWait
  dsimp only
  rw [State.advance_now]; rfl

/-- What the wait of a task whose events have come leaves of the task. -/
theorem State.endWait_task (s : State) (p k : Nat) (d : Reg) (r word : Nat) (h : ((s.tile p).task k).pc ≠ 0xFFFC#16) :
    ((s.endWait p k d r word).tile p).task k =
      { (((s.tile p).task k).setReg d (BitVec.ofNat 64 r)) with
        state := .ready, pend := ((s.tile p).task k).pend - (((s.tile p).task k).pend &&& r), wdSince := s.now
        pc := ((s.tile p).task k).pc + 4 } := by
  unfold State.endWait State.advance
  dsimp only
  rw [if_neg (by rw [State.tile_modTile_self, Tile.task_modTask_self]; simpa using h)]
  rw [State.tile_modTile_self, Tile.task_modTask_self, State.tile_modTile_self, Tile.task_modTask_self]
  simp

theorem Tile.waitResult_congr {t u : Tile} {k mask : Nat} (hb : u.besides = t.besides) (hk : u.task k = t.task k) :
    u.waitResult k mask = t.waitResult k mask := by
  have h1 : u.wells = t.wells := by have := congrArg Tile.wells hb; exact this
  have h2 : u.power = t.power := by have := congrArg Tile.power hb; exact this
  unfold Tile.waitResult Tile.pendingOf Tile.honoured Tile.wellLevels
  rw [hk, h1, h2]

/-- What ending the waits of a tile does to one task: a task whose events have not come goes on waiting; one whose events have come gets
them in its register, loses the latched ones, and goes on at the next word. -/
theorem State.wakeTasks_task (s : State) (p : Nat) {j : Nat} (hj : j < 16) (hw : ((s.tile p).task j).state = .waiting)
    (hpc : ((s.tile p).task j).pc ≠ 0xFFFC#16) :
    ((s.wakeTasks p).tile p).task j =
      match (s.tile p).waitResult j ((s.tile p).task j).waitMask.toNat with
      | none => (s.tile p).task j
      | some r => { (((s.tile p).task j).setReg ((s.tile p).task j).waitD (BitVec.ofNat 64 r)) with
        state := .ready, pend := ((s.tile p).task j).pend - (((s.tile p).task j).pend &&& r), wdSince := s.now
        pc := ((s.tile p).task j).pc + 4 } := by
  generalize hx : (match (s.tile p).waitResult j ((s.tile p).task j).waitMask.toNat with
      | none => (s.tile p).task j
      | some r => { (((s.tile p).task j).setReg ((s.tile p).task j).waitD (BitVec.ofNat 64 r)) with
        state := .ready, pend := ((s.tile p).task j).pend - (((s.tile p).task j).pend &&& r), wdSince := s.now
        pc := ((s.tile p).task j).pc + 4 }) = x
  have key : ∀ l : List Nat, ∀ u : State, u.now = s.now → (u.tile p).besides = (s.tile p).besides → l.Nodup →
      (j ∈ l → (u.tile p).task j = (s.tile p).task j) → (j ∉ l → (u.tile p).task j = x) →
      ((l.foldl (fun (s : State) k =>
        let t := s.tile p
        let x := t.task k
        if x.state = .waiting then
          match t.waitResult k x.waitMask.toNat with
          | some r => s.endWait p k x.waitD r (waitWord t k)
          | none => s
        else s) u).tile p).task j = x := by
    intro l
    induction l with
    | nil => intro u _ _ _ _ h; exact h (by simp)
    | cons k l ih =>
      intro u hn hb hnd h1 h2
      rw [List.foldl_cons]
      have hnd' := List.nodup_cons.1 hnd
      by_cases e : k = j
      · subst e
        have ht := h1 (by simp)
        have hres : ∀ v : State, v.now = s.now → (v.tile p).besides = (s.tile p).besides → (v.tile p).task k = x →
            ((l.foldl (fun (s : State) k =>
              let t := s.tile p
              let x := t.task k
              if x.state = .waiting then
                match t.waitResult k x.waitMask.toNat with
                | some r => s.endWait p k x.waitD r (waitWord t k)
                | none => s
              else s) v).tile p).task k = x :=
          fun v a b c => ih v a b hnd'.2 (fun h => absurd h hnd'.1) (fun _ => c)
        dsimp only
        rw [ht, if_pos hw, Tile.waitResult_congr hb ht]
        cases hr : (s.tile p).waitResult k ((s.tile p).task k).waitMask.toNat with
        | none =>
          rw [hr] at hx
          exact hres u hn hb (ht.trans hx)
        | some r =>
          rw [hr] at hx
          obtain ⟨g1, g2, g3⟩ := u.endWait_tile p k ((s.tile p).task k).waitD r (waitWord (u.tile p) k)
          refine hres _ ((State.endWait_now _ _ _ _ _ _).trans hn) (g2.trans hb) ?_
          rw [State.endWait_task _ _ _ _ _ _ (by rw [ht]; exact hpc), ht, hn]
          exact hx
      · dsimp only
        split
        · cases hr : (u.tile p).waitResult k ((u.tile p).task k).waitMask.toNat with
          | none => exact ih u hn hb hnd'.2 (fun h => h1 (by simp [h])) (fun h => h2 (by simp [h, Ne.symm e]))
          | some r =>
            obtain ⟨g1, g2, g3⟩ := u.endWait_tile p k ((u.tile p).task k).waitD r (waitWord (u.tile p) k)
            refine ih _ ((State.endWait_now _ _ _ _ _ _).trans hn) (g2.trans hb) hnd'.2 (fun h => ?_) (fun h => ?_)
            · rw [g3 j (Ne.symm e)]; exact h1 (by simp [h])
            · rw [g3 j (Ne.symm e)]; exact h2 (by simp [h, Ne.symm e])
        · exact ih u hn hb hnd'.2 (fun h => h1 (by simp [h])) (fun h => h2 (by simp [h, Ne.symm e]))
  have hk := key (List.range 16) s rfl rfl List.nodup_range (fun _ => rfl) (fun h => absurd (List.mem_range.2 hj) h)
  unfold State.wakeTasks
  generalize (List.range 16).foldl _ s = v at hk ⊢
  obtain ⟨-, ⟨w, g2⟩, -⟩ := v.wakePower_spec p
  rw [g2]
  exact hk

/-- What latching events does: the bits join those pending for every task that is not Idle. -/
theorem Tile.latch_spec (t : Tile) (e : Nat) :
    (t.latch e).besides = t.besides ∧ (t.latch e).seq.controls = t.seq.controls ∧
    ∀ j < 16, (t.latch e).task j = if (t.task j).state = .idle then t.task j else { t.task j with pend := (t.task j).pend ||| e } := by
  have key : ∀ l : List Nat, ∀ u : Tile, u.besides = t.besides → u.seq.controls = t.seq.controls → l.Nodup →
      (∀ j, j ∈ l → u.task j = t.task j) →
      (∀ j, j ∉ l → j < 16 → u.task j = if (t.task j).state = .idle then t.task j else { t.task j with pend := (t.task j).pend ||| e }) →
      let v := l.foldl (fun (t : Tile) k => if (t.task k).state = .idle then t else t.modTask k fun x => { x with pend := x.pend ||| e }) u
      v.besides = t.besides ∧ v.seq.controls = t.seq.controls ∧
      ∀ j < 16, v.task j = if (t.task j).state = .idle then t.task j else { t.task j with pend := (t.task j).pend ||| e } := by
    intro l
    induction l with
    | nil => intro u h1 h2 _ _ h4; exact ⟨h1, h2, fun j hj => h4 j (by simp) hj⟩
    | cons k l ih =>
      intro u h1 h2 hnd h3 h4
      have hnd' := List.nodup_cons.1 hnd
      rw [List.foldl_cons]
      have hk := h3 k (by simp)
      dsimp only
      split
      · rename_i hi
        refine ih u h1 h2 hnd'.2 (fun j hj => h3 j (by simp [hj])) (fun j hj hj' => ?_)
        by_cases e : j = k
        · subst e; rw [hk] at hi ⊢; rw [if_pos hi]
        · exact h4 j (by simp [e, hj]) hj'
      · rename_i hi
        refine ih _ (by rw [Tile.modTask_besides]; exact h1) (by rw [Tile.modTask_controls]; exact h2) hnd'.2 (fun j hj => ?_) (fun j hj hj' => ?_)
        · rw [Tile.task_modTask, if_neg (by rintro rfl; exact hnd'.1 hj)]; exact h3 j (by simp [hj])
        · rw [Tile.task_modTask]
          by_cases e : j = k
          · subst e; rw [if_pos rfl, hk]; rw [hk] at hi; rw [if_neg hi]
          · rw [if_neg e]; exact h4 j (by simp [e, hj]) hj'
  exact key (List.range 16) t rfl rfl List.nodup_range (fun _ _ => rfl) (fun j h hj => absurd (List.mem_range.2 hj) h)

/-- What a store of a row of its own by the steward leaves: the tile that the store gives, but for tasks whose wait its events end and
for the schedule (R77). -/
theorem storeRow_steward {s u : State} {p off : Nat} {accept : Nat → Bool} {v : Word} {t' : Tile} (ha : accept v.toNat = true)
    (hu : s.beforeTStore p off = u) (ht : u.tStore p off v.toNat = .ok t') :
    ∃ t, storeRow p off accept (.steward v) s = .next t ∧
      (∀ j, (t'.task j).state ≠ .waiting → ((t.tile p).task j).work = (t'.task j).work) ∧
      (∀ j, (t'.task j).state ≠ .waiting → (t'.task j).state ≠ .ready → (t'.task j).state ≠ .running →
        ((t.tile p).task j).state = (t'.task j).state) ∧
      (∀ q, q ≠ p → t.tile q = u.tile q) ∧ (t.tile p).beside = t'.beside := by
  refine ⟨((u.setTile p t').afterTStore p).settle p, ?_, ?_⟩
  · unfold storeRow; dsimp only; rw [ha, hu, ht]; rfl
  · unfold State.afterTStore
    have hp : (u.setTile p t').tile p = t' := State.tile_setTile_self _ _ _
    obtain ⟨h1, h2, h3⟩ := (u.setTile p t').wakeTasks_spec p
    obtain ⟨b1, b2, b3, b4, b5⟩ := ((u.setTile p t').wakeTasks p).settle_spec p
    have hr := ((u.setTile p t').wakeTasks p).settle_rest p
    rw [hp] at h2 h3
    refine ⟨fun j hj => ?_, fun j hj ha hb => ?_, fun q hq => ?_, ?_⟩
    · rw [b1 j, h3 j hj]
    · rw [b3 j (by rw [h3 j hj]; exact ha) (by rw [h3 j hj]; exact hb), h3 j hj]
    · rw [b4 q hq, h1 q hq, State.tile_setTile, if_neg hq]
    · exact hr.trans h2

theorem Tile.well_of_beside {a b : Tile} (h : a.beside = b.beside) (m) : a.well m = b.well m := by
  have := congrArg Tile.wells h; unfold Tile.well; exact congrArg (fun x => Tbl.get {} x m) this

/-- Scheduling leaves the other tiles, and the rest of its own, as they were. -/
theorem State.settle_apart {s u : State} {p : Nat} (hq : ∀ q, q ≠ p → u.tile q = s.tile q) (hb : (u.tile p).beside = (s.tile p).beside) :
   (∀ q, q ≠ p → (u.settle p).tile q = s.tile q) ∧ ((u.settle p).tile p).beside = (s.tile p).beside := by
  obtain ⟨-, -, -, h4, -⟩ := u.settle_spec p
  exact ⟨fun q h => (h4 q h).trans (hq q h), (u.settle_rest p).trans hb⟩

/-- What latching events in an awake tile and waking its tasks do. -/
theorem State.eventWake_woken {s u : State} {t1 : Tile} {p e : Nat} (hup0 : u.tile p = t1.latch e) (hb1 : t1.besides = (s.tile p).besides) (ht1 : ∀ j, t1.task j = (s.tile p).task j)
    (hnow : u.now = s.now) (hq : ∀ q, q ≠ p → u.tile q = s.tile q) (h3 : (s.tile p).power.state ≠ .t3) :
   (∀ j < 16, s.wokenBy (u.eventWake p) p e j) ∧ (∀ q, q ≠ p → (u.eventWake p).tile q = s.tile q) ∧
   ((u.eventWake p).tile p).beside = (s.tile p).beside ∧
   ((u.eventWake p).tile p).seq.timerArmed = (u.tile p).seq.timerArmed := by
  obtain ⟨l1, l2, l3⟩ := t1.latch_spec e
  rw [← hup0] at l1 l2 l3
  rw [hb1] at l1
  have hpw : (u.tile p).power = (s.tile p).power := by
    have := congrArg Tile.power l1; exact this
  have hev : u.eventWake p = (u.wakeTasks p).settle p := by
    unfold State.eventWake; dsimp only; rw [if_neg (by rw [hpw]; exact h3)]
  rw [hev]
  obtain ⟨w1, w2, w3⟩ := u.wakeTasks_spec p
  obtain ⟨s1, s2, s3, s4, s5⟩ := (u.wakeTasks p).settle_spec p
  have hapart := State.settle_apart (s := s) (u := u.wakeTasks p) (p := p) (fun q hq' => by rw [w1 q hq', hq q hq'])
    (by rw [w2]; exact congrArg (fun x : Tile => { x with power := {} }) l1)
  refine ⟨fun j hj => ?_, hapart.1, hapart.2, ?_⟩
  · have hutk : (u.tile p).task j = if ((s.tile p).task j).state = .idle then (s.tile p).task j else { (s.tile p).task j with pend := ((s.tile p).task j).pend ||| e } := by
      rw [← ht1]; exact l3 j hj
    have hwl : (u.tile p).wellLevels = (s.tile p).wellLevels := by
      unfold Tile.wellLevels
      have h : (u.tile p).wells = (s.tile p).wells := by have := congrArg Tile.wells l1; exact this
      rw [h]
    have hni : ((s.tile p).task j).state ≠ .idle → (u.tile p).task j = { (s.tile p).task j with pend := ((s.tile p).task j).pend ||| e } := by
      intro h; rw [hutk, if_neg h]
    have hres : ((s.tile p).task j).state = .waiting → (u.tile p).waitResult j ((u.tile p).task j).waitMask.toNat =
        if (((((s.tile p).task j).pend ||| e) &&& 0x3F00) ||| (s.tile p).wellLevels) &&& (((s.tile p).task j).waitMask.toNat ||| 0x2000) = 0 then none
          else some ((((((s.tile p).task j).pend ||| e) &&& 0x3F00) ||| (s.tile p).wellLevels) &&& (((s.tile p).task j).waitMask.toNat ||| 0x2000)) := by
      intro hw
      unfold Tile.waitResult Tile.pendingOf Tile.honoured
      rw [hni (by rw [hw]; simp), hwl, hpw]
      dsimp only
      rw [if_neg (show ¬ ((s.tile p).power.state = .t3) from h3)]
    have hwake := u.wakeTasks_task p hj
    have hkeep := w3 j
    have hlive := State.settle_live (s := u.wakeTasks p) (p := p) (j := j)
    unfold State.wokenBy
    dsimp only
    rw [s1 j]
    generalize (s.tile p).task j = x at *
    refine ⟨fun hi => ?_, fun hi hw => ?_, fun hw hpc hr => ?_, fun hw hpc hr => ?_⟩
    · rw [hkeep (by rw [hutk, if_pos hi, hi]; simp), hutk, if_pos hi]
    · rw [hkeep (by rw [hni hi]; exact hw), hni hi]; rfl
    · have hi : x.state ≠ .idle := by rw [hw]; simp
      rw [hwake (by rw [hni hi]; exact hw) (by rw [hni hi]; exact hpc), hres hw, if_pos hr, hni hi]; rfl
    · have hi : x.state ≠ .idle := by rw [hw]; simp
      have := hwake (by rw [hni hi]; exact hw) (by rw [hni hi]; exact hpc)
      rw [hres hw, if_neg hr, hni hi] at this
      dsimp only at this
      refine ⟨hlive (Or.inl (by rw [this])), ?_⟩
      rw [this, hnow]
      unfold Task.setReg Task.work
      split <;> rfl
  · have := congrArg Seq.timerArmed s2; dsimp only [Seq.controls] at this; rw [this]
    have := congrArg Seq.timerArmed (State.wakeTasks_controls u p); dsimp only [Seq.controls] at this; exact this

theorem Tile.startAt_power (t : Tile) (n e) : (t.startAt n e).power = t.power := by unfold Tile.startAt; rfl
theorem Tile.loadSlot_power (t : Tile) (x) : (t.loadSlot x).power = t.power := by unfold Tile.loadSlot; rfl
theorem Tile.loadImage_power (t : Tile) (x) : (t.loadImage x).power = t.power := by
  unfold Tile.loadImage; extract_lets; rw [Tile.loadSlot_power]
/-- A report changes no value of the dictionary but the count of reports lost. -/
theorem State.raise_obe (s : State) (r : Report) {k e : Nat} (hk : k ≠ Ob.errlog_lost) (he : e < 65536) : (s.raise r).obe k e = s.obe k e := by
  have h : ∀ a b, (s.raiseFor a b r).obe k e = s.obe k e := by
    intro a b
    unfold State.raiseFor
    extract_lets r' u
    have hu : u.obe k e = s.obe k e := rfl
    clear_value r' u
    split
    · unfold State.addRec
      dsimp only
      rw [State.obe_putObe_ne]
      · exact hu
      · unfold elemKey; omega
    · exact hu
  unfold State.raise
  split <;> exact h _ _
/-- A tile woken from the dark is in T1. -/
theorem State.wakeT3_power (s : State) (p : Nat) : ((s.wakeT3 p).tile p).power.state ≠ .t3 ∧ ((s.wakeT3 p).tile p).power.wokeDark = true := by
  unfold State.wakeT3
  dsimp only
  generalize hv : (State.modTile _ p _ : State) = v
  have h1 : (v.tile p).power.state = .t1 ∧ (v.tile p).power.wokeDark = true := by rw [← hv, State.tile_modTile_self]; exact ⟨rfl, rfl⟩
  have h2 : ∀ g l, ((v.startTile g l p).tile p).power.state ≠ .t3 ∧ ((v.startTile g l p).tile p).power.wokeDark = true := by
    intro g l
    unfold State.startTile
    split
    · rename_i x hx
      have hpw : ((v.modTile p fun t => (t.loadImage x).startAt v.now x.entry).tile p).power = (v.tile p).power := by
        rw [State.tile_modTile_self, Tile.startAt_power, Tile.loadImage_power]
      rw [State.settle_awake]
      · rw [hpw]; exact ⟨by simp, h1.2⟩
      · rw [State.tile_modTile_self]
        apply Tile.hasWork_of (k := 0) (by decide)
        left
        unfold Tile.startAt
        have := Tile.task_modTask_self ((v.tile p).loadImage x) 0 fun y => { y with pc := BitVec.ofNat 16 x.entry, regs := [], state := .ready, stall := none, pend := 0, wdSince := v.now }
        exact congrArg Task.state this
      · rw [hpw]; right; exact h1.1
    · have hq : ((if v.obe Ob.role g = 3 then v.pageProgram p else v).tile p).power = (v.tile p).power := by
        split
        · unfold State.pageProgram; dsimp only; rw [State.tile_modTile_self]
        · rfl
      rw [hq]
      exact ⟨by rw [h1.1]; simp, h1.2⟩
  split
  · exact h2 _ _
  · exact ⟨by rw [h1.1]; simp, h1.2⟩

/-- A dark tile wakes where a waiting task honours a pending event. -/
theorem State.eventWake_t3 {u : State} {p : Nat} (h3 : (u.tile p).power.state = .t3) (hm : (u.tile p).meadow.isSome = true)
   (h : ∃ j < 16, ((u.tile p).task j).state = .waiting ∧ ((u.tile p).waitResult j ((u.tile p).task j).waitMask.toNat).isSome = true) :
   ((u.eventWake p).tile p).power.state ≠ .t3 ∧ ((u.eventWake p).tile p).power.wokeDark = true := by
  unfold State.eventWake
  dsimp only
  rw [if_pos h3, if_pos]
  · exact u.wakeT3_power p
  · rw [hm, Bool.true_and, List.any_eq_true]
    obtain ⟨j, hj, h1, h2⟩ := h
    exact ⟨j, List.mem_range.2 hj, by simp [h1, h2]⟩

/-- A dark tile wakes for an event a task of it waits for. -/
theorem State.eventWake_dark {s u : State} {t1 : Tile} {p e : Nat} (hup0 : u.tile p = t1.latch e) (hb1 : t1.besides = (s.tile p).besides) (ht1 : ∀ j, t1.task j = (s.tile p).task j)
  (h3 : (s.tile p).power.state = .t3) (hm : (s.tile p).meadow.isSome = true)
  (h : ∃ j < 16, ((s.tile p).task j).state = .waiting ∧
          (((((s.tile p).task j).pend ||| e) &&& 0x3F00 ||| (s.tile p).wellLevels) &&& (((s.tile p).task j).waitMask.toNat &&& 0x2400 ||| 0x2000)) ≠ 0) :
   ((u.eventWake p).tile p).power.state ≠ .t3 ∧ ((u.eventWake p).tile p).power.wokeDark = true := by
  obtain ⟨l1, l2, l3⟩ := t1.latch_spec e
  rw [← hup0] at l1 l2 l3
  rw [hb1] at l1
  have hpw : (u.tile p).power = (s.tile p).power := by
    have := congrArg Tile.power l1; exact this
  have hmd : (u.tile p).meadow = (s.tile p).meadow := by
    have := congrArg Tile.meadow l1; exact this
  have hwl : (u.tile p).wellLevels = (s.tile p).wellLevels := by
    unfold Tile.wellLevels
    have h : (u.tile p).wells = (s.tile p).wells := by have := congrArg Tile.wells l1; exact this
    rw [h]
  apply State.eventWake_t3 (by rw [hpw]; exact h3) (by rw [hmd]; exact hm)
  obtain ⟨j, hj, hw, hr⟩ := h
  have htk := l3 j hj
  rw [ht1, if_neg (by rw [hw]; simp)] at htk
  refine ⟨j, hj, by rw [htk]; exact hw, ?_⟩
  unfold Tile.waitResult Tile.pendingOf Tile.honoured
  rw [htk, hwl, hpw, if_pos h3]
  dsimp only
  rw [if_neg hr]; rfl


end Sys2Proof.Machine
end

