-- ==== Sys2Proof/Laws/Units.lean ====
section
/-! SUPPORT. The laws of the tensor and vector units (R80 to R99): what running an operation's chunks of work does to its tile. -/

namespace Sys2Proof.Machine

/-- `v` is `u` but for tile `p`, which is `T`. -/
structure State.TileIs (u v : State) (p : Nat) (T : Tile) : Prop where
  tile : v.tile p = T
  tiles : ∀ q, q ≠ p → v.tile q = u.tile q
  module : v.besidesTiles = u.besidesTiles

theorem State.tileIs_self (u : State) (p : Nat) : u.TileIs u p (u.tile p) := ⟨rfl, fun _ _ => rfl, rfl⟩

theorem State.TileIs.mod {u v : State} {p : Nat} {T : Tile} (h : u.TileIs v p T) (f : Tile → Tile) : u.TileIs (v.modTile p f) p (f T) :=
  ⟨by rw [State.tile_modTile_self, h.tile], fun q hq => by rw [State.tile_modTile, if_neg hq, h.tiles q hq], h.module⟩

theorem State.TileIs.set {u v : State} {p : Nat} {T : Tile} (h : u.TileIs v p T) : u.TileIs (v.setTile p (v.tile p)) p T :=
  h.mod id

theorem State.TileIs.obe {u v : State} {p : Nat} {T : Tile} (h : u.TileIs v p T) (k e) : v.obe k e = u.obe k e := by
  rw [State.eq_of_besidesTiles h.module]; rfl

theorem State.TileIs.regions {u v : State} {p : Nat} {T : Tile} (h : u.TileIs v p T) (g) : v.regions g = u.regions g := by
  rw [State.eq_of_besidesTiles h.module]; rfl

/-- A tile that differs only in what a write of its cistern changes. -/
def Tile.sameRest (t u : Tile) : Prop := { t with cistern := [], ecc := {}, dirty := [] } = { u with cistern := [], ecc := {}, dirty := [] }

theorem State.cisternWrite_unregioned {s : State} {p off : Nat} {bs : Bytes} (h : ∀ g, (s.tile p).meadow = some g → s.regions g = []) :
    s.cisternWrite p off bs = s.modTile p fun t => t.cisternPut off bs := by
  unfold State.cisternWrite
  dsimp only
  have hm : ((s.modTile p fun t => t.cisternPut off bs).tile p).meadow = (s.tile p).meadow := by rw [State.tile_modTile_self]; rfl
  split
  · rename_i g l hg hl
    rw [hm] at hg
    have hr : (s.modTile p fun t => t.cisternPut off bs).regions g = [] := h g hg
    unfold State.duplicates State.moveAppend
    rw [hr]; rfl
  · rfl

theorem Tile.poison_put {t : Tile} {off len a : Nat} {bs : Bytes} (h : t.poison off len = 0) : (t.cisternPut a bs).poison off len = 0 := by
  have hp := ((foldl_max_iff ..).1 (Nat.le_of_eq h)).2
  apply Nat.le_zero.1
  unfold Tile.poison Tile.cisternPut
  dsimp only
  refine (foldl_max_iff ..).2 ⟨Nat.le_refl 0, fun e he => hp e ?_⟩
  rw [List.mem_filter] at he ⊢
  exact ⟨(List.mem_filter.1 he.1).1, he.2⟩

theorem Mem.readBytes_eq (m : Mem) (a n : Nat) : m.readBytes a n = (List.range n).map fun i => m.read (a + i) := by
  unfold Mem.readBytes; rfl

/-- The writes of a chunk, on a tile. -/
def Tile.puts (t : Tile) (ws : List (Nat × Bytes)) : Tile := ws.foldl (fun t w => t.cisternPut w.1 w.2) t

theorem Tile.puts_rest (ws : List (Nat × Bytes)) (t : Tile) : (t.puts ws).sameRest t := by
  induction ws generalizing t with
  | nil => rfl
  | cons w ws ih => exact (ih (t.cisternPut w.1 w.2)).trans rfl

theorem Tile.puts_poison {ws : List (Nat × Bytes)} {t : Tile} {off len : Nat} (h : t.poison off len = 0) : (t.puts ws).poison off len = 0 := by
  induction ws generalizing t with
  | nil => exact h
  | cons w ws ih => exact ih (Tile.poison_put h)

theorem Tile.puts_cistern (ws : List (Nat × Bytes)) (t : Tile) : (t.puts ws).cistern = ws.foldl (fun m w => m.writeBytes w.1 w.2) t.cistern := by
  induction ws generalizing t with
  | nil => rfl
  | cons w ws ih => exact ih (t.cisternPut w.1 w.2)

theorem Tile.puts_read {ws : List (Nat × Bytes)} {t : Tile} {a : Nat} (h : ∀ w ∈ ws, a < w.1 ∨ w.1 + w.2.length ≤ a) :
    (t.puts ws).cistern.read a = t.cistern.read a := by
  induction ws generalizing t with
  | nil => rfl
  | cons w ws ih =>
    refine (ih (t := t.cisternPut w.1 w.2) fun x hx => h x (List.mem_cons_of_mem _ hx)).trans ?_
    exact Mem.read_writeBytes_out _ _ _ _ (h w (by simp))

theorem Tile.puts_append (a b : List (Nat × Bytes)) (t : Tile) : t.puts (a ++ b) = (t.puts a).puts b := by
  unfold Tile.puts; rw [List.foldl_append]

theorem State.TileIs.write {u v : State} {p : Nat} {T : Tile} (h : u.TileIs v p T) (hr : ∀ g, T.meadow = some g → u.regions g = []) (off : Nat) (bs : Bytes) :
    u.TileIs (v.cisternWrite p off bs) p (T.cisternPut off bs) := by
  rw [State.cisternWrite_unregioned fun g hg => by rw [h.regions]; exact hr g (by rw [← h.tile]; exact hg)]
  exact h.mod _

theorem State.TileIs.writes {u : State} {p : Nat} (ws : List (Nat × Bytes)) {v : State} {T : Tile} (h : u.TileIs v p T)
    (hr : ∀ g, T.meadow = some g → u.regions g = []) :
    u.TileIs (ws.foldl (fun s w => s.cisternWrite p w.1 w.2) v) p (T.puts ws) := by
  induction ws generalizing v T with
  | nil => exact h
  | cons w ws ih => exact ih (h.write hr w.1 w.2) hr

theorem foldl_lowest_zero {α : Type} (f : α → Nat) (l : List α) (h : ∀ e ∈ l, f e = 0) : l.foldl (fun m e => lowest m (f e)) 0 = 0 := by
  induction l with
  | nil => rfl
  | cons x l ih =>
    rw [List.foldl_cons, h x (by simp)]
    exact ih fun e he => h e (List.mem_cons_of_mem _ he)

theorem State.corrected_all {s : State} {p : Nat} (l : List (Nat × Nat)) (h : ∀ e ∈ l, (s.tile p).poison e.1 e.2 = 0) :
    l.foldl (fun s e => s.corrected p e.1 e.2) s = s := by
  induction l with
  | nil => rfl
  | cons x l ih =>
    rw [List.foldl_cons, State.corrected_clean (h x (by simp))]
    exact ih fun e he => h e (List.mem_cons_of_mem _ he)

theorem Tile.sameRest.strict {t u : Tile} (h : t.sameRest u) {s v : State} (hs : ∀ k e, s.obe k e = v.obe k e) (off len) : s.strictFault t off len = v.strictFault u off len := by
  have h1 := congrArg Tile.meadow h
  have h2 := congrArg Tile.troughs h
  have h3 := congrArg Tile.ranges h
  dsimp only at h1 h2 h3
  unfold State.strictFault Tile.strictHit Tile.trough Tile.range
  rw [h1, h2, h3]
  simp only [hs]

theorem Tile.sameRest.anyRange {t u : Tile} (h : t.sameRest u) (off len x) : t.anyRange off len x = u.anyRange off len x := by
  have h3 := congrArg Tile.ranges h
  dsimp only at h3
  unfold Tile.anyRange Tile.rangesAt Tile.range
  rw [h3]

theorem State.strict_congr {s v : State} {t : Tile} (hs : ∀ k e, s.obe k e = v.obe k e) (off len) : s.strictFault t off len = v.strictFault t off len := by
  unfold State.strictFault
  simp only [hs]

/-! Counts. -/

theorem Stats.zero_plus (a : Stats) : ({} : Stats).plus a = a := by
  unfold Stats.plus LaFlags.or
  simp

theorem Stats.plus_assoc (a b c : Stats) : (a.plus b).plus c = a.plus (b.plus c) := by
  unfold Stats.plus LaFlags.or
  simp [Nat.add_assoc, Bool.or_assoc]

theorem Stats.foldl_plus {α : Type} (g : α → Stats) (l : List α) (a b : Stats) :
    l.foldl (fun st x => st.plus (g x)) (a.plus b) = a.plus (l.foldl (fun st x => st.plus (g x)) b) := by
  induction l generalizing b with
  | nil => rfl
  | cons x l ih => rw [List.foldl_cons, List.foldl_cons, Stats.plus_assoc, ih]

/-- Counting a chunk's blocks and then its conversion is counting the chunk. -/
theorem Stats.plus_chunk (a : Stats) (c : Chunk) : (c.parts.foldl (fun st x => st.plus x.stats) a).plus c.conv = a.plus c.stats := by
  have := Stats.foldl_plus Part.stats c.parts a {}
  rw [show a.plus {} = a by unfold Stats.plus LaFlags.or; simp] at this
  rw [this, Stats.plus_assoc]; rfl

/-! Blocks and chunks. -/

/-- One block over clean operands only counts. -/
theorem Exec.part_clean {x : Exec} {p : Nat} {o : UnitOp} {d : Part} (ha : x.abort = 0)
    (hr : ∀ e ∈ d.reads, x.s.readAbort p e = 0 ∧ (x.s.tile p).poison e.1 e.2 = 0) (hm : d.mismatches = []) :
    x.part p o d = { x with stats := x.stats.plus d.stats } := by
  unfold Exec.part
  rw [if_neg (by rw [ha]; simp)]
  dsimp only
  rw [foldl_lowest_zero _ _ fun e he => (hr e he).1, if_neg (by decide), if_neg (by decide), State.corrected_all _ fun e he => (hr e he).2, hm]
  rfl

theorem Exec.parts_clean {p : Nat} {o : UnitOp} (ds : List Part) (x : Exec) (ha : x.abort = 0)
    (h : ∀ d ∈ ds, (∀ e ∈ d.reads, x.s.readAbort p e = 0 ∧ (x.s.tile p).poison e.1 e.2 = 0) ∧ d.mismatches = []) :
    ds.foldl (fun x d => x.part p o d) x = { x with stats := ds.foldl (fun st d => st.plus d.stats) x.stats } := by
  induction ds generalizing x with
  | nil => rfl
  | cons d ds ih =>
    rw [List.foldl_cons, Exec.part_clean ha (h d (by simp)).1 (h d (by simp)).2, List.foldl_cons]
    exact ih { x with stats := x.stats.plus d.stats } ha fun e he => h e (List.mem_cons_of_mem _ he)

/-- An operation that has stalled does nothing more in this run. -/
theorem Exec.run_stalled {x : Exec} {p : Nat} {o : UnitOp} {f : State → Chunk} {rows : Nat} (h : x.stalled = true) : x.run p o f rows = x := by
  unfold Exec.run
  rw [if_pos (Or.inr h)]

/-- A chunk whose reads or writes wait stalls the operation. -/
theorem Exec.run_wait {x : Exec} {p : Nat} {o : UnitOp} {f : State → Chunk} {rows : Nat} (ha : x.abort = 0) (hs : x.stalled = false)
    (h : x.s.chunkStalls p (f x.s) = true) : x.run p o f rows = { x with stalled := true } := by
  unfold Exec.run
  rw [if_neg (by rw [ha, hs]; simp)]
  dsimp only
  rw [if_pos h]

/-- What waits on the operands as they stood waits on a tile whose ranges still stand. -/
theorem Tile.sameRest.stalls {u v : State} {p : Nat} (h : (v.tile p).sameRest (u.tile p)) (c : Chunk) : v.chunkStalls p c = u.chunkStalls p c := by
  unfold State.chunkStalls
  simp only [h.anyRange]

/-- One chunk that is clean on the operands as they stood, on a tile whose operands still stand, which waits for nothing. -/
theorem Exec.run_clean {u : State} {p : Nat} {T : Tile} {x : Exec} {o : UnitOp} {f : State → Chunk} {rows : Nat} {c : Chunk}
    (hx : u.TileIs x.s p T) (ha : x.abort = 0) (hs : x.stalled = false) (hT : T.sameRest (u.tile p))
    (hp : ∀ off len, (u.tile p).poison off len = 0 → T.poison off len = 0)
    (hr : ∀ g, (u.tile p).meadow = some g → u.regions g = []) (hcl : u.chunkClean p c) (hf : f x.s = c) (ho : c.outs = [])
    (hw : u.chunkStalls p c = false) :
    let y := x.run p o f rows
    u.TileIs y.s p (T.puts c.writes) ∧ y.abort = 0 ∧ y.stalled = false ∧ y.stats = x.stats.plus c.stats ∧ y.blocks = x.blocks + c.blocks ∧
      y.next = x.next + 1 ∧ y.cbuf = x.cbuf := by
  obtain ⟨h1, h2, h3⟩ := hcl
  have hpo : ∀ e ∈ c.reads, x.s.readAbort p e = 0 ∧ (x.s.tile p).poison e.1 e.2 = 0 := by
    intro e he
    have hq : (x.s.tile p).poison e.1 e.2 = 0 := by rw [hx.tile]; exact hp _ _ (h1 e he).2
    refine ⟨?_, hq⟩
    have he0 := (h1 e he).1
    unfold State.readAbort at he0 ⊢
    dsimp only at he0 ⊢
    rw [hq, hx.tile, hT.strict (fun k e => hx.obe k e), hT.anyRange]
    rw [(h1 e he).2] at he0
    exact he0
  have hst : (c.writes.any fun w => x.s.strictFault (x.s.tile p) w.1 w.2.length) = false := by
    rw [List.any_eq_false]
    intro w hw
    rw [hx.tile, hT.strict (fun k e => hx.obe k e), h2 w hw]; simp
  have hrT : ∀ g, T.meadow = some g → u.regions g = [] := fun g hg => hr g (by have := congrArg Tile.meadow hT; dsimp only at this; rw [← this]; exact hg)
  have hwx : x.s.chunkStalls p c = false := by
    rw [Tile.sameRest.stalls (u := u) (by rw [hx.tile]; exact hT)]; exact hw
  unfold Exec.run
  rw [if_neg (by rw [ha, hs]; simp), hf]
  dsimp only
  rw [hwx, if_neg (by simp), Exec.parts_clean c.parts x ha fun d hd =>
    ⟨fun e he => hpo e (List.mem_flatMap.2 ⟨d, hd, he⟩), h3 d hd⟩]
  unfold Exec.put
  dsimp only
  rw [if_neg (by rw [ha]; simp), hst, if_neg (by simp), Stats.plus_chunk, ho]
  exact ⟨hx.writes _ hrT, ha, hs, rfl, rfl, rfl, rfl⟩

/-- Chunks that are clean on the operands as they stood, whose results touch no operand of a later one: those before the first that waits run. -/
theorem Exec.run_all {β : Type} {u : State} {p : Nat} {o : UnitOp} {f : β → State → Chunk} {R : β → List (Nat × Nat)} {rows : Exec → β → Nat}
    (hr : ∀ g, (u.tile p).meadow = some g → u.regions g = []) :
    ∀ (l : List β), (∀ b ∈ l, ∀ v T, u.TileIs v p T →
      (∀ e ∈ R b, ∀ a, e.1 ≤ a → a < e.1 + e.2 → T.cistern.read a = (u.tile p).cistern.read a) → f b v = f b u) → ∀ (x : Exec) (T : Tile), u.TileIs x.s p T → x.abort = 0 →
    x.stalled = false → T.sameRest (u.tile p) →
    (∀ off len, (u.tile p).poison off len = 0 → T.poison off len = 0) →
    (∀ b ∈ l, u.chunkClean p (f b u) ∧ (f b u).outs = []) →
    (∀ b ∈ l, ∀ e ∈ R b, ∀ a, e.1 ≤ a → a < e.1 + e.2 → T.cistern.read a = (u.tile p).cistern.read a) →
    (l.Pairwise fun b c => ∀ w ∈ (f b u).writes, ∀ e ∈ R c, w.1 + w.2.length ≤ e.1 ∨ e.1 + e.2 ≤ w.1) →
    let y := l.foldl (fun x b => x.run p o (f b) (rows x b)) x
    let d := l.takeWhile fun b => !u.chunkStalls p (f b u)
    u.TileIs y.s p (T.puts (d.flatMap fun b => (f b u).writes)) ∧ y.abort = 0 ∧ y.cbuf = x.cbuf ∧ (y.stalled = true ↔ d ≠ l) ∧
      y.next = x.next + d.length ∧
      y.stats = d.foldl (fun st b => st.plus (f b u).stats) x.stats ∧ y.blocks = d.foldl (fun n b => n + (f b u).blocks) x.blocks := by
  intro l
  induction l with
  | nil => intro _ x T h1 h2 h3 _ _ _ _ _; exact ⟨h1, h2, rfl, by simp [h3], rfl, rfl, rfl⟩
  | cons b l ih =>
    intro hf x T hx ha hs hT hp hcl hrd hpw
    have hfb := hf b (by simp) _ _ hx (hrd b (by simp))
    have hstl : x.s.chunkStalls p (f b u) = u.chunkStalls p (f b u) := Tile.sameRest.stalls (by rw [hx.tile]; exact hT) _
    cases hw : u.chunkStalls p (f b u) with
    | true =>
      have hrun : x.run p o (f b) (rows x b) = { x with stalled := true } := Exec.run_wait ha hs (by rw [hfb, hstl, hw])
      have hrest : ∀ (l : List β) (y : Exec), y.stalled = true → l.foldl (fun x b => x.run p o (f b) (rows x b)) y = y := by
        intro l
        induction l with
        | nil => intro y _; rfl
        | cons c l ih2 => intro y hy; rw [List.foldl_cons, Exec.run_stalled hy]; exact ih2 y hy
      dsimp only
      rw [List.foldl_cons, hrun, hrest l _ rfl, List.takeWhile_cons, if_neg (by rw [hw]; simp)]
      exact ⟨hx, ha, rfl, by simp, rfl, rfl, rfl⟩
    | false =>
      obtain ⟨r1, r2, r3, r4, r5, r6, r7⟩ := Exec.run_clean (rows := rows x b) (o := o) hx ha hs hT hp hr (hcl b (by simp)).1 hfb (hcl b (by simp)).2 hw
      rw [List.pairwise_cons] at hpw
      obtain ⟨i1, i2, i3, i4, i5, i6, i7⟩ := ih (fun c hc => hf c (List.mem_cons_of_mem _ hc)) (x.run p o (f b) (rows x b)) (T.puts (f b u).writes) r1 r2 r3 ((Tile.puts_rest _ _).trans hT)
        (fun off len h => Tile.puts_poison (hp off len h)) (fun c hc => hcl c (List.mem_cons_of_mem _ hc))
        (fun c hc e he a h1 h2 => by
          rw [Tile.puts_read, hrd c (List.mem_cons_of_mem _ hc) e he a h1 h2]
          intro w hw
          rcases hpw.1 c hc w hw e he with h | h <;> omega) hpw.2
      dsimp only
      rw [List.foldl_cons, List.takeWhile_cons, if_pos (by rw [hw]; simp), List.foldl_cons, List.foldl_cons, ← r4, ← r5, ← r7, List.flatMap_cons, Tile.puts_append]
      exact ⟨i1, i2, i3, by rw [i4]; simp, by rw [i5, r6, List.length_cons]; omega, i6, i7⟩

/-! Rows of the vector unit. -/

theorem State.cisternRead_congr {s v : State} {p off len : Nat}
    (h : ∀ a, off ≤ a → a < off + len → (v.tile p).cistern.read a = (s.tile p).cistern.read a) : v.cisternRead p off len = s.cisternRead p off len := by
  unfold State.cisternRead
  rw [Mem.readBytes_eq, Mem.readBytes_eq]
  apply List.map_congr_left
  intro i hi
  have := List.mem_range.1 hi
  exact h _ (by omega) (by omega)

theorem State.operandRow_congr {s v : State} {p : Nat} {o : UnitOp} {which addr stride row i : Nat}
    (h : bit addr 23 = false → v.cisternRead p (addr + i * stride) row = s.cisternRead p (addr + i * stride) row) :
    v.operandRow p o which addr stride row i = s.operandRow p o which addr stride row i := by
  unfold State.operandRow
  split
  · rfl
  · rename_i hb; exact h (by simpa using hb)

theorem ceilDiv_pos {n k : Nat} (h : 0 < n) (hk : 0 < k) : 0 < ceilDiv n k := by
  unfold ceilDiv
  have : k ≤ n + k - 1 := by omega
  exact Nat.div_pos this hk

theorem UnitOp.rowChunk_congr {s v : State} {p i : Nat} {o : UnitOp} (hs : o.op ≠ 0x61 → o.sclB = false)
    (h : ∀ e ∈ o.rowNeeds i, ∀ a, e.1 ≤ a → a < e.1 + e.2 → (v.tile p).cistern.read a = (s.tile p).cistern.read a) :
    o.rowChunk p i v = o.rowChunk p i s := by
  have rd : ∀ e ∈ o.rowNeeds i, ∀ off len, e.1 ≤ off → off + len ≤ e.1 + e.2 → v.cisternRead p off len = s.cisternRead p off len := by
    intro e he off len h1 h2
    exact State.cisternRead_congr fun a h3 h4 => h e he a (by omega) (by omega)
  unfold UnitOp.rowNeeds UnitOp.rowReads at rd
  have hA : v.aValues p o i = s.aValues p o i := by
    unfold State.aValues
    dsimp only
    congr 1
    · apply State.operandRow_congr
      intro hb
      exact rd (o.aAddr + i * o.aStride, o.aRow) (by simp [hb]) _ _ (Nat.le_refl _) (Nat.le_refl _)
    · split
      · rename_i hs
        congr 1
        exact rd (o.scaA + i * scaleRow o.fmtA o.aLen, scaleRow o.fmtA o.aLen) (by simp [hs]) _ _ (Nat.le_refl _) (Nat.le_refl _)
      · rfl
  have hBe : bPerRow o.op = true → s.bElem p o i = v.bElem p o i := by
    intro hb
    unfold State.bElem
    congr 1
    symm
    apply State.operandRow_congr
    intro hb3
    exact rd (o.bAddr, o.bRow) (by simp [hb, hb3]) _ _ (by simp) (by simp)
  have hB : usesB o.op = true → bPerRow o.op = false → o.op ≠ 0x61 → v.bValues p o i = s.bValues p o i := by
    intro hu hb h61
    unfold State.bValues
    dsimp only
    rw [if_neg (by rw [hs h61]; simp), if_neg (by rw [hs h61]; simp)]
    congr 1
    apply State.operandRow_congr
    intro hb3
    exact rd (o.bAddr + i * o.bStride, o.bRow) (by simp [hb3, hu, hb, h61]) _ _ (Nat.le_refl _) (Nat.le_refl _)
  have hD : o.op = 0x43 → v.dValues p o i = s.dValues p o i := by
    intro h43
    unfold State.dValues
    congr 1
    apply State.operandRow_congr
    intro hb3
    exact rd (o.dAddr + i * o.dStride, o.dRow) (by simp [hb3, h43]) _ _ (Nat.le_refl _) (Nat.le_refl _)
  have hV : o.op = 0x61 → ∀ j < o.n, v.bValues p o j = s.bValues p o j := by
    intro h61 j hj
    have e1 : usesB o.op = true := by rw [h61]; rfl
    have e2 : bPerRow o.op = false := by rw [h61]; rfl
    have e3 : o.bShape = (o.n, o.k) := by unfold UnitOp.bShape; rw [if_pos (Or.inr h61)]
    have hm : ∀ x, j * x + x ≤ o.n * x := fun x => by
      have := Nat.mul_le_mul_right x (show j + 1 ≤ o.n by omega)
      rw [Nat.add_mul] at this; omega
    unfold State.bValues
    dsimp only
    rw [e3]
    congr 1
    · apply State.operandRow_congr
      intro hb3
      exact rd (o.bAddr + j * o.bStride, o.bRow) (by
        simp only [hb3, h61, show usesB 97 = true from rfl, show bPerRow 97 = false from rfl, List.mem_append]
        left; left; left; right
        rw [if_pos (by simp), if_neg (by simp), if_pos (by simp)]
        exact List.mem_map.2 ⟨j, List.mem_range.2 hj, rfl⟩) _ _ (Nat.le_refl _) (Nat.le_refl _)
    · split
      · rename_i hs
        congr 1
        refine rd (o.scaB, o.n * scaleRow o.fmtB o.k) ?_ _ _ ?_ ?_
        · simp [hs]
        · simp
        · dsimp only
          have := hm (scaleRow o.fmtB o.k)
          omega
      · rfl
  have hS : o.sharedNans v p i = o.sharedNans s p i := by
    unfold UnitOp.sharedNans
    split
    · rfl
    split
    · rename_i h61
      congr 1
      exact List.map_congr_left fun j hj => by rw [hV h61 j (List.mem_range.1 hj)]
    · rfl
  unfold UnitOp.rowChunk
  dsimp only
  rw [hA, hS]
  by_cases h61 : o.op = 0x61
  · rw [if_pos h61, if_pos h61]
    have : o.dotRow v p i = o.dotRow s p i := by
      unfold UnitOp.dotRow
      dsimp only
      rw [hA, List.map_congr_left (l := List.range o.n) fun j hj => by rw [hV h61 j (List.mem_range.1 hj)]]
    rw [this]
  · rw [if_neg h61, if_neg h61]
    have b1 : (if (usesB o.op && !bPerRow o.op) = true then v.bValues p o i else []) = if (usesB o.op && !bPerRow o.op) = true then s.bValues p o i else [] := by
      split
      · rename_i hb
        simp only [Bool.and_eq_true, Bool.not_eq_true'] at hb
        exact hB hb.1 hb.2 h61
      · rfl
    have b2 : (if o.op = 0x43 then v.dValues p o i else []) = if o.op = 0x43 then s.dValues p o i else [] := by
      split
      · rename_i h; exact hD h
      · rfl
    have b3 : (if bPerRow o.op = true then v.bElem p o i else .fin false 0 0) = if bPerRow o.op = true then s.bElem p o i else .fin false 0 0 := by
      split
      · rename_i h; exact (hBe h).symm
      · rfl
    rw [b1, b2, b3]

/-! Taking an operation. -/

theorem foldl_fix {α β : Type} {f : α → β → α} {s : α} (l : List β) (h : ∀ b ∈ l, f s b = s) : l.foldl f s = s := by
  induction l with
  | nil => rfl
  | cons a l ih => rw [List.foldl_cons, h a (by simp)]; exact ih fun b hb => h b (List.mem_cons_of_mem _ hb)

theorem State.flowRelay_idle {s : State} (h : s.relaysIdle) (q link n : Nat) : s.flowRelay q link n = s := by
  cases n with
  | zero => rfl
  | succ n =>
    unfold State.flowRelay
    split
    · rfl
    · rename_i r hr
      rw [h q r (List.mem_of_find?_eq_some hr)]

theorem State.relaysIdle_of {s t : State} (h : s.relaysIdle) (ht : ∀ q, (t.tile q).relays = (s.tile q).relays) : t.relaysIdle := by
  intro q r hr
  rw [ht q] at hr
  exact h q r hr

/-- With nothing to move in the stream plane and no result to send, nothing follows a change of a unit. -/
theorem State.streamsGo_idle {s : State} {p : Nat} (h1 : (s.tile p).stream.slackQ = []) (h2 : (s.tile p).stream.sinkQ = [])
    (h3 : (s.tile p).stream.pipeOut = []) (h4 : s.relaysIdle)
    (hu : ∀ b x, ((s.tile p).unit b).exec = some x → ¬ (x.phase = .stalled ∧ x.streams = true) ∧ x.out = []) : s.streamsGo p = s := by
  have hf : s.flow p = s := by unfold State.flow; rw [h1]; dsimp only [List.foldl_nil]; rw [h3]; rfl
  have hr : s.relaysGo = s := by
    unfold State.relaysGo
    exact foldl_fix _ fun x _ => State.flowRelay_idle h4 _ _ _
  have hd : s.drainPorts p = s := by
    unfold State.drainPorts
    refine foldl_fix _ fun n _ => ?_
    have hq : (s.tile p).sinkQueue ((s.tile p).portKey n) = [] := by unfold Tile.sinkQueue; rw [h2]; rfl
    unfold State.drainPort
    split
    · rfl
    · rw [hq]
  have hg : s.unitsFlow p = s := by
    unfold State.unitsFlow
    refine foldl_fix _ fun b _ => ?_
    dsimp only
    cases he : ((s.tile p).unit b).exec with
    | none => rfl
    | some o =>
      dsimp only
      rw [if_neg (hu b o he).1, he]
      dsimp only
      rw [(hu b o he).2]; rfl
  unfold State.streamsGo
  rw [hf, hg]
  unfold State.streamSettle
  rw [hf, hr, hd]

theorem Tile.unit_modUnit (t : Tile) (b : Bool) (f : OpUnit → OpUnit) : (t.modUnit b f).unit b = f (t.unit b) := by
  cases b <;> rfl
theorem Tile.unit_modUnit_ne (t : Tile) (b : Bool) (f : OpUnit → OpUnit) : (t.modUnit b f).unit (!b) = t.unit (!b) := by
  cases b <;> rfl
theorem Tile.besidesUnit_modUnit (t : Tile) (b : Bool) (f : OpUnit → OpUnit) : (t.modUnit b f).besidesUnit = t.besidesUnit := by
  cases b <;> rfl
theorem Tile.stream_modUnit (t : Tile) (b : Bool) (f : OpUnit → OpUnit) : (t.modUnit b f).stream = t.stream := by
  cases b <;> rfl
theorem Tile.wells_modUnit (t : Tile) (b : Bool) (f : OpUnit → OpUnit) : (t.modUnit b f).wells = t.wells := by
  cases b <;> rfl
theorem Tile.cistern_modUnit (t : Tile) (b : Bool) (f : OpUnit → OpUnit) : (t.modUnit b f).cistern = t.cistern := by
  cases b <;> rfl

/-- An operation that uses no stream port needs no stream words. -/
theorem UnitOp.plain {o : UnitOp} (h : o.streams = false) :
    bit o.aAddr 23 = false ∧ bit o.bAddr 23 = false ∧ bit o.dAddr 23 = false ∧ bit o.cAddr 23 = false ∧ o.writePort = none := by
  unfold UnitOp.streams at h
  rw [Bool.or_eq_false_iff] at h
  obtain ⟨h1, h2⟩ := h
  have hw : o.writePort = none := by simpa using h2
  have hr : o.readPorts = [] := by simpa using h1
  unfold UnitOp.readPorts UnitOp.addrs at hr
  have hsp : ∀ a, streamPort a = none → bit a 23 = false := by
    intro a ha; unfold streamPort at ha; split at ha
    · cases ha
    · rename_i hb; simpa using hb
  rw [List.filterMap_eq_nil_iff] at hr
  refine ⟨hsp _ (hr (bits o.desc 215 192) (by simp)), hsp _ (hr (bits o.desc 263 240) (by simp)), hsp _ (hr (bits (o.ext.getD 0) 183 160) (by simp)), hsp _ hw, hw⟩

theorem Tile.pullWords_zero (t : Tile) (port fuel : Nat) : t.pullWords port fuel 0 = ([], t) := by
  cases fuel <;> rfl

theorem Tile.pull_plain {t : Tile} {o : UnitOp} (h : o.streams = false) : t.pull o = (o, t) := by
  obtain ⟨h1, h2, h3, -, -⟩ := UnitOp.plain h
  have hw : ∀ w, o.wordsNeeded w = 0 := by
    intro w; unfold UnitOp.wordsNeeded; rw [h1, h2, h3]; simp
  have hp : ∀ w, t.pullOperand o w = (o, t) := by
    intro w
    unfold Tile.pullOperand
    dsimp only
    rw [hw w, Nat.zero_sub, Tile.pullWords_zero, if_pos rfl]
  unfold Tile.pull
  dsimp only
  rw [hp 0]
  dsimp only
  rw [hp 1]
  dsimp only
  rw [hp 2]

theorem UnitOp.fed_plain {o : UnitOp} (h : o.streams = false) : o.fed = true := by
  obtain ⟨h1, h2, h3, -, -⟩ := UnitOp.plain h
  have hw : ∀ w, o.wordsNeeded w = 0 := by
    intro w; unfold UnitOp.wordsNeeded; rw [h1, h2, h3]; simp
  unfold UnitOp.fed
  rw [List.all_eq_true]
  intro w _
  simp [hw]


theorem UnitOp.runVector_phase (o : UnitOp) (ph : OpPhase) (p : Nat) (v : State) : ({ o with phase := ph } : UnitOp).runVector p v = o.runVector p v := rfl
theorem UnitOp.runTensor_phase (o : UnitOp) (ph : OpPhase) (p : Nat) (v : State) : ({ o with phase := ph } : UnitOp).runTensor p v = o.runTensor p v := rfl

theorem UnitOp.after_plain {o : UnitOp} (h : o.writePort = none) {x : Exec} (ha : x.abort = 0) (now : Nat) (mark : Bool) :
    o.after x now mark = if x.stalled then
      { o with phase := .stalled, next := x.next, stats := x.stats, doneBlocks := x.blocks, rows := x.rows, cbuf := x.cbuf }
      else { o.finished now x.stats x.blocks with out := [], reason := 0 } := by
  unfold UnitOp.after UnitOp.streamWords UnitOp.written
  rw [h, ha]
  rfl

/-- Running an operation that uses no stream port, where it does not abort. -/
theorem runOp_plain {v : State} {p : Nat} {tensor : Bool} {o : UnitOp} (ph : OpPhase) (hs : o.streams = false) (h1 : o.reason = 0)
    (h2 : o.shadowed = false) (h3 : o.out = []) :
    let x := if tensor then o.runTensor p v else o.runVector p v
    x.abort = 0 → v.runOp p tensor { o with phase := ph } = (x.s, if x.stalled then
      { o with phase := .stalled, next := x.next, stats := x.stats, doneBlocks := x.blocks, rows := x.rows, cbuf := x.cbuf }
      else o.finished v.now x.stats x.blocks) := by
  intro x ha
  obtain ⟨-, -, -, -, p5⟩ := UnitOp.plain hs
  have hpp : UnitOp.writePort { o with phase := ph } = none := p5
  have e : (if tensor then ({ o with phase := ph } : UnitOp).runTensor p v else ({ o with phase := ph } : UnitOp).runVector p v) = x := rfl
  unfold State.runOp
  rw [e, hpp]
  clear_value x
  dsimp only
  rw [h2, if_neg (by simp), if_neg (by rw [ha]; simp), UnitOp.after_plain (by rw [← h2]; exact hpp) ha]
  unfold UnitOp.finished
  rw [h3, h1, h2]
  rfl

/-- `v` is `s` but for the wells and the units of tile `p`. -/
structure State.UnitKin (s v : State) (p : Nat) : Prop where
  tiles : ∀ q, q ≠ p → v.tile q = s.tile q
  module : v.besidesTiles = s.besidesTiles
  tile : (v.tile p).besidesUnit = (s.tile p).besidesUnit
  cistern : (v.tile p).cistern = (s.tile p).cistern
  ecc : (v.tile p).ecc = (s.tile p).ecc

theorem State.UnitKin.refusal {s v : State} {p : Nat} (h : s.UnitKin v p) (o : UnitOp) (b : Bool) : o.refusal v p b = o.refusal s p b := by
  obtain ⟨-, h2, h3, -, -⟩ := h
  have e : v = { s with tiles := v.tiles } := State.eq_of_besidesTiles h2
  have g1 := congrArg Tile.meadow h3
  have g2 := congrArg Tile.logical h3
  have g3 := congrArg Tile.stream h3
  have g4 := congrArg Tile.slots h3
  dsimp only [Tile.besidesUnit] at g1 g2 g3 g4
  have ev : v.variant = s.variant := by rw [e]; rfl
  have er : ∀ g, v.regions g = s.regions g := fun g => by rw [e]; rfl
  have hb : ∀ a n, v.inBuddyCopy (v.tile p) a n = s.inBuddyCopy (s.tile p) a n := by
    intro a n
    unfold State.inBuddyCopy
    rw [g1, g2]; simp only [er]
  have hs : o.badStream (v.tile p) = o.badStream (s.tile p) := by
    have hp : ∀ n r, (v.tile p).portConfigured n r = (s.tile p).portConfigured n r := by
      intro n r
      unfold Tile.portConfigured Tile.sourceUsed Tile.fed Tile.entry Tile.slotWord
      rw [g3, g4]
    unfold UnitOp.badStream
    simp only [hp]
  have hpl : o.badPlace v p = o.badPlace s p := by
    unfold UnitOp.badPlace UnitOp.badStatus
    simp only [hb, ev]
  unfold UnitOp.refusal
  rw [ev, hs, hpl]

/-- Taking an operation that runs at once. -/
theorem takeOp_runs {s : State} {p w : Nat} {tensor : Bool} {m : WellMsg} {rest : List WellMsg} {accept : Nat → Bool}
    (ht : s.TakesNext p tensor w m rest) (ha : accept (UnitOp.ofMsg m).op = true) (hr : s.RunsAtOnce p tensor (UnitOp.ofMsg m))
    {stats : Stats} {blocks : Nat} {ws : List (Nat × Bytes)}
    (hrun : ∀ v, s.UnitKin v p →
      let x := if tensor then (UnitOp.ofMsg m).runTensor p v else (UnitOp.ofMsg m).runVector p v
      x.abort = 0 ∧ x.stalled = false ∧ x.stats = stats ∧ x.blocks = blocks ∧ v.TileIs x.s p ((v.tile p).puts ws)) :
    ∃ t, takeOp p tensor accept s = .next t ∧ s.Computed t p tensor w rest ((UnitOp.ofMsg m).finished s.now stats blocks) ws := by
  obtain ⟨p1, p2, p3, p4, p5⟩ := UnitOp.plain hr.streams
  unfold takeOp
  dsimp only
  rw [ht.well]
  dsimp only
  rw [ht.msgs]
  dsimp only
  generalize ho : UnitOp.ofMsg m = o at *
  have hsh : o.shadowed = false := by rw [← ho]; rfl
  have hout : o.out = [] := by rw [← ho]; rfl
  have hrea : o.reason = 0 := by rw [← ho]; rfl
  rw [p5, ha, ht.works, ht.waiting, ht.held, hr.alone]
  rw [if_neg (by simp)]
  generalize hs1 : (s.modTile p fun t => (t.modWell w fun x => x.take s.now).modUnit tensor fun u => { u with lastWell := w }) = s1
  have e1 : s1.tile p = ((s.tile p).modWell w fun x => x.take s.now).modUnit tensor fun u => { u with lastWell := w } := by
    rw [← hs1, State.tile_modTile_self]
  have e2 : ∀ q, q ≠ p → s1.tile q = s.tile q := fun q hq => by rw [← hs1, State.tile_modTile, if_neg hq]
  have e3 : s1.besidesTiles = s.besidesTiles := by rw [← hs1]; rfl
  clear hs1
  have hstream : (s1.tile p).stream = (s.tile p).stream := by rw [e1, Tile.stream_modUnit]; rfl
  have hbes : (s1.tile p).besidesUnit = (s.tile p).besidesUnit := by rw [e1, Tile.besidesUnit_modUnit]; rfl
  have hcis : (s1.tile p).cistern = (s.tile p).cistern := by rw [e1, Tile.cistern_modUnit]; rfl
  have hunit : (s1.tile p).unit tensor = { (s.tile p).unit tensor with lastWell := w } := by
    rw [e1, Tile.unit_modUnit]; cases tensor <;> rfl
  have hother : (s1.tile p).unit (!tensor) = (s.tile p).unit (!tensor) := by
    rw [e1, Tile.unit_modUnit_ne]; cases tensor <;> rfl
  have hwell : ∀ n, (s1.tile p).well n = if n = w then ((s.tile p).well w).take s.now else (s.tile p).well n := by
    intro n
    have : (s1.tile p).well n = ((s.tile p).modWell w fun x => x.take s.now).well n := by
      rw [e1]; unfold Tile.well; rw [Tile.wells_modUnit]
    rw [this, Tile.well_modWell]
  have hecc : (s1.tile p).ecc = (s.tile p).ecc := by rw [e1]; cases tensor <;> rfl
  have hnow : s1.now = s.now := by rw [State.eq_of_besidesTiles e3]
  clear e1
  have hk1 : s.UnitKin s1 p := ⟨e2, e3, hbes, hcis, hecc⟩
  rw [if_neg (by rw [hk1.refusal, hr.accepted]; simp), if_pos (show Option.isNone (none : Option UnitOp) = true from rfl)]
  have hsel : s1.shadowSelect p tensor o = (s1, o) := by
    unfold State.shadowSelect
    dsimp only
    have : (s1.tile p).shadow.assigned = none := by
      have h := congrArg Tile.shadow hbes
      dsimp only [Tile.besidesUnit] at h
      rw [h, hr.shadow]
    rw [this]; simp
  rw [hsel]
  dsimp only
  generalize hv : s1.setTile p (s1.tile p) = v
  have f1 : v.tile p = s1.tile p := by rw [← hv]; exact State.tile_modTile_self s1 p id
  have f2 : ∀ q, q ≠ p → v.tile q = s.tile q := fun q hq => by
    rw [← e2 q hq, ← hv]
    have := State.tile_modTile s1 p q id
    rw [if_neg hq] at this; exact this
  have f3 : v.besidesTiles = s.besidesTiles := by rw [← e3, ← hv]; rfl
  have hkin : s.UnitKin v p := ⟨f2, f3, by rw [f1, hbes], by rw [f1, hcis], by rw [f1, hecc]⟩
  obtain ⟨r1, r1s, r2, r3, r4⟩ := hrun v hkin
  have hnowv : v.now = s.now := by rw [State.eq_of_besidesTiles f3]
  have htr : s1.tryRun p tensor o = ((if tensor then o.runTensor p v else o.runVector p v).s, o.finished s.now stats blocks) := by
    unfold State.tryRun
    rw [Tile.pull_plain hr.streams]
    dsimp only
    rw [hv, show UnitOp.fed { o with phase := .stalled } = true from UnitOp.fed_plain hr.streams, if_neg (by simp),
      runOp_plain .stalled hr.streams hrea hsh hout r1, r1s, r2, r3, hnowv]
    rfl
  rw [htr]
  dsimp only
  generalize hx : (if tensor then o.runTensor p v else o.runVector p v) = x at *
  have hT := Tile.puts_rest ws (v.tile p)
  have hTc := Tile.puts_cistern ws (v.tile p)
  generalize (v.tile p).puts ws = T at *
  generalize hy : x.s.setOp p tensor true (o.finished s.now stats blocks) = y
  have y1 : y.tile p = T.modUnit tensor fun u => { u with exec := some (o.finished s.now stats blocks) } := by
    rw [← hy]; unfold State.setOp; rw [State.tile_modTile_self, r4.tile]; rfl
  have y2 : ∀ q, q ≠ p → y.tile q = s.tile q := fun q hq => by
    rw [← f2 q hq, ← r4.tiles q hq, ← hy]; unfold State.setOp; rw [State.tile_modTile, if_neg hq]
  have y3 : y.besidesTiles = s.besidesTiles := by
    rw [← f3, ← r4.module, ← hy]; rfl
  have uT : ∀ b, T.unit b = (s1.tile p).unit b := by
    intro b
    have g1 := congrArg Tile.tensor hT
    have g2 := congrArg Tile.vector hT
    dsimp only at g1 g2
    unfold Tile.unit
    rw [g1, g2, f1]
  have sT : T.stream = (s.tile p).stream := by
    have g := congrArg Tile.stream hT
    dsimp only at g
    rw [g, f1, hstream]
  have wT : T.wells = (s1.tile p).wells := by
    have g := congrArg Tile.wells hT
    dsimp only at g
    rw [g, f1]
  have bT : T.besidesUnit = (s.tile p).besidesUnit := by
    have g := congrArg Tile.besidesUnit hT
    have e : ∀ t : Tile, ({ t with cistern := [], ecc := {}, dirty := [] } : Tile).besidesUnit = t.besidesUnit := fun _ => rfl
    rw [e, e, f1, hbes] at g
    exact g
  have hgo : y.streamsGo p = y := by
    apply State.streamsGo_idle
    · rw [y1, Tile.stream_modUnit, sT, hr.slack]
    · rw [y1, Tile.stream_modUnit, sT, hr.sinks]
    · rw [y1, Tile.stream_modUnit, sT, hr.pipes]
    · refine State.relaysIdle_of hr.relays fun q => ?_
      by_cases hq : q = p
      · have h := congrArg Tile.relays bT
        dsimp only [Tile.besidesUnit] at h
        rw [hq, y1, ← h]; cases tensor <;> rfl
      · rw [y2 q hq]
    · intro b z hz
      by_cases hb : b = tensor
      · subst hb
        rw [y1, Tile.unit_modUnit] at hz
        dsimp only at hz
        cases hz
        exact ⟨by unfold UnitOp.finished; simp, hout⟩
      · have hb' : b = !tensor := by cases b <;> cases tensor <;> simp_all
        subst hb'
        rw [y1, Tile.unit_modUnit_ne, uT, hother] at hz
        obtain ⟨z1, z2⟩ := hr.other z hz
        exact ⟨by rw [z1]; simp, z2⟩
  rw [show (none : Option UnitOp).isNone = true from rfl, hy, hgo]
  refine ⟨y, rfl, ?_, ?_, ?_, ?_, ?_, ?_, y2, y3⟩
  · rw [y1, Tile.cistern_modUnit, hTc, f1, hcis]
  · rw [y1, Tile.unit_modUnit, uT, hunit]
  · rw [y1, Tile.unit_modUnit_ne, uT, hother]
  · have : (y.tile p).well w = (s1.tile p).well w := by unfold Tile.well; rw [y1, Tile.wells_modUnit, wT]
    rw [this, hwell, if_pos rfl]
    unfold Well.take
    rw [ht.msgs]; rfl
  · intro n hn
    have : (y.tile p).well n = (s1.tile p).well n := by unfold Tile.well; rw [y1, Tile.wells_modUnit, wT]
    rw [this, hwell, if_neg hn]
  · rw [y1, Tile.besidesUnit_modUnit, bT]

theorem State.UnitKin.obe {s v : State} {p : Nat} (h : s.UnitKin v p) (k e : Nat) : v.obe k e = s.obe k e := by
  rw [State.eq_of_besidesTiles h.module]; rfl

theorem State.UnitKin.poison {s v : State} {p : Nat} (h : s.UnitKin v p) (off len : Nat) : (v.tile p).poison off len = (s.tile p).poison off len := by
  unfold Tile.poison; rw [h.ecc]

theorem State.UnitKin.strict {s v : State} {p : Nat} (h : s.UnitKin v p) (off len : Nat) : v.strictFault (v.tile p) off len = s.strictFault (s.tile p) off len := by
  have g1 := congrArg Tile.meadow h.tile
  have g2 := congrArg Tile.troughs h.tile
  have g3 := congrArg Tile.ranges h.tile
  dsimp only [Tile.besidesUnit] at g1 g2 g3
  unfold State.strictFault Tile.strictHit Tile.trough Tile.range
  rw [g1, g2, g3]
  simp only [h.obe]

theorem State.UnitKin.readAbort {s v : State} {p : Nat} (h : s.UnitKin v p) (e : Nat × Nat) : v.readAbort p e = s.readAbort p e := by
  have g3 := congrArg Tile.ranges h.tile
  dsimp only [Tile.besidesUnit] at g3
  unfold State.readAbort
  dsimp only
  rw [h.poison, h.strict]
  unfold Tile.anyRange Tile.rangesAt Tile.range
  rw [g3]

theorem State.UnitKin.regions {s v : State} {p : Nat} (h : s.UnitKin v p) (hr : ∀ g, (s.tile p).meadow = some g → s.regions g = []) :
    ∀ g, (v.tile p).meadow = some g → v.regions g = [] := by
  intro g hg
  have g1 := congrArg Tile.meadow h.tile
  dsimp only [Tile.besidesUnit] at g1
  rw [g1] at hg
  have : v.regions g = s.regions g := by rw [State.eq_of_besidesTiles h.module]; rfl
  rw [this]; exact hr g hg

theorem State.UnitKin.stalls {s v : State} {p : Nat} (h : s.UnitKin v p) (c : Chunk) : v.chunkStalls p c = s.chunkStalls p c := by
  have g3 := congrArg Tile.ranges h.tile
  dsimp only [Tile.besidesUnit] at g3
  unfold State.chunkStalls Tile.anyRange Tile.rangesAt Tile.range
  rw [g3]

/-- Chunks clean on the operands as they stood, whose results touch no operand of a later chunk: those before the first that waits run and
write their results. -/
theorem Exec.run_kin {β : Type} {s v : State} {p : Nat} {o : UnitOp} {f : β → State → Chunk} {R : β → List (Nat × Nat)} {rows : Exec → β → Nat}
    (hk : s.UnitKin v p) (hr : ∀ g, (s.tile p).meadow = some g → s.regions g = [])
    (l : List β) (hf : ∀ b ∈ l, ∀ (u v : State),
      (∀ e ∈ R b, ∀ a, e.1 ≤ a → a < e.1 + e.2 → (v.tile p).cistern.read a = (u.tile p).cistern.read a) → f b v = f b u)
    (hcl : ∀ b ∈ l, s.chunkClean p (f b s) ∧ (f b s).outs = [])
    (hpw : l.Pairwise fun b c => ∀ w ∈ (f b s).writes, apartFrom w (R c)) :
    let y := l.foldl (fun (x : Exec) b => x.run p o (f b) (rows x b)) (o.exec v)
    let d := (l.map fun b => f b s).takeWhile fun c => !s.chunkStalls p c
    y.abort = 0 ∧ (y.stalled = true ↔ d ≠ l.map fun b => f b s) ∧ y.next = o.next + d.length ∧ y.cbuf = o.cbuf ∧
      y.stats = d.foldl (fun (st : Stats) c => st.plus c.stats) o.stats ∧ y.blocks = d.foldl (fun n c => n + c.blocks) o.doneBlocks ∧
      v.TileIs y.s p ((v.tile p).puts (d.flatMap (·.writes))) := by
  have e : ∀ b ∈ l, f b v = f b s := fun b hb => hf b hb s v fun _ _ a _ _ => by rw [hk.cistern]
  have hcl' : ∀ b ∈ l, v.chunkClean p (f b v) ∧ (f b v).outs = [] := by
    intro b hb
    obtain ⟨⟨h1, h2, h3⟩, h4⟩ := hcl b hb
    rw [e b hb]
    exact ⟨⟨fun x hx => by rw [hk.readAbort, hk.poison]; exact h1 x hx, fun x hx => by rw [hk.strict]; exact h2 x hx, h3⟩, h4⟩
  obtain ⟨r1, r2, r3, r4, r5, r6, r7⟩ := Exec.run_all (u := v) (p := p) (o := o) (f := f) (R := R) (rows := rows) (hk.regions hr) l
    (fun b hb u T hu hrd => hf b hb v u fun x hx a h1 h2 => by rw [hu.tile]; exact hrd x hx a h1 h2)
    (o.exec v) (v.tile p) (v.tileIs_self p) rfl rfl rfl (fun _ _ h => h) hcl' (fun _ _ _ _ _ _ _ => rfl)
    (hpw.imp_of_mem fun {b c} hb _ h => by rw [e b hb]; exact h)
  have hd : ∃ d', (l.takeWhile fun b => !v.chunkStalls p (f b v)) = d' ∧ d'.map (fun b => f b v) = (l.map fun b => f b s).takeWhile fun c => !s.chunkStalls p c := by
    refine ⟨_, rfl, ?_⟩
    rw [← List.map_congr_left e, List.takeWhile_map]
    congr 1
    congr 1
    funext b
    exact congrArg (!·) (hk.stalls _)
  have hlm : ((l.takeWhile fun b => !v.chunkStalls p (f b v)) ≠ l) ↔ ((l.map fun b => f b s).takeWhile fun c => !s.chunkStalls p c) ≠ l.map fun b => f b s := by
    obtain ⟨d', h1, h2⟩ := hd
    have hpre : (l.takeWhile fun b => !v.chunkStalls p (f b v)) <+: l := List.takeWhile_prefix _
    rw [← h2, h1, ← List.map_congr_left e]
    apply not_congr
    rw [h1] at hpre
    constructor
    · intro h; rw [h]
    · intro h
      have := congrArg List.length h
      rw [List.length_map, List.length_map] at this
      exact hpre.eq_of_length this
  intro y d
  obtain ⟨d', h1, h2⟩ := hd
  have h2' : d = d'.map fun b => f b v := h2.symm
  rw [h1] at r1 r5 r6 r7
  refine ⟨r2, r4.trans hlm, ?_, r3, ?_, ?_, ?_⟩
  · rw [h2', List.length_map]; exact r5
  · rw [h2', List.foldl_map]; exact r6
  · rw [h2', List.foldl_map]; exact r7
  · rw [h2', List.flatMap_map]; exact r1

/-- An accepted vector operation but VDOT has no scaled B. -/
theorem UnitOp.accepted_sclB {o : UnitOp} {s : State} {p : Nat} (hrf : o.refusal s p false = 0) (hvo : vectorOpcode o.op = true) : o.op ≠ 0x61 → o.sclB = false := by
  intro h61
  have hv : vectorOpcode o.op = true ∧ o.op ≠ 1 ∧ o.op ≠ 2 := ⟨hvo, by intro h; rw [h] at hvo; exact absurd hvo (by decide), by intro h; rw [h] at hvo; exact absurd hvo (by decide)⟩
  unfold UnitOp.refusal at hrf
  have ht : tensorOpcode o.op = false := by unfold tensorOpcode; simp [hv.2.1, hv.2.2]
  rw [if_neg (by rw [hv.1]; simp), if_neg (by rw [ht]; simp)] at hrf
  split at hrf
  · simp at hrf
  rename_i hf
  split at hrf
  · simp at hrf
  split at hrf
  · simp at hrf
  split at hrf
  · simp at hrf
  split at hrf
  · simp at hrf
  split at hrf
  · simp at hrf
  rename_i hres
  split at hrf
  · simp at hrf
  split at hrf
  · simp at hrf
  rename_i hbs
  cases hb : o.sclB with
  | false => rfl
  | true =>
    exfalso
    cases hu : usesB o.op with
    | false => apply hres; unfold UnitOp.badReserved; rw [hu, hb]; simp
    | true =>
      have h60 : o.op ≠ 0x60 := by intro h; rw [h] at hu; exact absurd hu (by decide)
      have h01 : o.fmtB = 0 ∨ o.fmtB = 2 := by
        by_cases h0 : o.fmtB = 0
        · exact Or.inl h0
        by_cases h2 : o.fmtB = 2
        · exact Or.inr h2
        exfalso
        apply hf
        unfold UnitOp.badFormat
        dsimp only
        rw [if_neg hv.2.1, if_neg hv.2.2, if_neg h60, if_neg h61, hu]
        split <;> simp [h0, h2]
      apply hbs
      unfold UnitOp.badScale scalable fmtIsMx
      rw [hb]
      rcases h01 with e | e <;> rw [e] <;> simp

/-! Output blocks. -/

theorem runs16_mem {n : Nat} {x : Nat × Nat} (h : x ∈ runs16 n) : x.1 + x.2 ≤ n := by
  unfold runs16 at h
  rw [List.mem_map] at h
  obtain ⟨b, hb, rfl⟩ := h
  have hb := List.mem_range.1 hb
  unfold ceilDiv at hb
  dsimp only
  omega

theorem blocks_mem {o : UnitOp} {b : (Nat × Nat) × List (Nat × Nat)} (h : b ∈ o.blocks) : b.1.1 + b.1.2 ≤ o.m ∧ ∀ x ∈ b.2, x.1 + x.2 ≤ o.n := by
  unfold UnitOp.blocks at h
  dsimp only at h
  rw [List.mem_flatMap] at h
  obtain ⟨r, hr, hb⟩ := h
  rw [List.mem_map] at hb
  obtain ⟨g, hg, rfl⟩ := hb
  refine ⟨runs16_mem hr, fun x hx => runs16_mem ?_⟩
  split at hg
  · rw [List.mem_map] at hg
    obtain ⟨k, _, rfl⟩ := hg
    exact List.mem_of_mem_drop (List.mem_of_mem_take hx)
  · rw [List.mem_map] at hg
    obtain ⟨k, hk, rfl⟩ := hg
    rw [List.mem_singleton] at hx
    rw [hx]; exact hk

theorem runIdx_mem {r : Nat × Nat} {i : Nat} (h : i ∈ runIdx r) : r.1 ≤ i ∧ i < r.1 + r.2 := by
  unfold runIdx at h
  rw [List.mem_map] at h
  obtain ⟨k, hk, rfl⟩ := h
  have := List.mem_range.1 hk
  omega

theorem blockChunk_congr {o : UnitOp} {reads rows cols} {f g : Nat → Nat → Acc × BlockEnd}
    (h : ∀ i j, rows.1 ≤ i → i < rows.1 + rows.2 → (∃ x ∈ cols, x.1 ≤ j ∧ j < x.1 + x.2) → f i j = g i j) :
    o.blockChunk reads rows cols f = o.blockChunk reads rows cols g := by
  have hfg : ∀ i ∈ runIdx rows, ∀ c ∈ cols, ∀ j ∈ runIdx c, f i j = g i j := by
    intro i hi c hc j hj
    have h1 := runIdx_mem hi
    have h2 := runIdx_mem hj
    exact h i j h1.1 h1.2 ⟨c, hc, h2⟩
  have hp : (cols.map fun c => blockPart (reads c) rows c f) = cols.map fun c => blockPart (reads c) rows c g := by
    apply List.map_congr_left
    intro c hc
    have : ((runIdx rows).flatMap fun i => (runIdx c).map fun j => f i j) = (runIdx rows).flatMap fun i => (runIdx c).map fun j => g i j := by
      rw [List.flatMap_def, List.flatMap_def]
      congr 1
      exact List.map_congr_left fun i hi => List.map_congr_left fun j hj => hfg i hi c hc j hj
    unfold blockPart
    rw [this]
  have ho : ((runIdx rows).map fun i => o.laRow i ((cols.flatMap runIdx).headD 0) ((cols.flatMap runIdx).map fun j => (f i j).2.la)) =
      (runIdx rows).map fun i => o.laRow i ((cols.flatMap runIdx).headD 0) ((cols.flatMap runIdx).map fun j => (g i j).2.la) := by
    apply List.map_congr_left
    intro i hi
    congr 1
    apply List.map_congr_left
    intro j hj
    obtain ⟨c, hc, hj⟩ := List.mem_flatMap.1 hj
    rw [hfg i hi c hc j hj]
  unfold UnitOp.blockChunk
  dsimp only
  rw [hp, ho]

/-! An operation whose C lies in the cistern sends nothing. -/

theorem UnitOp.cOut_outs {o : UnitOp} (h : bit o.cAddr 23 = false) (a : Nat) (b : Bytes) : (o.cOut a b).outs = [] := by
  unfold UnitOp.cOut; rw [h]; rfl

theorem UnitOp.writeRow_outs {o : UnitOp} (h : bit o.cAddr 23 = false) (i j : Nat) (xs : List Num) (inv : Bool) : (o.writeRow i j xs inv).outs = [] := by
  unfold UnitOp.writeRow
  split <;> exact UnitOp.cOut_outs h _ _

theorem UnitOp.laRow_outs {o : UnitOp} (h : bit o.cAddr 23 = false) (i j : Nat) (las : List LA) : (o.laRow i j las).outs = [] := by
  unfold UnitOp.laRow
  split
  · exact UnitOp.cOut_outs h _ _
  · exact UnitOp.writeRow_outs h _ _ _ _

theorem UnitOp.tensorChunk_outs {o : UnitOp} (h : bit o.cAddr 23 = false) (p : Nat) (b) (s : State) : (o.tensorChunk p b s).outs = [] := by
  have hb : ∀ reads rows cols f, (o.blockChunk reads rows cols f).outs = [] := by
    intro reads rows cols f
    unfold UnitOp.blockChunk
    dsimp only
    rw [List.flatMap_map, List.flatMap_eq_nil_iff]
    exact fun i _ => UnitOp.laRow_outs h _ _ _
  unfold UnitOp.tensorChunk
  split <;> exact hb _ _ _ _

theorem UnitOp.rowChunk_outs {o : UnitOp} (h : bit o.cAddr 23 = false) (p i : Nat) (s : State) : (o.rowChunk p i s).outs = [] := by
  have hw := fun i j xs inv => UnitOp.writeRow_outs h (o := o) i j xs inv
  unfold UnitOp.rowChunk
  extract_lets
  repeat' split
  all_goals exact hw _ _ _ _

/-- A chunk of a tensor operation depends only on the operands. -/
theorem UnitOp.tensorChunk_congr {o : UnitOp} {p : Nat} (hop : o.op = 1 ∨ o.op = 2) : ∀ b ∈ o.blocks, ∀ (u v : State),
      (∀ e ∈ o.readExtents, ∀ a, e.1 ≤ a → a < e.1 + e.2 → (v.tile p).cistern.read a = (u.tile p).cistern.read a) →
      o.tensorChunk p b v = o.tensorChunk p b u := by
  intro b hb u v h
  obtain ⟨hm, hcol⟩ := blocks_mem hb
  have rd : ∀ e ∈ o.readExtents, ∀ off len, e.1 ≤ off → off + len ≤ e.1 + e.2 → v.cisternRead p off len = u.cisternRead p off len := by
    intro e he off len h1 h2
    exact State.cisternRead_congr fun a h3 h4 => h e he a (by omega) (by omega)
  have hseed : (o.op = 2 ∨ o.op = 1 ∧ o.start = 1) → ∀ i j, i < o.m → j < o.n → v.seedRecord p o i j = u.seedRecord p o i j := by
    intro hs i j hi hj
    unfold State.seedRecord
    have hmul : (i + 1) * o.n ≤ o.m * o.n := Nat.mul_le_mul_right _ (by omega)
    rw [Nat.add_mul] at hmul
    have h32 : 32 * o.m * o.n = 32 * (o.m * o.n) := Nat.mul_assoc _ _ _
    rw [rd (o.seed, 32 * o.m * o.n) (by unfold UnitOp.readExtents; simp [hs]) _ _ (by simp) (by dsimp only; omega)]
  have hcell : ∀ i j, i < o.m → j < o.n → o.op = 1 → v.aValues p o i = u.aValues p o i ∧ v.bValues p o j = u.bValues p o j := by
    intro i j hi hj h1
    have ua : usesA o.op = true := by rw [h1]; rfl
    have ub : usesB o.op = true := by rw [h1]; rfl
    have es : o.bShape = (o.n, o.k) := by unfold UnitOp.bShape; rw [if_pos (Or.inl h1)]
    have hmul : ∀ x, i * x + x ≤ o.m * x := fun x => by
      have := Nat.mul_le_mul_right x (show i + 1 ≤ o.m by omega)
      rw [Nat.add_mul] at this; omega
    have hmul1 : ∀ x, i * x ≤ (o.m - 1) * x := fun x => Nat.mul_le_mul_right x (by omega)
    have hmul2 : ∀ x, j * x + x ≤ o.n * x := fun x => by
      have := Nat.mul_le_mul_right x (show j + 1 ≤ o.n by omega)
      rw [Nat.add_mul] at this; omega
    have hmul3 : ∀ x, j * x ≤ (o.n - 1) * x := fun x => Nat.mul_le_mul_right x (by omega)
    constructor
    · unfold State.aValues
      dsimp only
      congr 1
      · apply State.operandRow_congr
        intro hb3
        refine rd (rowsExtent o.aAddr o.aStride o.m o.aRow) (by unfold UnitOp.readExtents; simp [ua, hb3]) _ _ ?_ ?_
        · unfold rowsExtent; simp
        · unfold rowsExtent
          dsimp only
          rw [if_neg (by omega)]
          have := hmul1 o.aStride
          omega
      · split
        · rename_i hs
          congr 1
          refine rd (o.scaA, o.m * scaleRow o.fmtA o.aLen) (by unfold UnitOp.readExtents; simp [hs]) _ _ (by simp) ?_
          dsimp only
          have := hmul (scaleRow o.fmtA o.aLen)
          omega
        · rfl
    · unfold State.bValues
      dsimp only
      rw [es]
      congr 1
      · apply State.operandRow_congr
        intro hb3
        refine rd (rowsExtent o.bAddr o.bStride o.n o.bRow) (by unfold UnitOp.readExtents; rw [es]; simp [ub, hb3]) _ _ ?_ ?_
        · unfold rowsExtent; simp
        · unfold rowsExtent
          dsimp only
          rw [if_neg (by omega)]
          have := hmul3 o.bStride
          omega
      · split
        · rename_i hs
          congr 1
          refine rd (o.scaB, o.n * scaleRow o.fmtB o.k) (by unfold UnitOp.readExtents; rw [es]; simp [hs]) _ _ (by simp) ?_
          dsimp only
          have := hmul2 (scaleRow o.fmtB o.k)
          omega
        · rfl
  unfold UnitOp.tensorChunk
  rcases hop with h1 | h2
  · rw [if_pos h1, if_pos h1]
    unfold UnitOp.matmulChunk
    apply blockChunk_congr
    intro i j hi1 hi2 ⟨x, hx, hj1, hj2⟩
    have hj := hcol x hx
    obtain ⟨e1, e2⟩ := hcell i j (by omega) (by omega) h1
    rw [e1, e2]
    by_cases hs : o.start = 1
    · rw [hseed (Or.inr ⟨h1, hs⟩) i j (by omega) (by omega)]
    · rw [if_neg hs, if_neg hs]
  · rw [if_neg (by rw [h2]; decide), if_neg (by rw [h2]; decide)]
    unfold UnitOp.lacvtChunk
    apply blockChunk_congr
    intro i j hi1 hi2 ⟨x, hx, hj1, hj2⟩
    have hj := hcol x hx
    rw [hseed (Or.inl h2) i j (by omega) (by omega)]

/-- A clean operation runs until it stalls, or to its end. -/
theorem State.UnitKin.run_clean {s v : State} {p : Nat} {tensor : Bool} {o : UnitOp} (hk : s.UnitKin v p) (h : s.CleanOp p tensor o) :
    let x := if tensor then o.runTensor p v else o.runVector p v
    let d := s.doneChunks p tensor o
    x.abort = 0 ∧ (x.stalled = true ↔ d ≠ s.opChunks p tensor o) ∧ x.next = o.next + d.length ∧ x.cbuf = o.cbuf ∧
      x.stats = d.foldl (fun st c => st.plus c.stats) o.stats ∧ x.blocks = d.foldl (fun n c => n + c.blocks) o.doneBlocks ∧
      v.TileIs x.s p ((v.tile p).puts (d.flatMap (·.writes))) := by
  have hp := UnitOp.plain h.streams
  obtain ⟨ha, hst, hr, hcl, hap⟩ := h
  cases tensor with
  | true =>
    have hop : o.op = 1 ∨ o.op = 2 := by
      unfold UnitOp.refusal at ha
      by_cases h1 : (!vectorOpcode o.op && !tensorOpcode o.op) = true
      · rw [if_pos h1] at ha; cases ha
      rw [if_neg h1] at ha
      by_cases h2 : (tensorOpcode o.op != true) = true
      · rw [if_pos h2] at ha; split at ha <;> cases ha
      · unfold tensorOpcode at h2; simp at h2; omega
    have hcs : s.opChunks p true o = (o.blocks.drop o.next).map fun b => o.tensorChunk p b s := by
      unfold State.opChunks; rw [if_pos rfl, List.map_drop]
    unfold State.doneChunks
    rw [hcs] at hcl hap ⊢
    have hsub : ∀ {b}, b ∈ o.blocks.drop o.next → b ∈ o.blocks := fun h => List.mem_of_mem_drop h
    exact Exec.run_kin (f := fun b v => o.tensorChunk p b v) (R := fun _ => o.readExtents) (rows := fun x b =>
        let last := (b.2.getLastD (0, 0))
        if last.1 + last.2 = o.n then b.1.1 + b.1.2 else x.rows) (o := o) hk hr (o.blocks.drop o.next)
      (fun b hb => UnitOp.tensorChunk_congr hop b (hsub hb))
      (fun b hb => ⟨hcl _ (List.mem_map.2 ⟨b, hb, rfl⟩), UnitOp.tensorChunk_outs hp.2.2.2.1 _ _ _⟩)
      (by
        apply List.Pairwise.imp_of_mem (R := fun _ _ => True)
        · intro b c hb _ _ x hx
          exact hap _ (List.mem_map.2 ⟨b, hb, rfl⟩) x hx
        · exact List.pairwise_of_forall (fun _ _ => trivial))
  | false =>
    have hvo : vectorOpcode o.op = true := by
      have ha := ha
      unfold UnitOp.refusal at ha
      by_cases h1 : (!vectorOpcode o.op && !tensorOpcode o.op) = true
      · rw [if_pos h1] at ha; cases ha
      rw [if_neg h1] at ha
      by_cases h2 : (tensorOpcode o.op != false) = true
      · rw [if_pos h2] at ha; split at ha <;> cases ha
      · simp at h2; rw [h2] at h1; simpa using h1
    have hcs : s.opChunks p false o = ((List.range o.m).drop o.next).map fun i => o.rowChunk p i s := by
      unfold State.opChunks; rw [if_neg (by simp), List.map_drop]
    unfold State.doneChunks
    rw [hcs] at hcl hap ⊢
    exact Exec.run_kin (f := fun i v => o.rowChunk p i v) (R := o.rowNeeds) (rows := fun _ i => i + 1) (o := o) hk hr
      ((List.range o.m).drop o.next) (fun i hi u v h => UnitOp.rowChunk_congr (UnitOp.accepted_sclB ha hvo) h)
      (fun b hb => ⟨hcl _ (List.mem_map.2 ⟨b, hb, rfl⟩), UnitOp.rowChunk_outs hp.2.2.2.1 _ _ _⟩)
      (by
        apply List.Pairwise.imp_of_mem (R := fun _ _ => True)
        · intro b c hb hc _ x hx e he
          exact hap _ (List.mem_map.2 ⟨b, hb, rfl⟩) x hx e (List.mem_flatMap.2 ⟨c, List.mem_of_mem_drop hc, he⟩)
        · exact List.pairwise_of_forall (fun _ _ => trivial))

theorem bool_ne {a b : Bool} (h : ¬ a = b) : a = !b := by cases a <;> cases b <;> simp_all

/-- Taking a message: it leaves its well, and the operation is refused, started or held. -/
theorem takeOp_taken {s : State} {p w : Nat} {tensor : Bool} {m : WellMsg} {rest : List WellMsg} {accept : Nat → Bool}
    (ht : s.TakesNext p tensor w m rest) (ha : accept (UnitOp.ofMsg m).op = true)
    (hw : ∀ n, (UnitOp.ofMsg m).writePort = some n → (s.tile p).stream.stopped.contains n = false) (hsh : (s.tile p).shadow.assigned = none) :
    ∃ s1, s.UnitKin s1 p ∧ (s1.tile p).unit tensor = { (s.tile p).unit tensor with lastWell := w } ∧
      (s1.tile p).unit (!tensor) = (s.tile p).unit (!tensor) ∧
      (∀ n, (s1.tile p).well n = if n = w then { (s.tile p).well w with msgs := rest, lastTaken := s.now } else (s.tile p).well n) ∧
      takeOp p tensor accept s =
        (let o := UnitOp.ofMsg m
         let r := o.refusal s p tensor
         let first := ((s.tile p).unit tensor).exec.isNone
         let a := if r ≠ 0 then s1.refuseOp p o r else if first then s1.tryRun p tensor o else (s1, o)
         .next ((a.1.setOp p tensor first a.2).streamsGo p)) := by
  unfold takeOp
  dsimp only
  rw [ht.well]
  dsimp only
  rw [ht.msgs]
  dsimp only
  generalize ho : UnitOp.ofMsg m = o at *
  rw [ha, ht.works, ht.waiting, ht.held]
  rw [if_neg (by
    cases hwp : o.writePort with
    | none => simp
    | some n => have h1 := hw n hwp; dsimp only; rw [h1]; simp)]
  generalize hs1 : (s.modTile p fun t => (t.modWell w fun x => x.take s.now).modUnit tensor fun u => { u with lastWell := w }) = s1
  have e1 : s1.tile p = ((s.tile p).modWell w fun x => x.take s.now).modUnit tensor fun u => { u with lastWell := w } := by
    rw [← hs1, State.tile_modTile_self]
  have e2 : ∀ q, q ≠ p → s1.tile q = s.tile q := fun q hq => by rw [← hs1, State.tile_modTile, if_neg hq]
  have e3 : s1.besidesTiles = s.besidesTiles := by rw [← hs1]; rfl
  clear hs1
  have hbes : (s1.tile p).besidesUnit = (s.tile p).besidesUnit := by rw [e1, Tile.besidesUnit_modUnit]; rfl
  have hcis : (s1.tile p).cistern = (s.tile p).cistern := by rw [e1, Tile.cistern_modUnit]; rfl
  have hecc : (s1.tile p).ecc = (s.tile p).ecc := by rw [e1]; cases tensor <;> rfl
  have hk1 : s.UnitKin s1 p := ⟨e2, e3, hbes, hcis, hecc⟩
  have hunit : (s1.tile p).unit tensor = { (s.tile p).unit tensor with lastWell := w } := by
    rw [e1, Tile.unit_modUnit]; cases tensor <;> rfl
  dsimp only at hunit
  rw [ht.waiting, ht.held] at hunit
  refine ⟨s1, hk1, hunit, ?_, ?_, ?_⟩
  · rw [e1, Tile.unit_modUnit_ne]; cases tensor <;> rfl
  · intro n
    have : (s1.tile p).well n = ((s.tile p).modWell w fun x => x.take s.now).well n := by
      rw [e1]; unfold Tile.well; rw [Tile.wells_modUnit]
    rw [this, Tile.well_modWell]
    unfold Well.take
    rw [ht.msgs]; rfl
  · have hsel : s1.shadowSelect p tensor o = (s1, o) := by
      unfold State.shadowSelect
      dsimp only
      have : (s1.tile p).shadow.assigned = none := by
        have h := congrArg Tile.shadow hbes
        dsimp only [Tile.besidesUnit] at h
        rw [h, hsh]
      rw [this]; simp
    rw [hsel, hk1.refusal]

/-- The command of an operation's row is the taking of such operations. -/
theorem takesOp.accept {c : Instr} {p : Phys} {tensor : Bool} {op : Nat} {s : State} (h : takesOp c p tensor op) :
    ∃ accept, accept op = true ∧ exec c s = takeOp p tensor accept s := by
  rcases h with ⟨rfl, h⟩ | ⟨rfl, h⟩
  · rcases h with ⟨rfl, h⟩ | ⟨rfl, h⟩
    · exact ⟨_, by simpa using h, exec_matmul ..⟩
    · exact ⟨_, by simpa using h, exec_lacvt ..⟩
  · repeat' (refine Or.elim h ?_ ?_ <;> clear h <;> intro h)
    all_goals obtain ⟨rfl, h⟩ := h
    · exact ⟨_, by simpa using h, exec_vadd ..⟩
    · exact ⟨_, by simpa using h, exec_vsub ..⟩
    · exact ⟨_, by simpa using h, exec_vmul ..⟩
    · exact ⟨_, by simpa using h, exec_vfma ..⟩
    · exact ⟨_, by simpa using h, exec_vmax ..⟩
    · exact ⟨_, by simpa using h, exec_vmin ..⟩
    · exact ⟨_, by simpa using h, exec_vscale ..⟩
    · exact ⟨_, by simpa using h, exec_vadds ..⟩
    · exact ⟨_, by simpa using h, exec_vabs ..⟩
    · exact ⟨_, by simpa using h, exec_vneg ..⟩
    · exact ⟨_, by simpa using h, exec_vexp2 ..⟩
    · exact ⟨_, by simpa using h, exec_vexp ..⟩
    · exact ⟨_, by simpa using h, exec_vlog2 ..⟩
    · exact ⟨_, by simpa using h, exec_vlog ..⟩
    · exact ⟨_, by simpa using h, exec_vrcp ..⟩
    · exact ⟨_, by simpa using h, exec_vrsqrt ..⟩
    · exact ⟨_, by simpa using h, exec_rsum ..⟩
    · exact ⟨_, by simpa using h, exec_rmax ..⟩
    · exact ⟨_, by simpa using h, exec_vexpsub ..⟩
    · exact ⟨_, by simpa using h, exec_vmulrow ..⟩
    · exact ⟨_, by simpa using h, exec_cvt ..⟩
    · exact ⟨_, by simpa using h, exec_vdot ..⟩

/-- How a clean operation stands after it has run on. -/
structure State.RanOn (s : State) (p : Nat) (tensor : Bool) (o o' : UnitOp) : Prop where
  ended : s.doneChunks p tensor o = s.opChunks p tensor o → o' = o.ran s.now (s.opChunks p tensor o)
  stalled : s.doneChunks p tensor o ≠ s.opChunks p tensor o → ∃ rows, o' = o.paused (s.doneChunks p tensor o) rows

/-- A clean operation runs until it stalls, or is finished. -/
theorem runOp_clean {s v : State} {p : Nat} {tensor : Bool} {o : UnitOp} (hk : s.UnitKin v p) (h : s.CleanOp p tensor o) (h1 : o.reason = 0)
    (h2 : o.shadowed = false) (h3 : o.out = []) (ph : OpPhase) :
    ∃ y o', v.runOp p tensor { o with phase := ph } = (y, o') ∧ s.RanOn p tensor o o' ∧
      v.TileIs y p ((v.tile p).puts ((s.doneChunks p tensor o).flatMap (·.writes))) := by
  obtain ⟨r1, r2, r3, r4, r5, r6, r7⟩ := hk.run_clean h
  have hr := runOp_plain (v := v) (p := p) (tensor := tensor) ph h.streams h1 h2 h3 r1
  have hnowv : v.now = s.now := by rw [State.eq_of_besidesTiles hk.module]
  generalize (if tensor then o.runTensor p v else o.runVector p v) = x at *
  refine ⟨_, _, hr, ⟨fun hd => ?_, fun hd => ?_⟩, r7⟩
  · have : x.stalled = false := by
      cases hx : x.stalled with
      | false => rfl
      | true => exact absurd hd (r2.1 hx)
    rw [this, if_neg (by simp), r5, r6, hnowv, hd]
    rfl
  · rw [if_pos (r2.2 hd), r3, r4, r5, r6]
    exact ⟨x.rows, rfl⟩

/-- Putting an operation in its place in a state `v` whose tile is `T`. -/
theorem place_spec {s v : State} {p : Nat} {T : Tile} {tensor first : Bool} {o' : UnitOp} (hv : s.TileIs v p T) (hT : T.sameRest (s.tile p))
    (hpl : s.PlaneIdle p) (h1 : o'.out = []) (h2 : ¬ (o'.phase = .stalled ∧ o'.streams = true)) :
    let t := v.setOp p tensor first o'
    let u := (s.tile p).unit tensor
    t.streamsGo p = t ∧ (t.tile p).unit tensor = (if first then { u with exec := some o' } else { u with waiting := some o' }) ∧
      (t.tile p).unit (!tensor) = (s.tile p).unit (!tensor) ∧ (t.tile p).cistern = T.cistern ∧
      { (t.tile p).besidesUnit with wells := (s.tile p).wells } = { (s.tile p).besidesUnit with wells := (s.tile p).wells } ∧ (t.tile p).wells = (s.tile p).wells ∧
      (∀ q, q ≠ p → t.tile q = s.tile q) ∧ t.besidesTiles = s.besidesTiles := by
  intro t u
  have y1 : t.tile p = T.modUnit tensor fun u => if first then { u with exec := some o' } else { u with waiting := some o' } := by
    show (v.setOp p tensor first o').tile p = _
    unfold State.setOp; rw [State.tile_modTile_self, hv.tile]
  have hu : ∀ b, T.unit b = (s.tile p).unit b := by
    intro b
    have g1 := congrArg Tile.tensor hT
    have g2 := congrArg Tile.vector hT
    dsimp only at g1 g2
    unfold Tile.unit
    rw [g1, g2]
  have y3 : (t.tile p).unit tensor = (if first then { u with exec := some o' } else { u with waiting := some o' }) := by
    rw [y1, Tile.unit_modUnit, hu]
  have y4 : (t.tile p).unit (!tensor) = (s.tile p).unit (!tensor) := by rw [y1, Tile.unit_modUnit_ne, hu]
  have y6 : (t.tile p).besidesUnit = (s.tile p).besidesUnit := by
    rw [y1, Tile.besidesUnit_modUnit]
    have g := congrArg Tile.besidesUnit hT
    have e : ∀ t : Tile, ({ t with cistern := [], ecc := {}, dirty := [] } : Tile).besidesUnit = t.besidesUnit := fun _ => rfl
    rw [e, e] at g
    exact g
  refine ⟨?_, y3, y4, by rw [y1, Tile.cistern_modUnit], by rw [y6], ?_, ?_, hv.module⟩
  · have hstr : (t.tile p).stream = (s.tile p).stream := by
      have h := congrArg Tile.stream y6
      dsimp only [Tile.besidesUnit] at h; exact h
    apply State.streamsGo_idle
    · rw [hstr, hpl.slack]
    · rw [hstr, hpl.sinks]
    · rw [hstr, hpl.pipes]
    · refine State.relaysIdle_of hpl.relays fun q => ?_
      by_cases hq : q = p
      · have h := congrArg Tile.relays y6
        dsimp only [Tile.besidesUnit] at h
        rw [hq, h]
      · show ((v.setOp p tensor first o').tile q).relays = _
        unfold State.setOp; rw [State.tile_modTile, if_neg hq, hv.tiles q hq]
    · intro b z hz
      have old : ((s.tile p).unit b).exec = some z → ¬ (z.phase = .stalled ∧ z.streams = true) ∧ z.out = [] := by
        intro h
        obtain ⟨z1, z2⟩ := hpl.units b z (Or.inl h)
        exact ⟨by rw [z1]; simp, z2⟩
      by_cases hb : b = tensor
      · subst hb
        rw [y3] at hz
        cases first with
        | true => have : some o' = some z := hz; cases this; exact ⟨h2, h1⟩
        | false => exact old hz
      · have hb' := bool_ne hb
        subst hb'
        rw [y4] at hz; exact old hz
  · have g := congrArg Tile.wells hT
    dsimp only at g
    rw [y1, Tile.wells_modUnit, g]
  · intro q hq
    show (v.setOp p tensor first o').tile q = _
    unfold State.setOp; rw [State.tile_modTile, if_neg hq, hv.tiles q hq]

/-- Starting a clean operation runs it until it stalls, or to its end. -/
theorem tryRun_clean {s : State} {p : Nat} {tensor : Bool} {o : UnitOp} (h : s.CleanOp p tensor o) (h1 : o.reason = 0) (h2 : o.shadowed = false) (h3 : o.out = []) :
    ∃ v T o', s.tryRun p tensor o = (v, o') ∧ s.RanOn p tensor o o' ∧ s.TileIs v p T ∧ T.sameRest (s.tile p) ∧
      T.cistern = ((s.doneChunks p tensor o).flatMap (·.writes)).foldl (fun m w => m.writeBytes w.1 w.2) (s.tile p).cistern := by
  unfold State.tryRun
  rw [Tile.pull_plain h.streams]
  dsimp only
  have hfed : UnitOp.fed { o with phase := .stalled } = true := UnitOp.fed_plain h.streams
  have hself : s.TileIs (s.setTile p (s.tile p)) p (s.tile p) := (s.tileIs_self p).set
  generalize s.setTile p (s.tile p) = v at *
  rw [hfed, if_neg (by simp)]
  have hk : s.UnitKin v p := ⟨hself.tiles, hself.module, by rw [hself.tile], by rw [hself.tile], by rw [hself.tile]⟩
  obtain ⟨y, o', y1, y2, y3⟩ := runOp_clean hk h h1 h2 h3 .stalled
  exact ⟨y, _, o', y1, y2, ⟨y3.tile, fun q hq => (y3.tiles q hq).trans (hself.tiles q hq), y3.module.trans hself.module⟩,
    (Tile.puts_rest _ _).trans (by rw [hself.tile]), by rw [Tile.puts_cistern, hself.tile]⟩

/-- Tile `p` but for its sequencer, its counters and its power state, and every other tile, are the same. -/
structure State.CountKin (s v : State) (p : Nat) : Prop where
  tiles : ∀ q, q ≠ p → v.tile q = s.tile q
  tile : ({ (v.tile p).beside with counters := [] } : Tile) = { (s.tile p).beside with counters := [] }

theorem State.CountKin.rfl' (s : State) (p : Nat) : s.CountKin s p := ⟨fun _ _ => rfl, rfl⟩
theorem State.CountKin.trans {s v w : State} {p : Nat} (h : s.CountKin v p) (h' : v.CountKin w p) : s.CountKin w p :=
  ⟨fun q hq => (h'.tiles q hq).trans (h.tiles q hq), h'.tile.trans h.tile⟩
theorem State.CountKin.ite {s a b : State} {p : Nat} {c : Prop} [Decidable c] (h : s.CountKin a p) (h' : s.CountKin b p) : s.CountKin (if c then a else b) p := by
  split
  · exact h
  · exact h'
theorem State.CountKin.mod {s : State} {p : Nat} {f : Tile → Tile} (h : ∀ t : Tile, ({ (f t).beside with counters := [] } : Tile) = { t.beside with counters := [] }) :
    s.CountKin (s.modTile p f) p :=
  ⟨fun q hq => by rw [State.tile_modTile, if_neg hq], by rw [State.tile_modTile_self]; exact h _⟩
theorem State.CountKin.raise (s : State) (r : Report) (p : Nat) : s.CountKin (s.raise r) p :=
  ⟨fun q _ => State.raise_tile _ _ _, by rw [State.raise_tile]⟩
theorem State.CountKin.wake (s : State) (p : Nat) : s.CountKin (s.wakeTasks p) p := by
  obtain ⟨w1, w2, -⟩ := s.wakeTasks_spec p
  exact ⟨w1, by rw [w2]⟩

theorem counterTerminal_tile (s : State) (p n : Nat) : s.CountKin (s.counterTerminal p n) p := by
  unfold State.counterTerminal
  dsimp only
  refine .trans (.trans (.mod ?_) (.ite (.raise _ _ _) (.rfl' _ _))) (.ite (.wake _ _) (.rfl' _ _))
  intro t
  split
  · have hz : ({ (t.modCounter n Counter.terminate).beside with counters := [] } : Tile) = { t.beside with counters := [] } := rfl
    generalize t.modCounter n Counter.terminate = z at *
    rw [← hz]
    unfold Tile.beside
    rw [(Tile.latch_spec z 0x200).1]
  · rfl

theorem Tile.counter_modCounter (t : Tile) (n m : Nat) (f : Counter → Counter) : (t.modCounter n f).counter m = if m = n then f (t.counter n) else t.counter m := by
  unfold Tile.modCounter Tile.counter; dsimp only; rw [Tbl.get_put]

theorem Tile.counter_of_beside {a b : Tile} (h : a.beside = b.beside) (m : Nat) : a.counter m = b.counter m := by
  have := congrArg Tile.counters h; unfold Tile.counter; exact congrArg (fun x => Tbl.get {} x m) this
theorem Tile.counter_of_besides {a b : Tile} (h : a.besides = b.besides) (m : Nat) : a.counter m = b.counter m := by
  have := congrArg Tile.counters h; unfold Tile.counter; exact congrArg (fun x => Tbl.get {} x m) this

/-- What taking a terminal does in its tile (R145): its counter ends, and tasks that do not wait may find the event pending. -/
theorem State.counterTerminal_spec (s : State) (p n : Nat) :
    (∀ m, ((s.counterTerminal p n).tile p).counter m = if m = n then ((s.tile p).counter n).terminate else (s.tile p).counter m) ∧
    ∀ j < 16, ((s.tile p).task j).state ≠ .waiting →
      ({ ((s.counterTerminal p n).tile p).task j with pend := 0 } : Task) = { (s.tile p).task j with pend := 0 } := by
  have key : ∀ (f : Tile → Tile) (b c : Prop) [Decidable b] [Decidable c] (r : State → State), (∀ z q, (r z).tile q = z.tile q) →
      let u := s.modTile p f
      let v := if b then r u else u
      let w := if c then v.wakeTasks p else v
      (∀ m, (w.tile p).counter m = (f (s.tile p)).counter m) ∧ ∀ j, ((f (s.tile p)).task j).state ≠ .waiting → (w.tile p).task j = (f (s.tile p)).task j := by
    intro f b c _ _ r hr u v w
    have hv : ∀ q, v.tile q = u.tile q := by
      intro q; show (if b then r u else u).tile q = _; split
      · exact hr _ _
      · rfl
    have hu : u.tile p = f (s.tile p) := State.tile_modTile_self _ _ _
    show (∀ m, ((if c then v.wakeTasks p else v).tile p).counter m = _) ∧ ∀ j, _ → ((if c then v.wakeTasks p else v).tile p).task j = _
    split
    · obtain ⟨-, w2, w3⟩ := v.wakeTasks_spec p
      rw [hv, hu] at w2 w3
      exact ⟨Tile.counter_of_beside w2, w3⟩
    · rw [hv, hu]; exact ⟨fun _ => rfl, fun _ _ => rfl⟩
  unfold State.counterTerminal
  dsimp only
  obtain ⟨k1, k2⟩ := key (fun t => if ((s.tile p).counter n).wake then (t.modCounter n Counter.terminate).latch 0x200 else t.modCounter n Counter.terminate)
    (((s.tile p).counter n).opcode ≠ 0 ∧ ((s.tile p).counter n).pending = 255) (((s.tile p).counter n).wake = true) (fun z => z.raiseTile p 0x0205 n)
    (fun z q => State.raise_tile _ _ _)
  have hf : (∀ m, (if ((s.tile p).counter n).wake = true then ((s.tile p).modCounter n Counter.terminate).latch 0x200 else (s.tile p).modCounter n Counter.terminate).counter m =
      if m = n then ((s.tile p).counter n).terminate else (s.tile p).counter m) ∧
      ∀ j < 16, ({ (if ((s.tile p).counter n).wake = true then ((s.tile p).modCounter n Counter.terminate).latch 0x200 else (s.tile p).modCounter n Counter.terminate).task j with pend := 0 } : Task) =
        { (s.tile p).task j with pend := 0 } := by
    obtain ⟨l1, -, l3⟩ := ((s.tile p).modCounter n Counter.terminate).latch_spec 0x200
    split
    · refine ⟨fun m => ?_, fun j hj => ?_⟩
      · rw [← Tile.counter_modCounter]
        exact Tile.counter_of_besides l1 m
      · rw [l3 j hj]; split <;> rfl
    · exact ⟨fun m => Tile.counter_modCounter _ _ _ _, fun j _ => rfl⟩
  refine ⟨fun m => (k1 m).trans (hf.1 m), fun j hj hw => ?_⟩
  have h1 := hf.2 j hj
  have h2 : ((if ((s.tile p).counter n).wake = true then ((s.tile p).modCounter n Counter.terminate).latch 0x200 else (s.tile p).modCounter n Counter.terminate).task j).state = ((s.tile p).task j).state := by
    have := congrArg Task.state h1; exact this
  rw [← h1]
  exact congrArg (fun x : Task => ({ x with pend := 0 } : Task)) (k2 j (by rw [h2]; exact hw))

/-- Terminals taken before the counters change (R145). -/
theorem State.takeTerminals_spec (s : State) (p : Nat) :
    s.CountKin (s.takeTerminals p) p ∧
    (∀ m < 16, ((s.takeTerminals p).tile p).counter m = if ((s.tile p).counter m).reached then ((s.tile p).counter m).terminate else (s.tile p).counter m) ∧
    (∀ j < 16, ((s.tile p).task j).state ≠ .waiting →
      ({ ((s.takeTerminals p).tile p).task j with pend := 0 } : Task) = { (s.tile p).task j with pend := 0 }) ∧
    ((∀ m < 16, ((s.tile p).counter m).reached = false) → s.takeTerminals p = s) := by
  have key : ∀ (l : List Nat), l.Nodup → ∀ v : State, (∀ m ∈ l, (v.tile p).counter m = (s.tile p).counter m) →
      let w := l.foldl (fun s n => if ((s.tile p).counter n).reached then s.counterTerminal p n else s) v
      v.CountKin w p ∧
      (∀ m, (w.tile p).counter m = if m ∈ l ∧ ((s.tile p).counter m).reached = true then ((s.tile p).counter m).terminate else (v.tile p).counter m) ∧
      (∀ j < 16, ((v.tile p).task j).state ≠ .waiting → ({ (w.tile p).task j with pend := 0 } : Task) = { (v.tile p).task j with pend := 0 }) ∧
      ((∀ m ∈ l, ((s.tile p).counter m).reached = false) → w = v) := by
    intro l
    induction l with
    | nil => intro _ v _; exact ⟨.rfl' _ _, fun m => by simp, fun _ _ _ => rfl, fun _ => rfl⟩
    | cons n l ih =>
      intro hn v hv
      rw [List.nodup_cons] at hn
      obtain ⟨t1, t2⟩ := v.counterTerminal_spec p n
      have hvn := hv n (by simp)
      dsimp only
      rw [List.foldl_cons, hvn]
      by_cases hr : ((s.tile p).counter n).reached = true
      · rw [if_pos hr]
        obtain ⟨i1, i2, i3, i4⟩ := ih hn.2 (v.counterTerminal p n) fun m hm => by
          rw [t1, if_neg (by rintro rfl; exact hn.1 hm)]; exact hv m (List.mem_cons_of_mem _ hm)
        refine ⟨(counterTerminal_tile v p n).trans i1, fun m => ?_, fun j hj hw => ?_, fun h => absurd hr (by rw [h n (by simp)]; simp)⟩
        · rw [i2, t1]
          by_cases hm : m = n
          · subst hm; rw [if_neg (by simp [hn.1]), if_pos rfl, if_pos ⟨by simp, hr⟩, hvn]
          · simp [hm]
        · have h2 := t2 j hj hw
          have hs : (((v.counterTerminal p n).tile p).task j).state = ((v.tile p).task j).state := by have := congrArg Task.state h2; exact this
          rw [i3 j hj (by rw [hs]; exact hw), h2]
      · rw [if_neg hr]
        obtain ⟨i1, i2, i3, i4⟩ := ih hn.2 v fun m hm => hv m (List.mem_cons_of_mem _ hm)
        refine ⟨i1, fun m => ?_, i3, fun h => i4 fun m hm => h m (List.mem_cons_of_mem _ hm)⟩
        rw [i2]
        by_cases hm : m = n
        · subst hm; simp [hr]
        · simp [hm]
  obtain ⟨k1, k2, k3, k4⟩ := key (List.range 16) List.nodup_range s fun _ _ => rfl
  refine ⟨k1, fun m hm => ?_, k3, fun h => k4 fun m hm => h m (List.mem_range.mp hm)⟩
  refine (k2 m).trans ?_
  simp [List.mem_range.mpr hm]

theorem countUp_tile (s : State) (p n : Nat) : s.CountKin (s.countUp p n) p := by
  unfold State.countUp
  dsimp only
  exact .trans (.ite (counterTerminal_tile s p n) (.rfl' _ _)) (.mod fun _ => rfl)

theorem put_rest (t : Tile) (a : Nat) (b : Bytes) : (t.cisternPut a b).sameRest t := rfl
theorem put_cistern (t : Tile) (a : Nat) (b : Bytes) : (t.cisternPut a b).cistern = t.cistern.writeBytes a b := rfl

end Sys2Proof.Machine
end

