-- ==== Sys2Proof/Laws/Pumps.lean ====
section
/-! SUPPORT. The laws of the pumps (R115 to R121): what a run, a packet and the end of a start do. -/

namespace Sys2Proof.Machine

theorem state_mod_pump {s : State} {p n : Nat} (f : Pump → Pump) : (∀ m, ((s.modTile p fun t => t.modPump n f).tile p).pump m = if m = n then f ((s.tile p).pump n) else (s.tile p).pump m) := by
  intro m; rw [State.tile_modTile_self, Tile.pump_modPump]

/-- The bytes of a run from a local source, or of a fill. -/
def srcData (T : Tile) (src : Option Nat) (d : Nat) (x : Int) : Option Bytes :=
  match src with
  | some off => some (T.cistern.readBytes ((off : Int) + x).toNat (dRun d))
  | none => if dMode d = 1 then some (List.replicate (dRun d) 0) else none

/-- A local run: what it does. -/
theorem step_local {s : State} {v : PumpRun} {p n : Nat} {j : PumpJob} {src : Option Nat} {dst : Nat} {sa da} {r : Int × Int} {T : Tile} {bs : Bytes}
    (hv : s.TileIs v.s p T) (he : v.err = 0) (hr : ∀ g, T.meadow = some g → s.regions g = [])
    (hsrc : ∀ off, src = some off → T.poison ((off : Int) + r.1).toNat (dRun j.desc) = 0 ∧ T.anyRange ((off : Int) + r.1).toNat (dRun j.desc) .void = false)
    (hbs : srcData T src j.desc r.1 = some bs) :
    let w := v.step p n j src (some dst) sa da r
    s.TileIs w.s p (T.cisternPut ((dst : Int) + r.2).toNat bs) ∧ w.err = 0 ∧ w.ok = v.ok + dRun j.desc ∧ w.out = v.out := by
  have hw := hv.write hr ((dst : Int) + r.2).toNat bs
  have hdup : ((v.s.cisternWrite p ((dst : Int) + r.2).toNat bs).tile p).ni.dups.drop (v.s.tile p).ni.dups.length = [] := by
    rw [hw.tile, hv.tile]
    have : (T.cisternPut ((dst : Int) + r.2).toNat bs).ni = T.ni := rfl
    rw [this, List.drop_length]
  have hgood : ∀ off, src = some off → (v.s.tile p).goodPart ((off : Int) + r.1).toNat (dRun j.desc) = (dRun j.desc, 0) := by
    intro off ho
    obtain ⟨h1, h2⟩ := hsrc off ho
    unfold Tile.goodPart
    rw [if_pos]
    unfold Tile.pumpReadError
    rw [hv.tile, h1, if_neg (by decide), h2]; rfl
  have pe : (v.step p n j src (some dst) sa da r) = { v with
      s := v.s.cisternWrite p ((dst : Int) + r.2).toNat bs, ok := v.ok + dRun j.desc, pos := v.pos + dRun j.desc } := by
    unfold PumpRun.step
    rw [if_neg (by rw [he]; simp)]
    extract_lets run so g u data before w w2
    have hg : g = (dRun j.desc, 0) := by
      show (if _ then _ else _) = _
      cases src with
      | none => rfl
      | some off => exact hgood off rfl
    have hu : u = v.s := by
      show (if _ then _ else _) = _
      cases src with
      | none => rfl
      | some off => exact (congrArg (fun g : Nat × Nat => v.s.corrected p so g.1) hg).trans (State.corrected_clean (by rw [hv.tile]; exact (hsrc off rfl).1))
    have hd : data = some bs := by
      rw [← hbs]
      show (if _ then _ else _) = _
      unfold srcData
      cases src with
      | none => rfl
      | some off =>
        rw [hg, hu]
        unfold State.cisternRead
        rw [hv.tile]; rfl
    clear_value g u data
    subst hg hu hd
    have hw2 : w = { v with s := v.s.cisternWrite p ((dst : Int) + r.2).toNat bs, ok := v.ok + dRun j.desc, out := v.out ++ ((v.s.cisternWrite p ((dst : Int) + r.2).toNat bs).tile p).ni.dups.drop (v.s.tile p).ni.dups.length } := rfl
    rw [if_pos (Or.inr rfl)]
    show ({ w with pos := v.pos + run } : PumpRun) = _
    rw [hw2, hdup, List.append_nil]
  dsimp only
  rw [pe]
  exact ⟨hw, he, rfl, rfl⟩

theorem step_all {s : State} {p n : Nat} {j : PumpJob} {src : Option Nat} {dst : Nat} {sa da} (hr : ∀ g, (s.tile p).meadow = some g → s.regions g = [])
    (f : Mem → Int → Bytes)
    (hf : ∀ (T : Tile) x, srcData T src j.desc x = some (f T.cistern x)) :
    ∀ (l : List (Int × Int)) (v : PumpRun) (T : Tile), s.TileIs v.s p T → v.err = 0 → T.sameRest (s.tile p) →
      (∀ off len, (s.tile p).poison off len = 0 → T.poison off len = 0) →
      (∀ off, src = some off → ∀ r ∈ l, (s.tile p).poison ((off : Int) + r.1).toNat (dRun j.desc) = 0 ∧
        (s.tile p).anyRange ((off : Int) + r.1).toNat (dRun j.desc) .void = false) →
      let w := l.foldl (fun (v : PumpRun) r => v.step p n j src (some dst) sa da r) v
      ∃ T', s.TileIs w.s p T' ∧ T'.sameRest (s.tile p) ∧ T'.cistern = l.foldl (fun (m : Mem) r => m.writeBytes ((dst : Int) + r.2).toNat (f m r.1)) T.cistern ∧
        w.err = 0 ∧ w.ok = v.ok + l.length * dRun j.desc ∧ w.out = v.out := by
  intro l
  induction l with
  | nil => intro v T h1 h2 h3 _ _; exact ⟨T, h1, h3, rfl, h2, by simp, rfl⟩
  | cons r l ih =>
    intro v T h1 h2 h3 h4 h5
    have hm : T.meadow = (s.tile p).meadow := by have := congrArg Tile.meadow h3; exact this
    obtain ⟨g1, g2, g3, g4⟩ := step_local (n := n) (dst := dst) (sa := sa) (da := da) (r := r) h1 h2 (fun g hg => hr g (hm ▸ hg))
      (fun off ho => by
        obtain ⟨a1, a2⟩ := h5 off ho r (by simp)
        exact ⟨h4 _ _ a1, by rw [h3.anyRange]; exact a2⟩) (hf T r.1)
    obtain ⟨T', i1, i2, i3, i4, i5, i6⟩ := ih (v.step p n j src (some dst) sa da r) _ g1 g2 ((put_rest _ _ _).trans h3)
      (fun off len h => Tile.poison_put (h4 off len h)) (fun off ho x hx => h5 off ho x (List.mem_cons_of_mem _ hx))
    refine ⟨T', i1, i2, ?_, i4, ?_, by rw [List.foldl_cons]; exact i6.trans g4⟩
    · rw [List.foldl_cons, i3]; rfl
    · rw [List.foldl_cons, i5, g3, List.length_cons, Nat.succ_mul]; omega

theorem pumpPacket_spec (s : State) (p n : Nat) (j : PumpJob) (g : Target) (pos len : Nat) (data : Option Bytes) (land want : Nat) :
    ∃ x k0 k, s.pumpPacket p n j g pos len data = (x, s.nextPkt) ∧ x.pkt s.nextPkt = some k0 ∧ k0.h.cls = g.cls ∧
      (x.landAt s.nextPkt land want).pkt s.nextPkt = some k ∧ (∀ m, m ≠ s.nextPkt → (x.landAt s.nextPkt land want).pkt m = s.pkt m) ∧
      k.h.cls = g.cls ∧ k.h.dst = g.dst ∧ k.h.dstKind = g.dstKind ∧
      k.h.addr = g.addr ∧ k.h.flow = n ∧ k.h.tag = s.nextPkt ∧ k.loc = .ni ∧ k.issuer = p ∧
      k.h.op = (if g.reduce then 0x04 else if data.isSome then 0x02 else 0x01) ∧
      k.h.arg0 = (if g.reduce then 1 + fld len 32 else len) ∧ k.data = data.getD [] ∧ k.landing = land ∧ k.want = want ∧
      (∃ q, (x.landAt s.nextPkt land want).tile p = { s.tile p with ni := q }) ∧ (∀ q, q ≠ p → (x.landAt s.nextPkt land want).tile q = s.tile q) := by
  unfold State.pumpPacket
  dsimp only
  rw [State.tileRequest_eq]
  generalize hk : s.requestPkt p _ _ n _ _ _ _ _ s.nextPkt _ _ = k0
  generalize hs1 : (s.modTile p fun t => { t with ni := { t.ni with seqs := t.ni.seqs.put 0 n ((Tbl.get 0 (s.tile p).ni.seqs n + 1) % 65536) } }) = s1
  have e1 : s1.nextPkt = s.nextPkt := by rw [← hs1]; rfl
  have e2 : ∀ m, s1.pkt m = s.pkt m := by rw [← hs1]; exact fun _ => rfl
  have hg : (s1.newPkt k0).pkt s.nextPkt = some k0 := by rw [← e1]; exact State.pkt_newPkt_self _ _
  have hl : (s1.newPkt k0).landAt s.nextPkt land want = (s1.newPkt k0).setPkt s.nextPkt { k0 with landing := land, want } := by
    unfold State.landAt; rw [hg]
  refine ⟨_, k0, { k0 with landing := land, want }, rfl, hg, by rw [← hk]; rfl, ?_, fun m hm => ?_, by rw [← hk]; rfl, by rw [← hk]; rfl, by rw [← hk]; rfl, by rw [← hk]; rfl, by rw [← hk]; rfl, by rw [← hk]; rfl, by rw [← hk]; rfl, by rw [← hk]; rfl, by rw [← hk]; rfl, by rw [← hk]; rfl, by rw [← hk]; rfl, rfl, rfl, ?_, fun q hq => ?_⟩
  · rw [hl]; simp [State.pkt, State.setPkt]
  · rw [hl, State.pkt_setPkt, if_neg hm, State.pkt_newPkt, e1, if_neg hm, e2]
  · rw [hl]
    exact ⟨_, by rw [show ((s1.newPkt k0).setPkt s.nextPkt { k0 with landing := land, want }).tile p = s1.tile p from rfl, ← hs1, State.tile_modTile_self]⟩
  · rw [hl, show ((s1.newPkt k0).setPkt s.nextPkt { k0 with landing := land, want }).tile q = s1.tile q from rfl, ← hs1, State.tile_modTile, if_neg hq]

theorem endStart_spec (T : Tile) (n now : Nat) (j : PumpJob) (read : Bool) (g : PumpJob → PumpJob) :
    let t := ((T.dropDrain read j.srcRange j.stamp).modJobAt n j.stamp g).countWait n now j.blockedAt
    (t.pump n).jobs = (T.pump n).jobs.map (fun k => if k.stamp = j.stamp then g k else k) ∧ t.cistern = T.cistern := by
  have h1 : (T.dropDrain read j.srcRange j.stamp).pump n = T.pump n ∧ (T.dropDrain read j.srcRange j.stamp).cistern = T.cistern := by
    unfold Tile.dropDrain; split
    · split <;> exact ⟨rfl, rfl⟩
    · exact ⟨rfl, rfl⟩
  generalize T.dropDrain read j.srcRange j.stamp = U at *
  intro t
  have : t = (U.modJobAt n j.stamp g).countWait n now j.blockedAt := rfl
  rw [this]
  unfold Tile.countWait Tile.modJobAt
  split
  · rw [Tile.pump_modPump, if_pos rfl, Tile.pump_modPump, if_pos rfl, h1.1]; exact ⟨rfl, h1.2⟩
  · rw [Tile.pump_modPump, if_pos rfl, h1.1]; exact ⟨rfl, h1.2⟩

theorem lowest_zero (a : Nat) : lowest a 0 = a := by unfold lowest; split <;> simp_all

/-- Tile `p` but for its sequencer, its counters, wells and power state, and every other tile, are the same. -/
structure State.PostKin (s v : State) (p : Nat) : Prop where
  tiles : ∀ q, q ≠ p → v.tile q = s.tile q
  tile : ({ (v.tile p).beside with counters := [], wells := [] } : Tile) = { (s.tile p).beside with counters := [], wells := [] }

theorem State.PostKin.rfl' (s : State) (p : Nat) : s.PostKin s p := ⟨fun _ _ => rfl, rfl⟩

theorem State.PostKin.trans {s v w : State} {p : Nat} (h : s.PostKin v p) (h' : v.PostKin w p) : s.PostKin w p :=
  ⟨fun q hq => (h'.tiles q hq).trans (h.tiles q hq), h'.tile.trans h.tile⟩

theorem State.CountKin.post {s v : State} {p : Nat} (h : s.CountKin v p) : s.PostKin v p :=
  ⟨h.tiles, by have := congrArg (fun t : Tile => ({ t with wells := [] } : Tile)) h.tile; exact this⟩

theorem State.PostKin.mod {s : State} {p : Nat} {f : Tile → Tile}
    (h : ∀ t : Tile, ({ (f t).beside with counters := [], wells := [] } : Tile) = { t.beside with counters := [], wells := [] }) : s.PostKin (s.modTile p f) p :=
  ⟨fun q hq => by rw [State.tile_modTile, if_neg hq], by rw [State.tile_modTile_self]; exact h _⟩

/-- Posting a completion changes no more than counters, wells and what waits for them. -/
theorem State.postCompletion_kin {s s' : State} {p : Nat} {c : Completion} (h : s.postCompletion p c = some s') : s.PostKin s' p := by
  unfold State.postCompletion at h
  obtain ⟨v, hv⟩ : ∃ v, v = (match c.counter with | some n => s.countUp p n | none => s) := ⟨_, rfl⟩
  have hk : s.CountKin v p := by
    rw [hv]
    cases c.counter with
    | none => exact .rfl' _ _
    | some n => exact countUp_tile s p n
  have h : (match c.well with
      | none => some v
      | some w =>
        if ((s.tile p).well w).state = .opened ∧ ((s.tile p).well w).binding = 0 then
          if ((s.tile p).well w).entries < wellEntries then
            some ((v.modTile p fun t => t.modWell w fun x => x.place s.now (t.logical.getD 0xFFF) [c.msg]).wakeTasks p)
          else none
        else some ((v.modTile p fun t => t.modWell w fun x => { x with lost := (x.lost + 1) % 65536 }).raiseTile p 0x0204 w)) = some s' := by
    rw [hv]; exact h
  have hm : ∀ g : Well → Tile → Well, ∀ w, s.PostKin (v.modTile p fun t => t.modWell w fun x => g x t) p := fun g w =>
    hk.post.trans (.mod fun _ => rfl)
  cases hw : c.well with
  | none => rw [hw] at h; cases h; exact hk.post
  | some w =>
    rw [hw] at h
    dsimp only at h
    have h1 := hm (fun x t => x.place s.now (t.logical.getD 0xFFF) [c.msg]) w
    have h2 := hm (fun x _ => { x with lost := (x.lost + 1) % 65536 }) w
    generalize (v.modTile p fun t => t.modWell w fun x => x.place s.now (t.logical.getD 0xFFF) [c.msg]) = y at *
    generalize (v.modTile p fun t => t.modWell w fun x => { x with lost := (x.lost + 1) % 65536 }) = z at *
    split at h
    · split at h
      · rw [← Option.some.inj h]
        exact h1.trans (State.CountKin.wake _ _).post
      · exact nomatch h
    · rw [← Option.some.inj h]
      exact h2.trans (State.CountKin.raise _ _ _).post

/-- Posting a pump's completion, which it may have to hold. -/
theorem State.pumpPost_spec (s : State) (p n : Nat) (c : Completion) :
    (∀ q, q ≠ p → (s.pumpPost p n c).tile q = s.tile q) ∧
    ({ ((s.pumpPost p n c).tile p).beside with counters := [], wells := [], pumps := [] } : Tile) = { (s.tile p).beside with counters := [], wells := [], pumps := [] } ∧
    ({ ((s.pumpPost p n c).tile p).pump n with held := [] } : Pump) = { (s.tile p).pump n with held := [] } ∧
    (∀ m, m ≠ n → ((s.pumpPost p n c).tile p).pump m = (s.tile p).pump m) := by
  have hmod : ∀ (f : Pump → Pump), (∀ u, ({ f u with held := [] } : Pump) = { u with held := [] }) →
      (∀ q, q ≠ p → (s.modTile p fun t => t.modPump n f).tile q = s.tile q) ∧
      ({ ((s.modTile p fun t => t.modPump n f).tile p).beside with counters := [], wells := [], pumps := [] } : Tile) = { (s.tile p).beside with counters := [], wells := [], pumps := [] } ∧
      ({ ((s.modTile p fun t => t.modPump n f).tile p).pump n with held := [] } : Pump) = { (s.tile p).pump n with held := [] } ∧
      (∀ m, m ≠ n → ((s.modTile p fun t => t.modPump n f).tile p).pump m = (s.tile p).pump m) := by
    intro f hf
    refine ⟨fun q hq => by rw [State.tile_modTile, if_neg hq], by rw [State.tile_modTile_self]; rfl, ?_, fun m hm => ?_⟩
    · rw [state_mod_pump, if_pos rfl]; exact hf _
    · rw [state_mod_pump, if_neg hm]
  unfold State.pumpPost
  split
  · exact hmod _ fun _ => rfl
  · split
    · rename_i s' h
      have hk := State.postCompletion_kin h
      have hp : (s'.tile p).pumps = (s.tile p).pumps := by have := congrArg Tile.pumps hk.tile; exact this
      have hpm : ∀ m, (s'.tile p).pump m = (s.tile p).pump m := fun m => by unfold Tile.pump; rw [hp]
      exact ⟨hk.tiles, by have := congrArg (fun t : Tile => ({ t with pumps := [] } : Tile)) hk.tile; exact this, by rw [hpm], fun m _ => hpm m⟩
    · exact hmod _ fun _ => rfl

theorem Tile.pump_of_beside {a b : Tile} (h : a.beside = b.beside) (m : Nat) : a.pump m = b.pump m := by
  have := congrArg Tile.pumps h; unfold Tile.pump; exact congrArg (fun x => Tbl.get {} x m) this

theorem Tile.range_of_beside {a b : Tile} (h : a.beside = b.beside) (m : Nat) : a.range m = b.range m := by
  have := congrArg Tile.ranges h; unfold Tile.range; exact congrArg (fun x => Tbl.get {} x m) this

theorem Tile.endMarks_spec (t : Tile) (j : PumpJob) :
    (∀ r, (t.endMarks j).range r =
      (let ended (r : Nat) (x : Range) : Range := if j.dstRange = some r then x.endFill j.stamp j.err else x
       let drained (r : Nat) (x : Range) : Range := if j.srcRange = some r then
        (if j.err = 0 ∧ dConsume j.desc = true then (x.endDrain j.stamp).consumed j.stamp else x.endDrain j.stamp) else x
       drained r (ended r (t.range r)))) ∧ ({ t.endMarks j with ranges := [] } : Tile) = { t with ranges := [] } := by
  unfold Tile.endMarks
  cases j.dstRange <;> cases j.srcRange <;> dsimp only <;> refine ⟨fun r => ?_, rfl⟩
  · simp
  · rw [Tile.range_modRange]; simp only [reduceCtorEq, if_false, Option.some.injEq]
    split
    · rename_i h; subst h; simp
    · rename_i h; rw [if_neg (Ne.symm h)]
  · rw [Tile.range_modRange]; simp only [reduceCtorEq, if_false, Option.some.injEq]
    split
    · rename_i h; subst h; simp
    · rename_i h; rw [if_neg (Ne.symm h)]
  · rw [Tile.range_modRange, Tile.range_modRange, Tile.range_modRange]; simp only [Option.some.injEq]
    split
    · rename_i a b h; subst h
      by_cases hh : a = r
      · subst hh; simp
      · simp [hh, Ne.symm hh]
    · rename_i h; rw [if_neg (Ne.symm h)]; simp only [eq_comm]
      split <;> simp_all

theorem Pump.advanceHead_spec (k : Nat) : ∀ u : Pump, ({ u.advanceHead k with head := 0, doneSlots := [] } : Pump) = { u with head := 0, doneSlots := [] } := by
  induction k with
  | zero => intro u; rfl
  | succ k ih =>
    intro u
    unfold Pump.advanceHead
    split
    · rw [ih]
    · rfl

/-- What completing a descriptor changes in its pump. -/
theorem Pump.complete_spec (u : Pump) (j : PumpJob) :
    ({ u.complete j with head := 0, doneSlots := [] } : Pump) = { u with
      jobs := u.jobs.filter fun k => k.stamp != j.stamp, error := u.error || j.err != 0, lastErr := if j.err = 0 then u.lastErr else j.err
      lastErrSlot := if j.err = 0 then u.lastErrSlot else j.slot, bytesMoved := (u.bytesMoved + j.okBytes) % 2 ^ 64, head := 0, doneSlots := [] } ∧
    (j.slot = u.head → u.doneSlots = [] → 0 < u.ringLen → j.slot ≠ 0xFFFF → (u.complete j).head = (u.head + 1) % u.ringLen) := by
  unfold Pump.complete
  refine ⟨Pump.advanceHead_spec _ _, fun h1 h2 h3 h4 => ?_⟩
  rw [h2, if_neg h4]
  unfold Pump.advanceHead
  dsimp only
  rw [if_pos (by simp [h1])]
  unfold Pump.advanceHead
  exact if_neg (Nat.ne_of_gt h3)

/-- A completion that its well has room for is placed. -/
theorem State.postCompletion_placed {s : State} {p w : Nat} {c : Completion} (hw : c.well = some w) (ho : ((s.tile p).well w).state = .opened)
    (hb : ((s.tile p).well w).binding = 0) (hn : ((s.tile p).well w).entries < 16) :
    ∃ s', s.postCompletion p c = some s' ∧ s.PostKin s' p ∧
      (∀ v, ((s'.tile p).well v) = if v = w then ((s.tile p).well w).place s.now ((s.tile p).logical.getD 0xFFF) [c.msg] else (s.tile p).well v) := by
  obtain ⟨v, hv⟩ : ∃ v, v = (match c.counter with | some n => s.countUp p n | none => s) := ⟨_, rfl⟩
  have hk : s.CountKin v p := by
    rw [hv]
    cases c.counter with
    | none => exact .rfl' _ _
    | some n => exact countUp_tile s p n
  obtain ⟨s', hs', he⟩ : ∃ s', s.postCompletion p c = some s' ∧ s' = (v.modTile p fun t => t.modWell w fun x => x.place s.now (t.logical.getD 0xFFF) [c.msg]).wakeTasks p := by
    refine ⟨_, ?_, rfl⟩
    unfold State.postCompletion
    dsimp only
    rw [hw]
    dsimp only
    rw [if_pos ⟨ho, hb⟩, if_pos (show _ < wellEntries from hn), hv]; try rfl
  refine ⟨s', hs', State.postCompletion_kin hs', fun m => ?_⟩
  have hl : (v.tile p).logical = (s.tile p).logical := by have := congrArg Tile.logical hk.tile; exact this
  have hwl : ∀ m, (v.tile p).well m = (s.tile p).well m := fun m => by
    have := congrArg Tile.wells hk.tile; unfold Tile.well; exact congrArg (fun x => Tbl.get {} x m) this
  obtain ⟨-, q2, -⟩ := (v.modTile p fun t => t.modWell w fun x => x.place s.now (t.logical.getD 0xFFF) [c.msg]).wakeTasks_spec p
  rw [he, Tile.well_of_beside q2, State.tile_modTile_self, Tile.well_modWell, hl, hwl, hwl]

theorem Ecc.clean_get (l : List Nat) : ∀ (e : Ecc) (v : Nat), Tbl.get 0 (l.foldl (fun (e : Ecc) w => e.clean w) e).cistern v =
    if v ∈ l ∧ Tbl.get 0 e.cistern v = 1 then 0 else Tbl.get 0 e.cistern v := by
  induction l with
  | nil => intro e v; simp
  | cons w l ih =>
    intro e v
    have h1 : Tbl.get 0 (e.clean w).cistern v = if v = w ∧ Tbl.get 0 e.cistern v = 1 then 0 else Tbl.get 0 e.cistern v := by
      unfold Ecc.clean
      dsimp only
      split
      · rename_i h; rw [Tbl.get_put]
        by_cases hv : v = w
        · subst hv; simp [h]
        · simp [hv]
      · rename_i h
        by_cases hv : v = w
        · subst hv; simp [h]
        · simp [hv]
    rw [List.foldl_cons, ih, h1]
    by_cases hv : v = w
    · subst hv; by_cases hg : Tbl.get 0 e.cistern v = 1 <;> simp [hg]
    · simp [hv]

/-- Every other tile, and tile `p` but for its sequencer's counts and the records of its ECC, are the same. -/
structure State.EccKin (u v : State) (p : Nat) : Prop where
  tiles : ∀ q, q ≠ p → v.tile q = u.tile q
  cistern : (v.tile p).cistern = (u.tile p).cistern
  words : (v.tile p).ecc.cistern = (u.tile p).ecc.cistern
  row : (v.tile p).ecc.scrubRow = (u.tile p).ecc.scrubRow

theorem State.EccKin.of_tiles {u v : State} (p : Nat) (h : ∀ q, v.tile q = u.tile q) : u.EccKin v p :=
  ⟨fun q _ => h q, by rw [h], by rw [h], by rw [h]⟩

theorem State.EccKin.trans {u v w : State} {p : Nat} (h : u.EccKin v p) (h' : v.EccKin w p) : u.EccKin w p :=
  ⟨fun q hq => (h'.tiles q hq).trans (h.tiles q hq), h'.cistern.trans h.cistern, h'.words.trans h.words, h'.row.trans h.row⟩

theorem State.recordDefect_tile (s : State) (a b c d e f q : Nat) : (s.recordDefect a b c d e f).tile q = s.tile q := by
  unfold State.recordDefect
  extract_lets x due
  split
  · rfl
  · split
    · rfl
    · rw [State.raise_tile]; rfl

theorem State.lineCorrected_kin (s : State) (p l : Nat) : s.EccKin (s.lineCorrected p l) p := by
  unfold State.lineCorrected
  extract_lets e times again s'
  have h : s.EccKin s' p := ⟨fun q hq => by rw [State.tile_modTile, if_neg hq], by rw [State.tile_modTile_self], by rw [State.tile_modTile_self], by rw [State.tile_modTile_self]⟩
  split
  · exact h.trans (.of_tiles _ fun q => State.recordDefect_tile _ _ _ _ _ _ _ _)
  · exact h

theorem State.corrected_kin (s : State) (p off len : Nat) : s.EccKin (s.corrected p off len) p := by
  unfold State.corrected
  extract_lets words words' s1 s2
  have h1 : s.EccKin s1 p := ⟨fun q hq => by rw [State.tile_modTile, if_neg hq], by rw [State.tile_modTile_self], by rw [State.tile_modTile_self], by rw [State.tile_modTile_self]⟩
  have h2 : ∀ (l : List Nat) (v : State), s.EccKin v p → s.EccKin (l.foldl (fun (s : State) l => s.lineCorrected p l) v) p := by
    intro l
    induction l with
    | nil => intro v h; exact h
    | cons x l ih => intro v h; exact ih _ (h.trans (State.lineCorrected_kin _ _ _))
  split
  · exact .of_tiles _ fun _ => rfl
  · exact (h2 _ _ h1).trans (.of_tiles _ fun q => by unfold State.raiseTile; rw [State.raise_tile]; rfl)

end Sys2Proof.Machine
end

