-- ==== Sys2Proof/Laws/Streams.lean ====
section
/-! SUPPORT. The laws of the stream switch (R132 to R160): a word that goes on. -/

namespace Sys2Proof.Machine

/-- What scheduling a tile leaves of the module (R365). -/
theorem State.settle_module (s : State) (p : Nat) :
    ({ s.settle p with tiles := [], power := {}, dict := {} } : State) = { s with tiles := [], power := {}, dict := {} } := by
  have hl : ∀ old, ({ (s.modTile p Tile.settle).leftRun old p with tiles := [], power := {}, dict := {} } : State) = { s with tiles := [], power := {}, dict := {} } := by
    intro old; unfold State.leftRun; split <;> rfl
  have he : ∀ (v : State) d, ({ v.enterPower p d with tiles := [], power := {}, dict := {} } : State) = { v with tiles := [], power := {}, dict := {} } := by
    intro v d
    obtain ⟨f, x, h⟩ := v.enterPower_eq p d
    rw [h]; rfl
  have hl := hl (s.tile p)
  unfold State.settle
  dsimp only
  generalize (s.modTile p Tile.settle).leftRun (s.tile p) p = u at *
  split
  · split
    · exact hl
    · split
      · exact (he _ _).trans hl
      · exact Eq.trans rfl hl
  · exact hl

theorem Tile.fed_lt {t : Tile} {key : Nat} {x : Nat × Nat} (h : x ∈ t.fed key) : x.1 < 72 := by
  unfold Tile.fed at h
  obtain ⟨e, he, h⟩ := List.mem_filterMap.mp h
  dsimp only at h
  split at h
  · obtain ⟨k, -, hk⟩ := Option.map_eq_some_iff.mp h
    rw [← hk]; exact List.mem_range.mp he
  · cases h

/-- The one lane of an entry that an input feeds. -/
theorem Tile.fed_lane {t : Tile} {key e k : Nat} (h : t.fed key = [(e, k)]) (hl : entryGang (t.entry e) = 1) : k = 0 ∧ entryInput (t.entry e) 0 = key := by
  have hm : (e, k) ∈ t.fed key := by rw [h]; exact List.mem_singleton.mpr rfl
  unfold Tile.fed at hm
  obtain ⟨x, -, hx⟩ := List.mem_filterMap.mp hm
  dsimp only at hx
  split at hx
  · obtain ⟨y, hy, hxy⟩ := Option.map_eq_some_iff.mp hx
    cases hxy
    rw [hl] at hy
    have h1 := List.find?_some hy
    have h2 := List.mem_of_find?_eq_some hy
    have hk : k = 0 := by have := List.mem_range.mp h2; omega
    subst hk
    exact ⟨rfl, by simpa using h1⟩
  · cases hx

/-- The beat of an input that feeds one entry of one lane is its word. -/
theorem Tile.beat_one {t : Tile} {key e k : Nat} (h : t.fed key = [(e, k)]) (hl : entryGang (t.entry e) = 1) (w : StreamWord) :
    t.beat key = [key] ∧ t.beatFor e [(key, w)] = [(0, w)] := by
  obtain ⟨-, h2⟩ := Tile.fed_lane h hl
  constructor
  · unfold Tile.beat
    rw [h]
    dsimp only
    rw [hl]
    show [entryInput (t.entry e) 0] = _
    rw [h2]
  · unfold Tile.beatFor
    rw [hl]
    have : (List.range 1).find? (fun k => entryInput (t.entry e) k == key) = some 0 := by
      rw [show List.range 1 = [0] from rfl, List.find?_cons, h2]; simp
    simp only [List.filterMap_cons, List.filterMap_nil, this, Option.map_some]

/-- A word that one entry takes leaves its input. -/
theorem State.offerBeat_one {s : State} {p key : Nat} {w : StreamWord} {rest : List StreamWord} {e k : Nat} (hq : (s.tile p).inQueue key = w :: rest)
    (hf : (s.tile p).fed key = [(e, k)]) (hl : entryGang ((s.tile p).entry e) = 1) (hh : (s.tile p).tapHeld key = false)
    (ht : ∀ x ∈ (s.tile p).stream.taken, x / 128 ≠ key) {s1 : State}
    (he : s.entryTake p e [(0, w)] = some s1) (h0 : Tbl.get 0 (s1.tile p).stream.stallSince e = 0)
    (h1 : (s1.tile p).stream.taken = (s.tile p).stream.taken) (h2 : (s1.tile p).inQueue key = w :: rest) :
    ∃ v, s.offerBeat p [(key, w)] = ((s.tile p).tapped key w).foldl (fun s n => s.countUp p n) v ∧ s1.TileIs v p ((s1.tile p).setIn key rest) := by
  have hlt : e < 72 := Tile.fed_lt (x := (e, k)) (key := key) (by rw [hf]; exact List.mem_singleton.mpr rfl)
  have hnt : (s.tile p).stream.taken.contains (128 * key + e) = false := by
    rw [Bool.eq_false_iff]; intro h
    exact ht _ (List.contains_iff_mem.mp h) (by omega)
  refine ⟨(s1.modTile p fun t => { t with stream := { t.stream with taken := t.stream.taken ++ [128 * key + e] } }).modTile p fun t =>
        let t := t.setIn key ((t.inQueue key).drop 1)
        { t with stream := { t.stream with taken := t.stream.taken.filter fun x => x / 128 != key } }, ?_, ?_⟩
  rotate_left
  · have h0 := (s1.tileIs_self p).mod fun t => { t with stream := { t.stream with taken := t.stream.taken ++ [128 * key + e] } }
    have h0 := h0.mod fun t =>
        let t := t.setIn key ((t.inQueue key).drop 1)
        { t with stream := { t.stream with taken := t.stream.taken.filter fun x => x / 128 != key } }
    refine ⟨h0.tile.trans ?_, h0.tiles, h0.module⟩
    dsimp only
    have e1 : ({ s1.tile p with stream := { (s1.tile p).stream with taken := (s1.tile p).stream.taken ++ [128 * key + e] } } : Tile).inQueue key = w :: rest := h2
    rw [e1]
    have e2 : ((s1.tile p).stream.taken ++ [128 * key + e]).filter (fun x => x / 128 != key) = (s1.tile p).stream.taken := by
      rw [h1, List.filter_append, List.filter_cons]
      rw [show ((128 * key + e) / 128 != key) = false by rw [bne_eq_false_iff_eq]; omega]
      have : (s.tile p).stream.taken.filter (fun x => x / 128 != key) = (s.tile p).stream.taken := by
        rw [List.filter_eq_self]; intro x hx; simpa using ht x hx
      rw [this]; simp
    unfold Tile.setIn
    dsimp only
    rw [e2]
    rfl
  · have hst : s1.stallTo p e = s1 := by unfold State.stallTo; rw [h0]
    have hes : ([(key, w)].flatMap fun x => ((s.tile p).fed x.1).map (·.1)).eraseDups = [e] := by
      rw [List.flatMap_cons, hf]; rfl
    have hfil : [e].filter (fun e => !(s.tile p).stream.taken.contains (128 * key + e)) = [e] := by
      rw [List.filter_cons, hnt]; rfl
    unfold State.offerBeat
    extract_lets t lead es todo r u u2
    have hes' : es = [e] := hes
    have hany : ([(key, w)].any fun x => t.tapHeld x.1) = false := by
      show ((s.tile p).tapHeld key || false) = false
      rw [hh]; rfl
    rw [if_neg (by rw [hes', hany]; simp)]
    have htodo : todo = [e] := by
      show es.filter _ = _
      rw [hes']; exact hfil
    have hr : r = (s1.modTile p fun t => { t with stream := { t.stream with taken := t.stream.taken ++ [128 * key + e] } }, []) := by
      show todo.foldl _ _ = _
      rw [htodo, List.foldl_cons, List.foldl_nil]
      dsimp only
      rw [(Tile.beat_one hf hl w).2, he]
      dsimp only
      rw [hst]
      rfl
    rw [if_pos (by rw [hr])]
    have hu : u = s1.modTile p fun t => { t with stream := { t.stream with taken := t.stream.taken ++ [128 * key + e] } } := congrArg Prod.fst hr
    have hu2 : u2 = u.modTile p fun t =>
        let t := t.setIn key ((t.inQueue key).drop 1)
        { t with stream := { t.stream with taken := t.stream.taken.filter fun x => x / 128 != key } } := rfl
    rw [hu2, hu]
    rfl

/-- Counters that count without reaching an end. -/
theorem State.TileIs.taps {u : State} {p : Nat} (l : List Nat) (hn : l.Nodup) : ∀ {v : State} {T : Tile}, u.TileIs v p T →
    (∀ n ∈ l, (T.counter n).reached = false ∧ (T.counter n).stopped = false) →
    ∃ T', u.TileIs (l.foldl (fun s n => s.countUp p n) v) p T' ∧ ({ T' with counters := [] } : Tile) = { T with counters := [] } ∧
      ∀ n, (T'.counter n).count = if n ∈ l then ((T.counter n).count + 1) % 2 ^ 32 else (T.counter n).count := by
  induction l with
  | nil => intro v T h _; exact ⟨T, h, rfl, fun n => by simp⟩
  | cons x l ih =>
    intro v T h hc
    obtain ⟨h1, h2⟩ := hc x (by simp)
    have hu : u.TileIs (v.countUp p x) p (T.modCounter x fun c =>
        if c.stopped then c
        else
          let v := (c.count + 1) % 2 ^ 32
          { c with count := v, reached := decide (v = c.terminal ∧ c.terminal ≠ 0) }) := by
      unfold State.countUp
      dsimp only
      rw [h.tile, h1]
      exact h.mod _
    have hcn : ∀ n f, (T.modCounter x f).counter n = if n = x then f (T.counter x) else T.counter n := fun n f => by
      unfold Tile.modCounter Tile.counter; dsimp only; rw [Tbl.get_put]
    rw [List.nodup_cons] at hn
    obtain ⟨T', g1, g2, g3⟩ := ih hn.2 hu (fun n hm => by
      rw [hcn, if_neg (by rintro rfl; exact hn.1 hm)]; exact hc n (List.mem_cons_of_mem _ hm))
    refine ⟨T', g1, g2, fun n => ?_⟩
    rw [g3, hcn]
    by_cases hnx : n = x
    · subst hnx
      rw [if_neg hn.1, if_pos rfl, if_pos (List.mem_cons_self), if_neg (by rw [h2]; simp)]
    · rw [if_neg hnx]; simp [hnx]

theorem passesOn_row {c : Instr} {p : Phys} {i : StreamInput} {w : StreamWord} (h : passesOn c p i w) (s : State) :
    ∃ accept : StreamWord → Bool, accept w = true ∧ exec c s = wordRow p i accept s := by
  repeat' (refine Or.elim h ?_ ?_ <;> clear h <;> intro h)
  all_goals exact ⟨_, h.2, by rw [h.1]; rfl⟩

theorem State.flow_idle {s : State} {p : Nat} (h : (s.tile p).stream.slackQ = []) (h' : (s.tile p).stream.pipeOut = []) : s.flow p = s := by
  unfold State.flow; rw [h]; dsimp only [List.foldl_nil]; rw [h']; rfl

/-- Beginning an entry keeps every dictionary value but the tile's refusals. -/
theorem State.enterPower_obe (s : State) (p d : Nat) {key e : Nat} (h : ∀ l, (s.tile p).logical = some l → elemKey key e ≠ elemKey Ob.power_refusals l) :
    (s.enterPower p d).obe key e = s.obe key e := by
  unfold State.enterPower
  split
  · rfl
  · unfold State.refuseEntry
    dsimp only
    split
    · rename_i l hl
      rw [State.tile_modTile_self] at hl
      rw [State.obe_putObe_ne _ _ (h l hl)]; rfl
    · rfl

/-- Settling keeps every dictionary value but the tile's refusals. -/
theorem State.settle_obe (s : State) (p : Nat) {key e : Nat} (h : ∀ l, (s.tile p).logical = some l → elemKey key e ≠ elemKey Ob.power_refusals l) :
    (s.settle p).obe key e = s.obe key e := by
  have hl : ((s.modTile p Tile.settle).leftRun (s.tile p) p).obe key e = s.obe key e := by
    unfold State.leftRun; split <;> rfl
  have hlog : (((s.modTile p Tile.settle).leftRun (s.tile p) p).tile p).logical = (s.tile p).logical := by
    rw [State.tile_congr (State.leftRun_tiles _ _ _), State.tile_modTile_self]
    have := congrArg Tile.logical (Tile.settle_besides (s.tile p)); exact this
  unfold State.settle
  dsimp only
  generalize (s.modTile p Tile.settle).leftRun (s.tile p) p = u at *
  split
  · split
    · exact hl
    · split
      · exact (State.enterPower_obe _ _ _ (by rw [hlog]; exact h)).trans hl
      · exact Eq.trans rfl hl
  · exact hl

theorem Tile.portKey_lt (t : Tile) {n : Nat} (h : n < 4) : t.portKey n < 32 := by
  unfold Tile.portKey Tile.portGang entryGang
  have h1 : bits (t.entry (40 + n)) 10 9 < 4 := Nat.mod_lt _ (by decide)
  have h2 : 2 ^ bits (t.entry (40 + n)) 10 9 ≤ 2 ^ 3 := Nat.pow_le_pow_right (by decide) (by omega)
  have h3 := Nat.mod_lt (Tbl.get 0 t.stream.sinkPos n) (show 0 < 2 ^ bits (t.entry (40 + n)) 10 9 from Nat.pow_pos (by decide))
  omega

theorem State.relaysGo_idle {s : State} (h : s.relaysIdle) : s.relaysGo = s := by
  unfold State.relaysGo
  exact foldl_fix _ fun x _ => State.flowRelay_idle h _ _ _

/-- With nothing to move by itself, nothing follows a change of the stream plane. -/
theorem State.streamsGo_still {s : State} {p : Nat} (h1 : (s.tile p).stream.slackQ = []) (h1' : (s.tile p).stream.pipeOut = []) (hr : s.relaysIdle)
    (h2 : ∀ key < 32, (s.tile p).sinkQueue key = [])
    (hu : ∀ b x, ((s.tile p).unit b).exec = some x → x.streams = false ∧ x.out = []) : s.streamsGo p = s := by
  have hf : s.flow p = s := State.flow_idle h1 h1'
  have hd : s.drainPorts p = s := by
    unfold State.drainPorts
    refine foldl_fix _ fun n hn => ?_
    unfold State.drainPort
    split
    · rfl
    · rw [h2 _ (Tile.portKey_lt _ (List.mem_range.mp hn))]
  have hg : s.unitsFlow p = s := by
    unfold State.unitsFlow
    refine foldl_fix _ fun b _ => ?_
    dsimp only
    cases he : ((s.tile p).unit b).exec with
    | none => rfl
    | some o =>
      dsimp only
      rw [if_neg (by rw [(hu b o he).1]; simp), he]
      dsimp only
      rw [(hu b o he).2]; rfl
  unfold State.streamsGo
  rw [hf, hg]
  unfold State.streamSettle
  rw [hf, State.relaysGo_idle hr, hd]

/-- A word goes on: what follows the entry's taking it. -/
theorem passesOn_goes {c : Instr} {s s1 : State} {p : Phys} {i : StreamInput} {w : StreamWord} {rest : List StreamWord} {e k : Nat}
    (hc : passesOn c p i w) (h : s.WordAt p i w rest e k) (he : s.entryTake p e [(0, w)] = some s1) (h0 : (s1.tile p).stream.stallSince = (s.tile p).stream.stallSince)
    (h1 : (s1.tile p).stream.taken = (s.tile p).stream.taken) (h2 : (s1.tile p).inQueue (inKey i.cls i.idx) = w :: rest)
    (h3 : ∀ q, (s1.tile q).stream.slackQ = (s.tile q).stream.slackQ ∧ (s1.tile q).stream.pipeOut = (s.tile q).stream.pipeOut ∧ (s1.tile q).relays = (s.tile q).relays) (h4 : ∀ key < 32, (s1.tile p).sinkQueue key = [])
    (h5 : ∀ b, ((s1.tile p).unit b).exec = ((s.tile p).unit b).exec) (h6 : (s1.tile p).counters = (s.tile p).counters) :
    ∃ t, exec c s = .next t ∧ (∀ q, q ≠ (p : Nat) → t.tile q = s1.tile q) ∧ t.errs = s1.errs ∧ t.net = s1.net ∧
      (∀ key e, (∀ l, (s1.tile p).logical = some l → elemKey key e ≠ elemKey Ob.power_refusals l) → t.obe key e = s1.obe key e) ∧
      (({ (t.tile p).beside with counters := [] } : Tile) = { ((s1.tile p).setIn (inKey i.cls i.idx) rest).beside with counters := [] } ∧
        ∀ n, ((t.tile p).counter n).count = if n ∈ (s.tile p).tapped (inKey i.cls i.idx) w then (((s.tile p).counter n).count + 1) % 2 ^ 32
          else ((s.tile p).counter n).count) := by
  obtain ⟨accept, ha, hex⟩ := passesOn_row hc s
  obtain ⟨v, ho, hv⟩ := State.offerBeat_one h.queue h.fed h.lane h.held h.taken he (by rw [h0]; exact h.stall) h1 h2
  have hnd : ((s.tile p).tapped (inKey i.cls i.idx) w).Nodup := List.Nodup.sublist List.filter_sublist List.nodup_range
  have hcc : ∀ n, ((s1.tile p).setIn (inKey i.cls i.idx) rest).counter n = (s.tile p).counter n := fun n => by
    show Tbl.get {} (s1.tile p).counters n = _; rw [h6]; rfl
  obtain ⟨T', g1, g2, g3⟩ := hv.taps _ hnd fun n hn => by rw [hcc]; exact h.counters n hn
  rw [← ho] at g1
  have hst : T'.stream = ((s1.tile p).setIn (inKey i.cls i.idx) rest).stream := by have := congrArg Tile.stream g2; exact this
  have hsl : T'.stream.slackQ = [] := by rw [hst]; exact (h3 p).1.trans h.idle.slack
  have hpi : T'.stream.pipeOut = [] := by rw [hst]; exact (h3 p).2.1.trans h.idle.pipes
  have hsi : ∀ key < 32, T'.sinkQueue key = [] := fun key hk => by unfold Tile.sinkQueue; rw [hst]; exact h4 key hk
  have hun : ∀ b, (T'.unit b).exec = ((s.tile p).unit b).exec := fun b => by
    have e1 : T'.unit b = (s1.tile p).unit b := by have := congrArg (fun t : Tile => t.unit b) g2; exact this
    rw [e1, h5]
  have hre : (s.offerBeat p [(inKey i.cls i.idx, w)]).relaysIdle := State.relaysIdle_of h.idle.relays fun q => by
    by_cases hqp : q = p
    · subst hqp
      have e1 : T'.relays = (s1.tile p).relays := by have := congrArg Tile.relays g2; exact this
      rw [g1.tile, e1]; exact (h3 _).2.2
    · rw [g1.tiles q hqp]; exact (h3 q).2.2
  have hgo : (s.offerBeat p [(inKey i.cls i.idx, w)]).streamsGo p = s.offerBeat p [(inKey i.cls i.idx, w)] :=
    State.streamsGo_still (by rw [g1.tile]; exact hsl) (by rw [g1.tile]; exact hpi) hre (by rw [g1.tile]; exact hsi) fun b x hx => by
      rw [g1.tile, hun] at hx
      exact h.idle.units b x (Or.inl hx)
  have hfl : ∀ q, s.upstream p i.cls i.idx = some q → (s.offerBeat p [(inKey i.cls i.idx, w)]).flow q = s.offerBeat p [(inKey i.cls i.idx, w)] := by
    intro q hq
    by_cases hqp : q = p
    · subst hqp; exact State.flow_idle (by rw [g1.tile]; exact hsl) (by rw [g1.tile]; exact hpi)
    · obtain ⟨u1, u2⟩ := h.upstream q hq
      exact State.flow_idle (by rw [g1.tiles q hqp, (h3 q).1]; exact u1) (by rw [g1.tiles q hqp, (h3 q).2.1]; exact u2)
  have hex : exec c s = .next ((s.offerBeat p [(inKey i.cls i.idx, w)]).settle p) := by
    rw [hex]
    unfold wordRow
    dsimp only
    have hws : ((([inKey i.cls i.idx].flatMap (s.tile p).beat).eraseDups.filterMap fun k => ((s.tile p).inQueue k).head?.map fun w => (k, w))) =
        [(inKey i.cls i.idx, w)] := by
      rw [List.flatMap_cons, (Tile.beat_one h.fed h.lane w).1]
      show ([inKey i.cls i.idx].filterMap _) = _
      rw [List.filterMap_cons, h.queue]; rfl
    rw [h.keys, hws, if_neg (by rw [h.awake]; simp [ha]), h.tail]
    cases hup : s.upstream p i.cls i.idx with
    | none => dsimp only; rw [hgo]
    | some q => dsimp only; rw [hfl q hup, hgo]
  generalize s.offerBeat p [(inKey i.cls i.idx, w)] = z at *
  obtain ⟨-, -, -, s4, s5⟩ := z.settle_spec p
  refine ⟨_, hex, fun q hq => by rw [s4 q hq, g1.tiles q hq], by rw [s5, State.eq_of_besidesTiles g1.module],
    (by have := congrArg State.net (z.settle_module p); exact this.trans (by rw [State.eq_of_besidesTiles g1.module])), fun key e hk => ?_, ?_⟩
  · have e1 : T'.logical = (s1.tile p).logical := by have := congrArg Tile.logical g2; exact this
    rw [z.settle_obe p (fun l hl => hk l (by rw [← e1, ← g1.tile]; exact hl)), State.eq_of_besidesTiles g1.module]; rfl
  have hb : ((z.settle p).tile p).beside = T'.beside := by rw [← g1.tile]; exact z.settle_rest p
  refine ⟨?_, fun n => ?_⟩
  · have e1 := congrArg (fun t : Tile => ({ t with counters := [] } : Tile)) hb
    have e2 := congrArg (fun t : Tile => t.beside) g2
    exact e1.trans e2
  · have e1 : ((z.settle p).tile p).counter n = T'.counter n := by have := congrArg Tile.counters hb; exact congrArg (fun x => Tbl.get {} x n) this
    rw [e1, g3, hcc]

theorem Tile.counters_of_besides {a b : Tile} (h : a.besides = b.besides) : a.counters = b.counters := by have := congrArg Tile.counters h; exact this
theorem Tile.counters_of_beside {a b : Tile} (h : a.beside = b.beside) : a.counters = b.counters := by have := congrArg Tile.counters h; exact this
theorem Tile.stream_of_besides {a b : Tile} (h : a.besides = b.besides) : a.stream = b.stream := by have := congrArg Tile.stream h; exact this
theorem Tile.stream_of_beside {a b : Tile} (h : a.beside = b.beside) : a.stream = b.stream := by have := congrArg Tile.stream h; exact this
theorem Tile.tensor_of_besides {a b : Tile} (h : a.besides = b.besides) : a.tensor = b.tensor := by have := congrArg Tile.tensor h; exact this
theorem Tile.vector_of_besides {a b : Tile} (h : a.besides = b.besides) : a.vector = b.vector := by have := congrArg Tile.vector h; exact this

/-- A word emitted on a stream of one lane goes behind the source's others. -/
theorem Tile.emit_one {t : Tile} {n : Nat} {w : StreamWord} (hg : t.sourceGang n = 1) (hw : w.isEnd = false) :
    ∃ l m, t.emit n w = { t with stream := { t.stream with inQ := t.stream.inQ.put [] (inKey 5 n) (t.inQueue (inKey 5 n) ++ [w]), laneCount := l, sourcePos := m } } := by
  unfold Tile.emit
  dsimp only
  rw [hg, Nat.mod_one, Nat.mul_zero, Nat.add_zero]
  cases w with
  | data _ => exact ⟨_, _, rfl⟩
  | token _ _ => exact ⟨_, _, rfl⟩
  | endWord _ => cases hw

theorem Tile.steerEmit_spec {t : Tile} {u o : Nat} {w : StreamWord} (hg : t.sourceGang (8 + 2 * u + o) = 1) (hw : w.isEnd = false) (n : Nat) :
    ∃ q l m, t.steerEmit u o w n = { t with stream := { t.stream with inQ := q, laneCount := l, sourcePos := m } } ∧
      ∀ key, Tbl.get [] q key = if key = inKey 5 (8 + 2 * u + o) then t.inQueue key ++ List.replicate n w else t.inQueue key := by
  induction n with
  | zero => exact ⟨t.stream.inQ, t.stream.laneCount, t.stream.sourcePos, rfl, fun key => by simp [Tile.inQueue]⟩
  | succ n ih =>
    obtain ⟨q, l, m, h1, h2⟩ := ih
    have hs : t.steerEmit u o w (n + 1) = (t.steerEmit u o w n).emit (8 + 2 * u + o) w := by
      unfold Tile.steerEmit
      rw [List.range_succ, List.foldl_append]; rfl
    obtain ⟨l', m', h3⟩ := Tile.emit_one (t := t.steerEmit u o w n) (n := 8 + 2 * u + o) (w := w) (by rw [h1]; exact hg) hw
    rw [hs, h3, h1]
    refine ⟨_, _, _, rfl, fun key => ?_⟩
    rw [Tbl.get_put]
    have hq : ({ t with stream := { t.stream with inQ := q, laneCount := l, sourcePos := m } } : Tile).inQueue (inKey 5 (8 + 2 * u + o)) = Tbl.get [] q (inKey 5 (8 + 2 * u + o)) := rfl
    split
    · rename_i hk; subst hk
      rw [hq, h2, if_pos rfl, List.append_assoc, ← List.replicate_succ']
    · rename_i hk
      rw [h2, if_neg hk]

/-- A word emitted on several outputs of a steering unit. -/
theorem Tile.emits_spec {u : Nat} {w : StreamWord} (hw : w.isEnd = false) (l : List Nat) (hn : l.Nodup) : ∀ t : Tile, (∀ o ∈ l, t.sourceGang (8 + 2 * u + o) = 1) →
    ∃ q c m, l.foldl (fun t o => t.emit (8 + 2 * u + o) w) t = { t with stream := { t.stream with inQ := q, laneCount := c, sourcePos := m } } ∧
      (∀ o ∈ l, Tbl.get [] q (inKey 5 (8 + 2 * u + o)) = t.inQueue (inKey 5 (8 + 2 * u + o)) ++ [w]) ∧
      ∀ key, (∀ o ∈ l, key ≠ inKey 5 (8 + 2 * u + o)) → Tbl.get [] q key = t.inQueue key := by
  induction l with
  | nil => intro t _; exact ⟨t.stream.inQ, t.stream.laneCount, t.stream.sourcePos, rfl, (by intro o ho; cases ho), fun key _ => rfl⟩
  | cons o l ih =>
    intro t h
    rw [List.nodup_cons] at hn
    obtain ⟨c, m, h1⟩ := Tile.emit_one (w := w) (h o (by simp)) hw
    obtain ⟨q, c', m', g1, g2, g3⟩ := ih hn.2 (t.emit (8 + 2 * u + o) w) (fun x hx => by rw [h1]; exact h x (List.mem_cons_of_mem _ hx))
    have hq : ∀ key, (t.emit (8 + 2 * u + o) w).inQueue key = if key = inKey 5 (8 + 2 * u + o) then t.inQueue key ++ [w] else t.inQueue key := by
      intro key; rw [h1]
      show Tbl.get [] (Tbl.put _ _ _ _) key = _
      rw [Tbl.get_put]
      split
      · rename_i hk; rw [hk]
      · rfl
    have hne : ∀ x ∈ l, inKey 5 (8 + 2 * u + o) ≠ inKey 5 (8 + 2 * u + x) := by
      intro x hx he
      unfold inKey at he
      have : o = x := by omega
      exact hn.1 (this ▸ hx)
    refine ⟨q, c', m', ?_, fun x hx => ?_, fun key hk => ?_⟩
    · rw [List.foldl_cons, g1, h1]
    · rcases List.mem_cons.mp hx with rfl | hx
      · rw [g3 _ hne, hq, if_pos rfl]
      · rw [g2 x hx, hq, if_neg (Ne.symm (hne x hx))]
    · rw [g3 key fun x hx => hk x (List.mem_cons_of_mem _ hx), hq, if_neg (hk o (by simp))]

/-- Two tiles are the same but for what their sinks have consumed. -/
def Tile.sinkKin (a b : Tile) : Prop :=
  ({ a with stream := { a.stream with sinkEnd := [], sinkCount := [], sinkQ := [] } } : Tile) = { b with stream := { b.stream with sinkEnd := [], sinkCount := [], sinkQ := [] } }

theorem State.sinkConsume_kin (s : State) (p key : Nat) (w : StreamWord) :
    (∀ q, q ≠ p → (s.sinkConsume p key w).tile q = s.tile q) ∧ ((s.sinkConsume p key w).tile p).sinkKin (s.tile p) ∧
    ∀ k, ((s.sinkConsume p key w).tile p).sinkQueue k = (s.tile p).sinkQueue k := by
  have hm : ∀ (f : Tile → Tile), (∀ t, (f t).sinkKin t) → (∀ t, (f t).stream.sinkQ = t.stream.sinkQ) →
      (∀ q, q ≠ p → (s.modTile p f).tile q = s.tile q) ∧ ((s.modTile p f).tile p).sinkKin (s.tile p) ∧ ∀ k, ((s.modTile p f).tile p).sinkQueue k = (s.tile p).sinkQueue k := by
    intro f h1 h2
    exact ⟨fun q hq => by rw [State.tile_modTile, if_neg hq], by rw [State.tile_modTile_self]; exact h1 _, fun k => by rw [State.tile_modTile_self]; unfold Tile.sinkQueue; rw [h2]⟩
  unfold State.sinkConsume
  cases w with
  | data _ => exact ⟨fun _ _ => rfl, rfl, fun _ => rfl⟩
  | token op arg =>
    dsimp only
    split
    · split
      · unfold State.raiseTile; simp only [State.raise_tile]; exact hm _ (fun _ => rfl) fun _ => rfl
      · exact hm _ (fun _ => rfl) fun _ => rfl
    · split
      · exact hm _ (fun _ => rfl) fun _ => rfl
      · exact ⟨fun _ _ => rfl, rfl, fun _ => rfl⟩
  | endWord n =>
    dsimp only
    split
    · unfold State.raiseTile; simp only [State.raise_tile]; exact hm _ (fun _ => rfl) fun _ => rfl
    · exact hm _ (fun _ => rfl) fun _ => rfl

/-- The heads of a steering unit's inputs are taken and consumed. -/
theorem State.steerConsume_spec {p u : Nat} (l : List Nat) (hn : l.Nodup) : ∀ s : State,
    let v := l.foldl (fun (s : State) k => match (s.tile p).sinkQueue (steerKey u k) with
          | x :: _ => (s.modTile p fun t => t.steerPop u k).sinkConsume p (steerKey u k) x
          | [] => s) s
    (∀ q, q ≠ p → v.tile q = s.tile q) ∧ (v.tile p).sinkKin (s.tile p) ∧
    (∀ k ∈ l, (v.tile p).sinkQueue (steerKey u k) = ((s.tile p).sinkQueue (steerKey u k)).drop 1) ∧
    ∀ key, (∀ k ∈ l, key ≠ steerKey u k) → (v.tile p).sinkQueue key = (s.tile p).sinkQueue key := by
  induction l with
  | nil => intro s; exact ⟨fun _ _ => rfl, rfl, fun k hk => (by cases hk), fun _ _ => rfl⟩
  | cons k l ih =>
    intro s v
    rw [List.nodup_cons] at hn
    have hpop : ∀ key, ((s.tile p).steerPop u k).sinkQueue key = if key = steerKey u k then ((s.tile p).sinkQueue key).drop 1 else (s.tile p).sinkQueue key := by
      intro key
      unfold Tile.steerPop Tile.setSink Tile.sinkQueue
      dsimp only
      rw [Tbl.get_put]
      split
      · rename_i h; rw [h]
      · rfl
    obtain ⟨s1, hs1, a1, a2, a3⟩ : ∃ s1, s1 = (match (s.tile p).sinkQueue (steerKey u k) with
          | x :: _ => (s.modTile p fun t => t.steerPop u k).sinkConsume p (steerKey u k) x
          | [] => s) ∧ (∀ q, q ≠ p → s1.tile q = s.tile q) ∧ (s1.tile p).sinkKin (s.tile p) ∧
          ∀ key, (s1.tile p).sinkQueue key = if key = steerKey u k then ((s.tile p).sinkQueue key).drop 1 else (s.tile p).sinkQueue key := by
      refine ⟨_, rfl, ?_⟩
      split
      rotate_left
      · rename_i hq
        refine ⟨fun _ _ => rfl, rfl, fun key => ?_⟩
        split
        · rename_i h; rw [h, hq]; rfl
        · rfl
      · rename_i x q hq
        obtain ⟨b1, b2, b3⟩ := (s.modTile p fun t => t.steerPop u k).sinkConsume_kin p (steerKey u k) x
        refine ⟨fun r hr => ?_, ?_, fun key => ?_⟩
        · exact (b1 r hr).trans (by rw [State.tile_modTile, if_neg hr])
        · refine Eq.trans b2 ?_; rw [State.tile_modTile_self]; rfl
        · refine (b3 key).trans ?_; rw [State.tile_modTile_self, hpop]
    obtain ⟨g1, g2, g3, g4⟩ := ih hn.2 s1
    have hv : v = l.foldl (fun (s : State) k => match (s.tile p).sinkQueue (steerKey u k) with
          | x :: _ => (s.modTile p fun t => t.steerPop u k).sinkConsume p (steerKey u k) x
          | [] => s) s1 := by rw [hs1]; rfl
    rw [hv]
    have hne : ∀ x ∈ l, steerKey u k ≠ steerKey u x := by
      intro x hx he
      unfold steerKey at he
      have : k = x := by omega
      exact hn.1 (this ▸ hx)
    refine ⟨fun q hq => (g1 q hq).trans (a1 q hq), Eq.trans g2 a2, fun x hx => ?_, fun key hk => ?_⟩
    · rcases List.mem_cons.mp hx with rfl | hx
      · rw [g4 _ hne, a3, if_pos rfl]
      · rw [g3 x hx, a3, if_neg (Ne.symm (hne x hx))]
    · rw [g4 key fun x hx => hk x (List.mem_cons_of_mem _ hx), a3, if_neg (hk k (by simp))]

end Sys2Proof.Machine
end

