-- ==== Sys2Proof/Laws/Supplies.lean ====
section
/-! SUPPORT. What resets and losses of supply leave: the forms of Boot's operations, each as the fields it changes. -/

namespace Sys2Proof.Machine

/-- What every step of a fold keeps of a state, the fold keeps. -/
theorem foldl_keep {β γ : Type} (f : State → γ) {g : State → β → State} (h : ∀ s x, f (g s x) = f s) (l : List β) (s : State) :
    f (l.foldl g s) = f s := by
  induction l generalizing s with
  | nil => rfl
  | cons x l ih => exact (ih _).trans (h s x)

/-- A state with other transactions and other dictionary values. -/
def State.Valued (s t : State) : Prop := ∃ x v, t = { s with txn := x, dict := { s.dict with vals := v } }

theorem State.Valued.refl {s : State} : s.Valued s := ⟨s.txn, s.dict.vals, by cases s; rfl⟩
theorem State.Valued.trans {s t u : State} (h : s.Valued t) (h' : t.Valued u) : s.Valued u := by
  obtain ⟨x, v, rfl⟩ := h; obtain ⟨y, w, rfl⟩ := h'; exact ⟨y, w, rfl⟩
theorem State.Valued.putObe {s t : State} (h : s.Valued t) (key e v : Nat) : s.Valued (t.putObe key e v) := by
  obtain ⟨x, v, rfl⟩ := h; exact ⟨x, _, rfl⟩
theorem State.Valued.foldl {β : Type} {g : State → β → State} (h : ∀ (s : State) x, s.Valued (g s x)) (l : List β) (s : State) : s.Valued (l.foldl g s) := by
  induction l generalizing s with
  | nil => exact State.Valued.refl
  | cons x l ih => exact (h s x).trans (ih _)

/-- Aborting transactions changes transactions and dictionary values alone. -/
theorem State.abortTxn_valued (s : State) (n r : Nat) : s.Valued (s.abortTxn n r) := by
  unfold State.abortTxn State.endTxn State.txnStatus
  dsimp only
  split
  · split <;> exact ⟨_, _, rfl⟩
  · exact State.Valued.refl

theorem State.abortAll_valued (s : State) (r : Nat) : s.Valued (s.abortAll r) := by
  unfold State.abortAll
  obtain ⟨x, v, h⟩ := State.Valued.foldl (g := fun s n => State.abortTxn s n r) (fun s n => s.abortTxn_valued n r) (List.range 5) s
  dsimp only
  rw [h]
  exact ⟨_, _, rfl⟩

theorem State.fencesShown_valued (s : State) : s.Valued s.fencesShown := by
  unfold State.fencesShown
  refine State.Valued.foldl (fun s x => ?_) _ _
  split
  · exact State.Valued.refl.putObe _ _ _
  · exact State.Valued.refl

/-- What the loss of the units leaves (R277, R333): the fields it changes. -/
theorem State.unitsLost_form (s : State) : ∃ x v, s.unitsLost = { s with
    tiles := [], routers := [], net := [], dies := [], jobs := [], migs := [], txn := x
    test := { s.test with slots := [] }
    power := { s.power with cmds := [], entering := none, lastGrant := [], idleSince := s.now, throttled := [], coolFor := [], overLimit := false }
    host := { s.host with queues := [], doorbells := [], bar2Writes := [], bar2Data := [] }
    boot := { s.boot with routersUp := false, meadowsUp := false, stageWork := false, fusedApplied := false }
    dict := { s.dict with vals := v } } := by
  unfold State.unitsLost
  dsimp only
  obtain ⟨x1, v1, h1⟩ := s.abortAll_valued 11
  obtain ⟨x2, v2, h2⟩ := State.Valued.foldl (g := fun (s : State) d => s.putObe Ob.die_clock d 0) (fun s d => State.Valued.refl.putObe _ _ _) (List.range 4) (s.abortAll 11)
  obtain ⟨x3, v3, h3⟩ := State.Valued.foldl (g := fun (s : State) d => s.putObe Ob.throttle_state d 0) (fun s d => State.Valued.refl.putObe _ _ _) (List.range 6)
    ((List.range 4).foldl (fun (s : State) d => s.putObe Ob.die_clock d 0) (s.abortAll 11))
  rw [h3, h2, h1]
  dsimp only
  obtain ⟨x4, v4, h4⟩ := State.fencesShown_valued { s with
    tiles := [], routers := [], net := [], dies := [], jobs := [], migs := [], txn := { txns := x3.txns, lastApplied := 0 }
    test := { s.test with slots := [] }
    power := { s.power with cmds := [], entering := none, lastGrant := [], idleSince := s.now, throttled := [], coolFor := [], overLimit := false }
    host := { s.host with queues := [], doorbells := [], bar2Writes := [], bar2Data := [] }
    boot := { s.boot with routersUp := false, meadowsUp := false, stageWork := false, fusedApplied := false }
    dict := { s.dict with vals := v3.filter fun x => !unitObject (x.1 / 65536) } }
  rw [h4]
  exact ⟨_, _, rfl⟩

/-- Reloading the dictionary (R255, R256) changes the dictionary, the transactions and the map proposal alone. -/
theorem State.reload_form (s : State) (cold : Bool) : ∃ x d, s.reload cold = { s with txn := x, dict := d, boot := { s.boot with proposal := none } } ∧
    d.sessions = s.dict.sessions := by
  unfold State.reload
  dsimp only
  split
  all_goals
    generalize hz : ({ s with txn := {}, dict := _, boot := { s.boot with proposal := none } } : State) = z
    obtain ⟨x, v, h⟩ := z.fencesShown_valued
    rw [h, ← hz]
    exact ⟨x, _, rfl, rfl⟩

/-- Ending sessions changes the transactions and the dictionary alone. -/
theorem State.endSession_form (s : State) (n : Nat) : ∃ x d, s.endSession n = { s with txn := x, dict := d } := by
  unfold State.endSession
  split
  · obtain ⟨x, v, h⟩ := s.abortTxn_valued (1 + n) 9
    rw [h]; exact ⟨_, _, rfl⟩
  · exact ⟨s.txn, s.dict, by cases s; rfl⟩

theorem State.endSessions_form (s : State) (l : List Nat) : ∃ x d, l.foldl State.endSession s = { s with txn := x, dict := d } := by
  induction l generalizing s with
  | nil => exact ⟨s.txn, s.dict, by cases s; rfl⟩
  | cons n l ih =>
    obtain ⟨x, d, h⟩ := s.endSession_form n
    obtain ⟨y, e, h'⟩ := ih (s.endSession n)
    exact ⟨y, e, by rw [List.foldl_cons, h', h]⟩

/-- With every 12 V load off (R371, R389). -/
theorem State.loadsOff_form (s : State) : ∃ x d, s.loadsOff = { s with
    tiles := [], routers := [], net := [], dies := [], jobs := [], migs := [], txn := x
    test := { s.test with slots := [] }
    power := { s.power with cmds := [], entering := none, lastGrant := [], idleSince := s.now, throttled := [], coolFor := [], overLimit := false }
    host := { s.host with queues := [], doorbells := [], bar2Writes := [], bar2Data := [], linkUp := false }
    boot := { s.boot with routersUp := false, meadowsUp := false, stageWork := false, fusedApplied := false }
    pins := { s.pins with loadsOn := false, mainPg := false }
    dict := d } ∧ s.loadsOff.ob Ob.module_state = 4 ∧ d.stored = s.dict.stored := by
  obtain ⟨x, v, h⟩ := s.unitsLost_form
  have hm : s.loadsOff.ob Ob.module_state = 4 := by unfold State.loadsOff; exact State.ob_putOb_self _ _ _
  unfold State.loadsOff at hm ⊢
  unfold State.mailboxReset State.linkOff at hm ⊢
  rw [h] at hm ⊢
  exact ⟨x, _, rfl, hm, rfl⟩

/-- A report changes the reports, the free values drawn and the dictionary's values alone. -/
theorem State.raise_form (s : State) (r : Report) : ∃ f e v, s.raise r = { s with free := f, errs := e, dict := { s.dict with vals := v } } := by
  have h : ∀ j n, ∃ f e v, s.raiseFor j n r = { s with free := f, errs := e, dict := { s.dict with vals := v } } := by
    intro j n
    unfold State.raiseFor
    dsimp only
    split <;> split
    all_goals first | exact ⟨s.drew.free, s.errs, (s.drew.addRec Ob.errlog_lost 0 0 1).dict.vals, rfl⟩ | exact ⟨s.drew.free, _, s.dict.vals, rfl⟩
  unfold State.raise
  split
  · exact h _ _
  · exact h _ _

/-- Recovery mode (R385): the units lost, the steward in recovery, the boot record's recovery flag set. -/
theorem State.enterRecovery_form (s : State) (cause : Nat) : ∃ x f d e a b c, s.enterRecovery cause = { s with
    tiles := [], routers := [], net := [], dies := [], jobs := [], migs := [], txn := x, free := f, dict := d, errs := e, test := a, power := b, host := c
    fw := s.fw.write { s.fw.record with recovery := true }, 
    boot := { s.boot with routersUp := false, meadowsUp := false, stageWork := false, fusedApplied := false, steward := .recovery } } ∧ c.mem = s.host.mem ∧ c.linkUp = s.host.linkUp := by
  unfold State.enterRecovery
  dsimp only
  obtain ⟨x, v, h⟩ := s.unitsLost_form
  rw [h]
  dsimp only
  have hr : ∀ z : State, ∃ v, z.recoveryPort = { z with dict := { z.dict with vals := v } } := by
    intro z; unfold State.recoveryPort; split
    · exact ⟨_, rfl⟩
    · exact ⟨z.dict.vals, by cases z; rfl⟩
  obtain ⟨v2, h2⟩ := hr { { s with
    tiles := [], routers := [], net := [], dies := [], jobs := [], migs := [], txn := x
    test := { s.test with slots := [] }
    power := { s.power with cmds := [], entering := none, lastGrant := [], idleSince := s.now, throttled := [], coolFor := [], overLimit := false }
    host := { s.host with queues := [], doorbells := [], bar2Writes := [], bar2Data := [] }
    boot := { s.boot with routersUp := false, meadowsUp := false, stageWork := false, fusedApplied := false, steward := .recovery }
    dict := { s.dict with vals := v } } with fw := s.fw.write { s.fw.record with recovery := true } }
  rw [h2]
  obtain ⟨f, e, v3, h3⟩ := State.raise_form { s with
    tiles := [], routers := [], net := [], dies := [], jobs := [], migs := [], txn := x
    test := { s.test with slots := [] }
    power := { s.power with cmds := [], entering := none, lastGrant := [], idleSince := s.now, throttled := [], coolFor := [], overLimit := false }
    host := { s.host with queues := [], doorbells := [], bar2Writes := [], bar2Data := [] }
    boot := { s.boot with routersUp := false, meadowsUp := false, stageWork := false, fusedApplied := false, steward := .recovery }
    dict := { s.dict with vals := v2 }, fw := s.fw.write { s.fw.record with recovery := true } } { kind := 0x0A03, unitClass := 5, detail := cause }
  refine ⟨x, f, _, e, _, _, _, h3.trans rfl, rfl, rfl⟩

/-- A slot that verifies is booted (R384). -/
theorem State.bootRom_good {s : State} (h : s.slotGood s.fw.record.active = true) (mode : StewardMode) (n : Nat) :
    s.bootRom mode (n + 1) = { s with boot := { s.boot with steward := mode, bootAt := s.now } } := by
  unfold State.bootRom
  rw [if_pos h]

theorem FwState.write_slots (f : FwState) (r : BootRec) : (f.write r).slots = f.slots := by unfold FwState.write; dsimp only; split <;> rfl
theorem FwState.write_staged (f : FwState) (r : BootRec) : (f.write r).staged = f.staged := by unfold FwState.write; dsimp only; split <;> rfl

/-- The boot record just written is in force, where its number does not wrap. -/
theorem FwState.write_record (f : FwState) (r : BootRec) (h : f.record.seq + 1 < 2 ^ 32) : (f.write r).record = { r with seq := f.record.seq + 1 } := by
  unfold FwState.write FwState.record at *
  dsimp only at *
  by_cases hc : f.recA.seq < f.recB.seq
  · rw [if_pos hc] at h ⊢
    rw [if_pos hc]
    dsimp only
    rw [Nat.mod_eq_of_lt h, if_neg (by omega)]
  · rw [if_neg hc] at h ⊢
    rw [if_neg hc]
    dsimp only
    rw [Nat.mod_eq_of_lt h, if_pos (by omega)]

/-- What a boot keeps: what lasts, the pins and the straps as sampled. -/
structure State.BootKin (s t : State) : Prop where
  lasting : t.lasting = s.lasting
  pins : t.pins = s.pins
  strict : t.boot.strict = s.boot.strict
  slotId : t.boot.slotId = s.boot.slotId

theorem State.BootKin.refl {s : State} : s.BootKin s := ⟨rfl, rfl, rfl, rfl⟩
theorem State.BootKin.trans {s t u : State} (h : s.BootKin t) (h' : t.BootKin u) : s.BootKin u :=
  ⟨h'.lasting.trans h.lasting, h'.pins.trans h.pins, h'.strict.trans h.strict, h'.slotId.trans h.slotId⟩

theorem State.enterRecovery_kin (s : State) (cause : Nat) : s.BootKin (s.enterRecovery cause) := by
  obtain ⟨x, f, d, e, a, b, c, h, h1, -⟩ := s.enterRecovery_form cause
  rw [h]
  refine ⟨?_, rfl, rfl, rfl⟩
  unfold State.lasting
  rw [← h1]; simp only [FwState.write_slots, FwState.write_staged]

theorem State.raise_kin (s : State) (r : Report) : s.BootKin (s.raise r) := by
  obtain ⟨f, e, v, h⟩ := s.raise_form r
  rw [h]; exact ⟨rfl, rfl, rfl, rfl⟩

theorem State.written_kin (s : State) (l : Option Nat) (r : BootRec) : s.BootKin { s with fw := { s.fw with lastFailed := l }.write r } := by
  refine ⟨?_, rfl, rfl, rfl⟩
  unfold State.lasting
  simp only [FwState.write_slots, FwState.write_staged]

theorem State.oldSettings_kin (s : State) : s.BootKin s.oldSettings := ⟨rfl, rfl, rfl, rfl⟩

theorem State.boot_kin (s : State) (f : BootState → BootState) (h : (f s.boot).strict = s.boot.strict) (h' : (f s.boot).slotId = s.boot.slotId) :
    s.BootKin { s with boot := f s.boot } := ⟨rfl, rfl, h, h'⟩
theorem State.putOb_kin (s : State) (k v : Nat) : s.BootKin (s.putOb k v) := ⟨rfl, rfl, rfl, rfl⟩
theorem State.alert_kin (s : State) (n : Nat) : s.BootKin (s.alert n) := ⟨rfl, rfl, rfl, rfl⟩

theorem State.bootFailed_kin (s : State) : s.BootKin s.bootFailed.1 := by
  have key : ∀ (X : State) (c : Prop) [Decidable c], s.BootKin X → s.BootKin (if c then (X.enterRecovery 1, false) else (X, true)).1 := by
    intro X c _ h
    split
    · exact h.trans (State.enterRecovery_kin _ _)
    · exact h
  unfold State.bootFailed
  dsimp only
  apply key
  split
  · refine State.BootKin.trans ?_ (State.raise_kin _ _)
    refine State.BootKin.trans ?_ (State.alert_kin _ _)
    refine State.BootKin.trans ?_ (State.boot_kin _ (fun b => { b with activatedSince := true }) rfl rfl)
    refine State.BootKin.trans ?_ (State.putOb_kin _ _ _)
    refine State.BootKin.trans ?_ (State.oldSettings_kin _)
    exact s.written_kin _ _
  · exact s.written_kin _ _

theorem State.bootRom_kin (mode : StewardMode) (n : Nat) : ∀ s : State, s.BootKin (s.bootRom mode n) := by
  induction n with
  | zero => exact fun s => State.BootKin.refl
  | succ n ih =>
    intro s
    unfold State.bootRom
    split
    · exact ⟨rfl, rfl, rfl, rfl⟩
    · dsimp only
      split
      · exact s.bootFailed_kin.trans (ih _)
      · exact s.bootFailed_kin

/-- Reloading the dictionary (R255, R256) keeps what a boot keeps. -/
theorem State.reload_kin (s : State) (cold : Bool) : s.BootKin (s.reload cold) := by
  obtain ⟨x, d, h, -⟩ := s.reload_form cold
  rw [h]; exact ⟨rfl, rfl, rfl, rfl⟩

end Sys2Proof.Machine
end

