-- ==== Sys2Proof/Laws/TObj.lean ====
section
/-! SUPPORT. The laws of stores to the t_ objects (R77): which object a store at an offset reaches. -/

namespace Sys2Proof.Machine

/-- The offsets below 0x600F00 at which t_ objects stand that a store of a row of its own reaches. -/
theorem State.tWord_isNone (s : State) (p : Nat) {off : Nat} (h : 0x600000 ≤ off)
    (h' : (0x600100 ≤ off ∧ off < 0x600180) ∨ (0x600800 ≤ off ∧ off < 0x600A80) ∨ (0x600B00 ≤ off ∧ off < 0x600B80) ∨
      (0x600C00 ≤ off ∧ off < 0x600D00)) : (s.tWord p off).isNone = false := by
  unfold State.tWord
  extract_lets t o
  have h3 : (0x100 ≤ o ∧ o < 0x180) ∨ (0x800 ≤ o ∧ o < 0xA80) ∨ (0xB00 ≤ o ∧ o < 0xB80) ∨ (0xC00 ≤ o ∧ o < 0xD00) := by omega
  clear_value o
  clear h h'
  rw [if_neg (show ¬ o = 0 by omega), if_neg (show ¬ o = 8 by omega), if_neg (show ¬ o = 16 by omega), if_neg (show ¬ o = 24 by omega)]
  by_cases c100 : 0x100 ≤ o ∧ o < 0x180
  · rw [if_pos c100]; rfl
  rw [if_neg c100]
  by_cases c200 : 0x200 ≤ o ∧ o < 0x300
  · rw [if_pos c200]; rfl
  rw [if_neg c200]
  by_cases c300 : 0x300 ≤ o ∧ o < 0x340
  · rw [if_pos c300]; rfl
  rw [if_neg c300]
  by_cases c340 : 0x340 ≤ o ∧ o < 0x400
  · rw [if_pos c340]; rfl
  rw [if_neg c340]
  by_cases c400 : 0x400 ≤ o ∧ o < 0x800
  · rw [if_pos c400]; rfl
  rw [if_neg c400]
  by_cases c800 : 0x800 ≤ o ∧ o < 0xA00
  · rw [if_pos c800]; rfl
  rw [if_neg c800]
  by_cases cA00 : 0xA00 ≤ o ∧ o < 0xA80
  · rw [if_pos cA00]; rfl
  rw [if_neg cA00]
  by_cases cB00 : 0xB00 ≤ o ∧ o < 0xB80
  · rw [if_pos cB00]; rfl
  rw [if_neg cB00]
  by_cases cC00 : 0xC00 ≤ o ∧ o < 0xD00
  · rw [if_pos cC00]; rfl
  rw [if_neg cC00]
  omega

theorem State.tStore_task (s : State) (p : Nat) {k : Nat} (v : Nat) (hk : k < 16) :
    s.tStore p (0x600100 + 8 * k) v = (s.tile p).storeTask s.now k v := by
  unfold State.tStore
  dsimp only
  rw [State.tWord_isNone s p (by omega) (by omega)]
  repeat' split
  all_goals first
    | omega
    | (exfalso; simp_all; done)
    | (congr 1 <;> omega)

theorem State.tStore_pump (s : State) (p : Nat) {n i : Nat} (v : Nat) (hn : n < 8) (hi : i < 8) :
    s.tStore p (0x600800 + 64 * n + 8 * i) v = (s.tile p).storePump (cisternBytes s.variant) n i v := by
  unfold State.tStore
  dsimp only
  rw [State.tWord_isNone s p (by omega) (by omega)]
  repeat' split
  all_goals first
    | omega
    | (exfalso; simp_all; done)
    | (congr 1 <;> omega)

theorem State.tStore_trough (s : State) (p : Nat) {n : Nat} (v : Nat) (hn : n < 16) :
    s.tStore p (0x600A00 + 8 * n) v = (s.tile p).storeTrough n v := by
  unfold State.tStore
  dsimp only
  rw [State.tWord_isNone s p (by omega) (by omega)]
  repeat' split
  all_goals first
    | omega
    | (exfalso; simp_all; done)
    | (congr 1 <;> omega)

theorem State.tStore_well (s : State) (p : Nat) {n : Nat} (v : Nat) (hn : n < 8) :
    s.tStore p (0x600B00 + 16 * n) v = (s.tile p).storeWell s.variant n v := by
  unfold State.tStore
  dsimp only
  rw [State.tWord_isNone s p (by omega) (by omega)]
  repeat' split
  all_goals first
    | omega
    | (exfalso; simp_all; done)
    | (congr 1 <;> omega)

theorem State.tStore_counter (s : State) (p : Nat) {n i : Nat} (v : Nat) (hn : n < 16) (hi : i < 2) :
    s.tStore p (0x600C00 + 16 * n + 8 * i) v = (s.tile p).storeCounter n i v := by
  unfold State.tStore
  dsimp only
  rw [State.tWord_isNone s p (by omega) (by omega)]
  repeat' split
  all_goals first
    | omega
    | (exfalso; simp_all; done)
    | (congr 1 <;> omega)

/-- A store of a row of its own by the running task is its SD (R77). -/
theorem storeRow_sd {s : State} {p off k : Nat} {accept : Nat → Bool} {b a : Reg} {imm : Imm16} (hr : (s.tile p).runner = some k)
    (hn : s.names p (s.reg p k a + imm.signExtend 64) off) (ha : accept (s.reg p k b).toNat = true) :
    storeRow p off accept (.sd b a imm) s = storeI p 0x1F 8 b a imm s := by
  unfold storeRow
  dsimp only
  rw [hr]
  have := localOffset_of_names hn
  rw [show sext16 imm = imm.signExtend 64 from rfl]
  dsimp only
  rw [this]
  dsimp only
  rw [if_pos ⟨rfl, ha⟩]

end Sys2Proof.Machine
end

