-- ==== Sys2Proof/Tests/Slice0.lean ====
section
/-! SUPPORT. Tests: for each check of well-formedness an ill-formed command that it refuses, and for the statements' hypotheses states that meet them. -/

namespace Sys2Proof.Tests

open Sys2Proof.Machine

-- One proof at a time: a kernel evaluation waits for the ones before it, each in a thread of its own.
set_option Elab.async false

/-! Ill-formed commands (R206, R211, R237, R259, R263, R269, R299, R300, R361, R374). -/

/-- A frame of zeros with nothing in it. -/
def frame0 : Frame :=
  { die := 4, subPort := 0, ce := false, version := 1, kind := 0, space := 0, ceEcho := false, retx := false, op := 0, status := 0, dstRole := 0
    dstEpoch := 0, srcRole := 0, srcEpoch := 0, seq := 0, payloadLen := 0, winIndex := 0, winGen := 0, offset := 0, id := 0, answered := 0
    count := 0, type := 0, groupBytes := 0, sendTime := 0, cumulative := 0, sack := 0, payload := [] }

/-- A dictionary message of an operation. -/
def req (op : Nat) : DictReq := { op, index := 0x1000, sub := 1, first := 0, count := 1, length := 0, tag := 0, reserved := 0, data := [] }

theorem test_sensor_refused : (Instr.thermalSample [{ die := 4, sensor := 4, value := none }]).wf = false := by decide

theorem test_failure_kind_refused : (Instr.bringupCommand4 .i3c [{ kind := 0x0D, unit := 0, sub := 0, index := 0 }]).wf = false := by decide

theorem test_failure_unit_refused : (Instr.rotationTestComplete 0 [{ kind := 1, unit := 8192, sub := 0, index := 0 }]).wf = false := by decide

theorem test_one_byte_refused : (Instr.mapAdopt .i3c 256).wf = false ∧ (Instr.fuseBurn .i3c 256).wf = false ∧ (Instr.commission .i3c 256).wf = false ∧
    (Instr.dumpUnprotect .i3c 256).wf = false := by decide

theorem test_bar0_read_refused : (Instr.bar0Read 0 0).wf = false ∧ (Instr.bar0Read 0 9).wf = false ∧ (Instr.bar0Read (2 ^ 27 - 4) 8).wf = false := by decide

theorem test_bar0_write_refused : (Instr.dictWrite (.bar0 0 1 256)).wf = false ∧ (Instr.rwtStage (.bar0 (2 ^ 27) 1 0)).wf = false := by decide

theorem test_message_refused : (Instr.dictWrite (.msg .i3c (req 1))).wf = false ∧ (Instr.dictRead .bar0 (req 1)).wf = false ∧
    (Instr.readStaged .i3c (req 1)).wf = false ∧ (Instr.describe .i3c { req 4 with tag := 2 ^ 32 }).wf = false := by decide

theorem test_settings_erase_refused : (Instr.settingsErase .i3c (2 ^ 32)).wf = false := by decide

theorem test_root_hash_refused : (Instr.fmRootHashWrite .i3c [0, 0]).wf = false := by decide

theorem test_frame_version_refused : (Instr.ack { frame0 with version := 16 }).wf = false := by decide

theorem test_frame_offset_refused : (Instr.trashandiWrite { frame0 with offset := 2 ^ 40 }).wf = false := by decide

theorem test_arp_refused : (Instr.arpNdFrame 0 { target := 2 ^ 128, senderMac := 0, senderIp := 0, isRequest := true }).wf = false := by decide

theorem test_echo_refused : (Instr.icmpEchoRequest 0 { dst := 2 ^ 128, src := 0, v6 := true, data := [] }).wf = false := by decide

theorem test_ptp_refused : (Instr.ptpFrame 0 (.sync 256 0)).wf = false ∧ (Instr.ptpFrame 0 (.delayResp 0 0 (2 ^ 64))).wf = false := by decide

theorem test_margin_refused : (Instr.marginMeasurement 0 (2 ^ 15)).wf = false := by decide

theorem test_bar2_refused : (Instr.bar2Write 0 []).wf = false ∧ (Instr.bar2Write (2 ^ 36) [0]).wf = false ∧ (Instr.bar2Read 0 0).wf = false := by decide

theorem test_governor_refused : (Instr.governorInterval { input := 2 ^ 32, other := 0 }).wf = false := by decide

theorem test_mailbox_refused (b : Bytes) (h : b.length = 4065) : (Instr.mailboxGo 0 b).wf = false := by
  simp [Instr.wf, h]

theorem test_lldp_refused (b : Bytes) (h : b.length = 1505) : (Instr.lldpReceive 0 b).wf = false := by
  simp [Instr.wf, h]

/-! States that meet the hypotheses of the statements. -/

/-- A module after reset with one tile. -/
def st (t : Tile) : State := { State.reset with tiles := [(0, t)] }

/-- A tile of meadow 0, logical tile 0, whose task 0 runs with some register values. -/
def tileOf (regs : List (Reg × Word)) : Tile :=
  { logical := some 0, meadow := some 0, power := { state := .t0 }
    seq := { run := true, tasks := [(0, regs.foldl (fun x r => x.setReg r.1 r.2) { state := .running })] } }

/-- The module with that tile, changed. -/
def run (regs : List (Reg × Word)) (f : Tile → Tile := id) : State := st (f (tileOf regs))

/-- Such a module whose tile carries nothing for other tiles' links. -/
theorem run_relays {regs : List (Reg × Word)} {f : Tile → Tile} (h : (f (tileOf regs)).relays = []) : (run regs f).relaysIdle := by
  intro q r hr
  have : ((run regs f).tile q).relays = [] := by
    show (Tbl.get {} [(0, f (tileOf regs))] q).relays = []
    unfold Tbl.get
    repeat' split
    · exact h
    · rfl
    · rfl
  rw [this] at hr; cases hr

/-- Register arithmetic, with an immediate or without. -/
theorem wit_RegisterArithmeticResults : (run [(1, 5), (2, 7)]).issues 0 0 ∧ (run [(1, 5), (2, 7)]).pcInside 0 0 := by
  unfold State.issues State.pcInside; decide

theorem wit_ImmediateArithmeticResults : (run [(1, 5)]).issues 0 0 ∧ (run [(1, 5)]).pcInside 0 0 ∧ (191 : Imm16) = BitVec.ofNat 16 (2 * 64 + 63) := by
  unfold State.issues State.pcInside; decide

theorem wit_DivisionResults : (run [(1, 7)]).issues 0 0 ∧ (run [(1, 7)]).pcInside 0 0 ∧ (run [(1, 7)]).reg 0 0 2 = 0 := by
  unfold State.issues State.pcInside; decide

theorem wit_DivisionCorners : ((run []).issues 0 0 ∧ (run []).reg 0 0 2 = 0) ∧
    let s := run [(1, BitVec.ofInt 64 (-2 ^ 63)), (2, BitVec.ofInt 64 (-1))]
    s.issues 0 0 ∧ s.pcInside 0 0 ∧ (s.reg 0 0 1).toInt = -2 ^ 63 ∧ (s.reg 0 0 2).toInt = -1 := by
  unfold State.issues State.pcInside; decide

/-- A taken JALR to the last word, one beyond it and one misaligned; a branch not taken. -/
theorem wit_JumpsAndBranches :
    (∀ x : Word, x = 0xFFFC ∨ x = 0x10000 ∨ x = 2 → (run [(1, x)]).issues 0 0 ∧ (run [(1, x)]).pcInside 0 0 ∧ (run [(1, x)]).reg 0 0 1 = x) ∧
    ((run [(1, 1)]).reg 0 0 1 == (run [(1, 1)]).reg 0 0 2) = false := by
  refine ⟨?_, by decide⟩
  rintro x (rfl | rfl | rfl) <;> (unfold State.issues State.pcInside; decide)

/-- The two forms of a local address, at the first and the last word of a Q9-4096F's cistern. -/
theorem wit_LoadResults :
    (∀ x : Nat × Nat, x = (0xF000000000000000, 0) ∨ x = (0x4FFFF8, 0x4FFFF8) →
      let s := run [(1, BitVec.ofNat 64 x.1)]
      s.issues 0 0 ∧ s.pcInside 0 0 ∧ s.names 0 (s.reg 0 0 1 + (0 : Imm16).signExtend 64) x.2 ∧ s.cisternClean 0 x.2 8 ∧
        (s.tile 0).anyRange x.2 8 .void = false ∧ (s.tile 0).anyRange x.2 8 .filling = false) ∧
    (let f (t : Tile) : Tile := { t with ranges := [(3, { claimed := true, start := 0, len := 1, fills := [1] })] }
     ((run [] f).tile 0).anyRange 0 8 .filling = true ∧ ((run [] f).tile 0).anyRange 0 8 .void = false ∧ (run [] f).cisternClean 0 0 8) ∧
    (let f (t : Tile) : Tile := { t with ranges := [(3, { claimed := true, start := 0, len := 1, voidAt := some 1 })] }
     ((run [] f).tile 0).anyRange 0 8 .void = true ∧ (run [] f).cisternClean 0 0 8) ∧
    (run []).tWord 0 0x600000 = some 0 := by
  refine ⟨?_, ?_, ?_, by decide⟩
  · rintro x (rfl | rfl)
    · refine ⟨by unfold State.issues; decide, by unfold State.pcInside; decide, ⟨by decide, .inl (by decide)⟩, by unfold State.cisternClean; decide, by decide, by decide⟩
    · refine ⟨by unfold State.issues; decide, by unfold State.pcInside; decide, ⟨by decide, .inr ⟨0, by decide, by decide, by decide⟩⟩, by unfold State.cisternClean; decide, by decide, by decide⟩
  · unfold State.cisternClean; decide
  · unfold State.cisternClean; decide

theorem wit_StoreResults :
    let d (t : Tile) : Tile := { t with ranges := [(3, { claimed := true, start := 0, len := 1, drains := [1] })] }
    (run []).cisternClean 0 0 8 ∧ (run []).inBuddyCopy ((run []).tile 0) 0 8 = false ∧ ((run []).tile 0).anyRange 0 8 .draining = false ∧
    (run [] d).cisternClean 0 0 8 ∧ (run [] d).inBuddyCopy ((run [] d).tile 0) 0 8 = false ∧ ((run [] d).tile 0).anyRange 0 8 .draining = true := by
  unfold State.cisternClean; decide

/-- Each refused form: codes 1, 4, 5, 0xE and 0xF with a bit too many, and another logical tile. -/
theorem wit_RefusedAddressForms : ∀ c : Nat, c = 1 ∨ c = 4 ∨ c = 5 ∨ c = 0xE →
    let s := run [(1, BitVec.ofNat 64 (c * 2 ^ 60))]
    s.issues 0 0 ∧ (s.reg 0 0 1 + (0 : Imm16).signExtend 64).toNat / 2 ^ 60 = c := by
  rintro c (rfl | rfl | rfl | rfl) <;> (unfold State.issues; decide)

theorem wit_RefusedAddressForms_local :
    (∀ off, off < 2 ^ 23 → 2 ^ 36 ≠ 0 * 2 ^ 36 + off) ∧ (run [(1, BitVec.ofNat 64 (2 ^ 36))]).issues 0 0 ∧
    (0xF * 2 ^ 60 + 2 ^ 23 ≤ (BitVec.ofNat 64 (0xF * 2 ^ 60 + 2 ^ 23)).toNat) := by
  refine ⟨by omega, by unfold State.issues; decide, by decide⟩

/-- The pc at the last word, and a poisoned word. -/
theorem wit_InstructionFaults :
    (let f (t : Tile) : Tile := t.modTask 0 fun x => { x with pc := 0xFFFC#16 }
     ((run [] f).tile 0).runner = some 0 ∧ ((run [] f).tile 0).fetchPoison 0 = 0 ∧ reservedWord (((run [] f).tile 0).wordAt 0) = false ∧
       (((run [] f).tile 0).task 0).parity = [] ∧ (((run [] f).tile 0).task 0).pc = 0xFFFC#16) ∧
    (let f (t : Tile) : Tile := { t with ecc := { imem := [(0, 2)] } }
     ((run [] f).tile 0).runner = some 0 ∧ 2 ≤ ((run [] f).tile 0).fetchPoison 0) ∧
    (let f (t : Tile) : Tile := { t with imem := Mem.writeBytes [] 0 (toLE 4 (0x3F * 2 ^ 26)) }
     ((run [] f).tile 0).runner = some 0 ∧ ((run [] f).tile 0).fetchPoison 0 = 0 ∧ reservedWord (((run [] f).tile 0).wordAt 0) = true) ∧
    (let f (t : Tile) : Tile := t.modTask 0 fun x => { x with parity := [31] }
     ((run [] f).tile 0).fetchPoison 0 = 0 ∧ reservedWord (((run [] f).tile 0).wordAt 0) = false ∧ (((run [] f).tile 0).task 0).parity = [31]) := by decide

/-- CLAIM of the last 256 B; of an overlapped range; with every entry claimed; RELEASE of a claimed range, and of a Filling one. -/
theorem wit_ClaimAndRelease :
    (let s := run [(1, 0x4FFF00), (2, 256)]
     s.issues 0 0 ∧ s.pcInside 0 0 ∧ (s.reg 0 0 1).toNat % 256 = 0 ∧ (s.reg 0 0 1).toNat + (s.reg 0 0 2).toNat = cisternBytes s.variant ∧
       (∀ r < 64, ((s.tile 0).range r).overlaps 0x4FFF00 256 = false) ∧ ∃ r < 64, ((s.tile 0).range r).claimed = false) ∧
    (let f (t : Tile) : Tile := { t with ranges := [(63, { claimed := true, start := 0, len := 1 })] }
     (∃ r < 64, (((run [] f).tile 0).range r).overlaps 0 256 = true) ∧ (((run [] f).tile 0).range 63).claimed = true ∧
       (((run [] f).tile 0).range 63).state ≠ .filling ∧ (((run [] f).tile 0).range 63).state ≠ .draining) ∧
    (let f (t : Tile) : Tile := { t with ranges := (List.range 64).map fun r => (r, { claimed := true, start := r, len := 1 }) }
     (∀ r < 64, (((run [] f).tile 0).range r).claimed = true) ∧ ∀ r < 64, (((run [] f).tile 0).range r).overlaps 0x4000 256 = false) ∧
    (let f (t : Tile) : Tile := { t with ranges := [(0, { claimed := true, start := 0, len := 1, fills := [1] })] }
     (((run [] f).tile 0).range 0).state = .filling) := by
  unfold State.issues State.pcInside; decide

/-- PUMP of a valid descriptor; a full ring; SWAP of a configured pair, and of one whose half is Filling. -/
theorem wit_PumpAndSwap :
    (let f (t : Tile) : Tile := { t with pumps := [(7, { ringLen := 2, tail := 1, head := 1 })] }
     let s := run [(1, 7), (2, 1)] f
     s.issues 0 0 ∧ s.pcInside 0 0 ∧ 1 ≤ ((s.tile 0).pump 7).ringLen - ((s.tile 0).pump 7).ringUsed) ∧
    (let f (t : Tile) : Tile := { t with pumps := [(7, { ringLen := 1, jobs := [{ desc := 0, slot := 0, stamp := 0, dst := 0, dstRange := none, srcRange := none }] })] }
     1 - (((run [] f).tile 0).pump 7).ringUsed < 1) ∧
    (let f (t : Tile) : Tile := { t with troughs := [(15, { configured := true, rangeA := 1, rangeB := 2 })] }
     (((run [] f).tile 0).trough 15).configured = true ∧ (((run [] f).tile 0).trough 15).statePair = false ∧
       ∀ r ∈ [1, 2], (((run [] f).tile 0).range r).state ≠ .filling ∧ (((run [] f).tile 0).range r).state ≠ .draining) ∧
    (let f (t : Tile) : Tile := { t with troughs := [(15, { configured := true, rangeA := 1, rangeB := 2 })], ranges := [(2, { claimed := true, start := 0, len := 1, fills := [1] })] }
     ∃ r ∈ [1, 2], (((run [] f).tile 0).range r).state = .filling) := by
  unfold State.issues State.pcInside; decide

theorem wit_SendIssue :
    let s := run [(1, 0), (2, 0)]
    s.issues 0 0 ∧ wellOperandOk 0 = true ∧ localReadable s.variant 0 64 = true ∧
    s.inHedge (s.tile 0).meadow ((s.tile 0).logical.getD 0xFFF) (.loc 0 0) = true ∧ s.loadPoison 0 0 64 = 0 := by
  unfold State.issues; decide

/-- WAITANY over well 7: with a message, Open without one, and Closed. -/
theorem wit_WaitanyResults :
    (let f (t : Tile) : Tile := { t with wells := [(7, { state := .opened, msgs := [{ sender := 0, descs := [1] }] })] }
     let s := run [(1, 128)] f
     s.issues 0 0 ∧ s.pcInside 0 0 ∧ (s.reg 0 0 1).toNat.testBit 7 = true ∧ ((s.tile 0).well 7).state = .opened ∧ ((s.tile 0).well 7).msgs ≠ [] ∧
       ∀ v < 7, ¬ ((s.reg 0 0 1).toNat.testBit v = true)) ∧
    (let f (t : Tile) : Tile := { t with wells := [(7, { state := .opened })] }
     (((run [(1, 128)] f).tile 0).well 7).msgs = []) ∧
    (((run [(1, 128)]).tile 0).well 7).state ≠ .opened := by
  unfold State.issues State.pcInside; decide

/-- WAIT with and without a pending event, CREDIT with and without the balance. -/
theorem wit_WaitingInstructions :
    (let f (t : Tile) : Tile := t.modTask 0 fun x => { x with pend := 0x2000 }
     let s := run [] f
     s.issues 0 0 ∧ s.pcInside 0 0 ∧ ((s.tile 0).pendingOf 0) &&& ((s.reg 0 0 1).toNat ||| 0x2000) ≠ 0) ∧
    ((run [(1, 0x3FFF)]).tile 0).pendingOf 0 &&& (0x3FFF ||| 0x2000) = 0 ∧
    (let f (t : Tile) : Tile := { t with power := { state := .t0, balance := 5 } }
     let s := run [(1, 5)] f
     (s.reg 0 0 1).toNat ≤ s.creditCapacity (s.tile 0) ∧ (s.reg 0 0 1).toNat ≤ (s.tile 0).power.balance) ∧
    ((run [(1, 1)]).tile 0).power.balance < 1 := by
  unfold State.issues State.pcInside; decide

/-- A descriptor of R116 that copies 8 B from offset 0 to offset 0x100, and one that writes zeros there. -/
def copy8 : Nat := 0xF * 2 ^ 60 + (0xF * 2 ^ 60 + 0x100) * 2 ^ 64 + 8 * 2 ^ 128 + 2 ^ 152 + 2 ^ 168 + 2 ^ 184

/-- The job of that descriptor. -/
def job8 : PumpJob := { desc := copy8, slot := 0, stamp := 1, dst := 0x100, dstRange := none, srcRange := none }

/-- A unit's operation (R83): opcode, FP32 operands of one element, A at 0, B at 0x80, C at 0x100, the status record at 0x200. -/
def op32 (op b : Nat) (k : Nat) : Nat :=
  op + 2 ^ 48 + 2 ^ 64 + k * 2 ^ 80 + 8 * 2 ^ 216 + b * (0x80 * 2 ^ 240 + 8 * 2 ^ 264) + 0x100 * 2 ^ 288 + 8 * 2 ^ 312 + 0x200 * 2 ^ 432

/-- A tile whose well 0 is bound to a unit and holds a message. -/
def withMsg (binding desc : Nat) (t : Tile) : Tile :=
  { t with wells := [(0, { state := .opened, binding, msgs := [{ sender := 0, descs := [desc] }] })] }

/-- A tile whose route entry `e` is fed by input 0 of class 0 and holds a word there (R138). -/
def withWord (e : Nat) (w : StreamWord) (t : Tile) : Tile :=
  { t with slots := [(0x40 + 4 * e, 1)], stream := { inQ := [(0, [w])] } }

theorem wit_PumpAndSwap_pump :
    let f (t : Tile) : Tile := { t with pumps := [(7, { ringLen := 1 })], cistern := Mem.writeBytes [] 0 (toLE 64 copy8) }
    let s := run [(1, 7), (2, 1)] f
    s.issues 0 0 ∧ s.pcInside 0 0 ∧ s.firstPass (s.tile 0) ((s.tile 0).tailDescs 7 1) 0 [] [] = none ∧ (s.tile 0).poison 0 64 = 0 := by
  unfold State.issues State.pcInside; decide +kernel

/-- The last slot of a ring of two whose last word has a double-bit error, behind a slot of an acceptable descriptor. -/
theorem wit_PumpAndSwap_badSlot :
    let f (t : Tile) : Tile := { t with pumps := [(7, { ringLen := 2 })], cistern := Mem.writeBytes [] 0 (toLE 64 copy8), ecc := { cistern := [(15, 2)] } }
    let s := run [(1, 7), (2, 2)] f
    s.issues 0 0 ∧ (s.tile 0).poison 0 64 = 0 ∧ 2 ≤ (s.tile 0).poison 64 64 ∧ s.firstPass (s.tile 0) (((s.tile 0).tailDescs 7 2).take 1) 0 [] [] = none := by
  unfold State.issues; decide +kernel

/-- A loaded slot, an output with credit and without, an enabled barrier. -/
theorem wit_FoldTokenBarrier :
    (let f (t : Tile) : Tile := { t with barriers := [(15, { enable := true, expected := 1 })] }
     let s := run [(1, 15)] f
     s.issues 0 0 ∧ s.pcInside 0 0 ∧ ((s.tile 0).barrier 15).enable = true) ∧
    ((run [(1, 5)]).tile 0).slotLoaded 5 = false ∧ ((run [(1, 5)]).tile 0).tokenReady 3 = true ∧ tokenReserved 5 = false ∧ tokenReserved 0 = true ∧
    ((run [(1, 5)]).tile 0).stream.slackQ = [] ∧ ((run [(1, 5)]).tile 0).stream.sinkQ = [] ∧
    (let f (t : Tile) : Tile := { t with stream := { inQ := [(inKey 5 7, List.replicate 4 (.data 0))] } }
     ((run [] f).tile 0).tokenReady 3 = false) := by
  unfold State.issues State.pcInside; decide

/-- Stores to t_ objects: an idle task, an empty ring, a Closed well, an Open well, an unconfigured pair over claimed ranges. -/
theorem wit_TObjectStores :
    (((run []).tile 0).task 15).state = .idle ∧ bits (2 ^ 28) 31 28 = 1 ∧ (((run []).tile 0).pump 7).ringEmpty = true ∧
    (((run []).tile 0).well 7).state = .closed ∧ (((run [] (withMsg 1 0)).tile 0).well 0).state = .opened ∧ bits (0x24 : Nat) 3 2 = 1 ∧
    (let f (t : Tile) : Tile := { t with ranges := [(62, { claimed := true }), (63, { claimed := true })] }
     (((run [] f).tile 0).trough 15).configured = false ∧ (((run [] f).tile 0).range 63).claimed = true ∧ (((run [] f).tile 0).range 62).claimed = true) := by
  decide

/-- A stalled task whose range is no longer Filling, a timer that has come, a watchdog that has expired, another clock source, a well Resetting. -/
theorem wit_ReleasesAndWakes :
    (let f (t : Tile) : Tile := t.modTask 15 fun x => { x with state := .stalled, stall := some (.load 0 8) }
     (((run [] f).tile 0).task 15).state = .stalled ∧ (((run [] f).tile 0).task 15).stall = some (.load 0 8) ∧
       ((run [] f).tile 0).anyRange 0 8 .filling = false ∧ ((run [] f).tile 0).power.state = .t0 ∧ ((run [] f).tile 0).frozen = false) ∧
    (let f (t : Tile) : Tile := { t with seq := { t.seq with timerArmed := true } }
     ((run [] f).tile 0).seq.timerArmed = true ∧ ((run [] f).tile 0).seq.timer ≤ (run [] f).now) ∧
    (let f (t : Tile) : Tile := t.modTask 0 fun x => { x with wdEnable := true }
     let s := { run [] f with now := 1000000 }
     ((s.tile 0).task 0).wdEnable = true ∧ 0 < (s.tile 0).seq.wdPeriod ∧ (s.tile 0).seq.wdPeriod * 1000 ≤ s.now - ((s.tile 0).task 0).wdSince) ∧
    (let f (t : Tile) : Tile := { t with power := { state := .t0, source := true }, wells := [(7, { state := .resetting })] }
     ((run [] f).tile 0).power.source ≠ ((run [] f).tile 0).power.sourceNow ∧ (((run [] f).tile 0).well 7).state = .resetting) ∧
    (let f (t : Tile) : Tile := { t.modTask 0 fun x => { x with state := .waiting } with power := { state := .t3 } }
     ((run [] f).tile 0).power.state = .t3 ∧ ((run [] f).tile 0).meadow.isSome = true ∧ (((run [] f).tile 0).task 0).state = .waiting) := by
  decide

/-- VABS, MATMUL and LACVT of one element, each taken and run at once over clean operands. -/
theorem wit_VectorResults :
    let s := run [] (withMsg 2 (op32 0x48 0 0))
    let m : WellMsg := { sender := 0, descs := [op32 0x48 0 0] }
    let o := UnitOp.ofMsg m
    o.op = 0x48 ∧ s.TakesNext 0 false 0 m [] ∧ s.RunsAtOnce 0 false o ∧ o.m = 1 ∧
    (∀ e ∈ o.rowReads 0, s.readAbort 0 e = 0 ∧ (s.tile 0).poison e.1 e.2 = 0) ∧ s.strictFault (s.tile 0) 0x100 4 = false := by
  refine ⟨by decide, ⟨by decide, by decide, by decide, by decide, by decide⟩, ⟨by decide, by decide, by decide, by decide, by decide, ?_, by decide, by decide, by decide, run_relays rfl, ?_⟩, by decide, by decide, by decide⟩
  · intro g hg; rw [← Option.some.inj hg]; decide
  · intro x hx; cases hx

theorem wit_TensorResults :
    let s := run [] (withMsg 1 (op32 1 1 1))
    let m : WellMsg := { sender := 0, descs := [op32 1 1 1] }
    let o := UnitOp.ofMsg m
    o.op = 1 ∧ s.TakesNext 0 true 0 m [] ∧ s.RunsAtOnce 0 true o ∧ o.readExtents = [(0, 4), (0x80, 4)] ∧
    (∀ e ∈ o.readExtents, s.readAbort 0 e = 0 ∧ (s.tile 0).poison e.1 e.2 = 0) ∧ s.strictFault (s.tile 0) 0x100 4 = false := by
  refine ⟨by decide, ⟨by decide, by decide, by decide, by decide, by decide⟩, ⟨by decide, by decide, by decide, by decide, by decide, ?_, by decide, by decide, by decide, run_relays rfl, ?_⟩, by decide, by decide, by decide⟩
  · intro g hg; rw [← Option.some.inj hg]; decide
  · intro x hx; cases hx

/-- A refused operation, and an accepted one behind another. -/
theorem wit_UnitTaking :
    (let s := run [] (withMsg 2 0x48)
     let o := UnitOp.ofMsg { sender := 0, descs := [0x48] }
     o.refusal s 0 false = 5 ∧ ((s.tile 0).unit false).exec = none ∧ (s.tile 0).unitWell false = some 0 ∧ (s.tile 0).works = true ∧ (s.tile 0).shadow.assigned = none) ∧
    (let f (t : Tile) : Tile := { withMsg 2 (op32 0x48 0 0) t with vector := { exec := some (UnitOp.ofMsg { sender := 0, descs := [op32 0x48 0 0] }) } }
     let s := run [] f
     (UnitOp.ofMsg { sender := 0, descs := [op32 0x48 0 0] }).refusal s 0 false = 0 ∧ ((s.tile 0).unit false).exec ≠ none) ∧
    (let f (t : Tile) : Tile := { withMsg 2 (op32 0x48 0 0) t with ranges := [(0, { claimed := true, start := 0, len := 1, fills := [1] })] }
     let o := UnitOp.ofMsg { sender := 0, descs := [op32 0x48 0 0] }
     ∃ ch, (run [] f).opChunks 0 false o = [ch] ∧ (run [] f).chunkStalls 0 ch = true) := by
  refine ⟨by decide, by decide, ?_⟩
  exact ⟨_, rfl, by decide⟩

/-- A finished operation that posts its completion to an Open well, and a completion held. -/
theorem wit_UnitEnds :
    let d := op32 0x48 0 0 + 2 ^ 133
    let f (t : Tile) : Tile := { withMsg 0 0 t with vector := { exec := some { UnitOp.ofMsg { sender := 0, descs := [d] } with phase := .finished } } }
    let s := run [] f
    (∃ o, ((s.tile 0).unit false).exec = some o ∧ o.phase = .finished ∧ (s.tile 0).shadowHolds o = false ∧ bit o.desc 133 = true ∧ bits o.desc 136 134 = 0) ∧
    ((s.tile 0).unit false).held = none ∧ ((s.tile 0).well 0).state = .opened ∧ ((s.tile 0).well 0).binding = 0 ∧ ((s.tile 0).well 0).entries < 16 ∧
    s.regions 0 = [] := by
  refine ⟨⟨_, rfl, ?_⟩, ?_⟩ <;> decide

/-- A local copy that may start, and one that marks hold. -/
theorem wit_PumpEvents :
    (let f (t : Tile) : Tile := { t with pumps := [(7, { ringLen := 1, jobs := [job8] })] }
     let s := run [] f
     s.nextJob 0 7 = some job8 ∧ (s.tile 0).works = true ∧ (s.tile 0).marksHold s.variant job8 = false ∧ s.regions 0 = [] ∧
       (s.tile 0).dstOffset s.variant job8.desc = some 0x100 ∧ (s.tile 0).srcOffset s.variant job8.desc = some 0) ∧
    (let f (t : Tile) : Tile := { t with pumps := [(7, { ringLen := 1, jobs := [job8] })], ranges := [(0, { claimed := true, start := 0, len := 1, fills := [0] })] }
     ((run [] f).tile 0).marksHold 0 job8 = true) := by decide

/-- A started copy that is done with, a held completion, a well-fed descriptor, valid and not, a word to write back, a line to scrub. -/
theorem wit_PumpCompletions :
    (let j := { job8 with started := true }
     let s := run [] fun t => { t with pumps := [(7, { ringLen := 1, jobs := [j] })] }
     ((s.tile 0).pump 7).jobs[0]? = some j ∧ j.started = true ∧ ∀ k ∈ j.outstanding, s.packetDone k = true) ∧
    (let s := run [] fun t => withMsg 0 0 { t with pumps := [(7, { held := [{ msg := 1, counter := none, well := some 0 }] })] }
     ((s.tile 0).pump 7).held = [{ msg := 1, counter := none, well := some 0 }] ∧ ((s.tile 0).well 0).entries < 16 ∧ ((s.tile 0).well 0).binding = 0) ∧
    (let s := run [] (withMsg 3 copy8)
     (s.tile 0).pumpWell = some 0 ∧ (s.tile 0).works = true ∧ s.descFault (s.tile 0) copy8 [] [] = none ∧ s.descFault (s.tile 0) 0 [] [] ≠ none ∧ bit 0 390 = false) ∧
    (let s := { run [] (fun t => { t with ecc := { writeBack := [3] } }) with now := 160000000 }
     3 ∈ (s.tile 0).ecc.writeBack ∧ (s.tile 0).ecc.lastScrub + 160000000 ≤ s.now) := by decide

/-- A word at the head of an input that feeds a control input, the fold sink and the lane to the east. -/
theorem wit_StreamTokens : ∀ x ∈ [(8, StreamWord.data 5), (46, .token 4 9), (46, .token 1 0), (56, .token 6 0), (57, .token 3 0)],
    (run [] (withWord x.1 x.2)).WordAt 0 ⟨0, 0⟩ x.2 [] x.1 0 := by
  intro x hx
  iterate 5
    obtain _ | ⟨_, hx⟩ := hx
    · exact ⟨by decide, by decide, by decide, by decide, by decide, by decide, by decide, by decide, by decide,
        ⟨by decide, by decide, by decide, run_relays rfl, by intro b x h; cases b <;> rcases h with h | h <;> cases h⟩, by decide, by intro q h; revert q; decide⟩
  cases hx

theorem wit_ControlInputWords :
    let s := run [] (withWord 46 (.token 1 0))
    passesOn (.endRow 0 ⟨0, 0⟩) 0 ⟨0, 0⟩ (.token 1 0) ∧ passesOn (.select 0 ⟨0, 0⟩) 0 ⟨0, 0⟩ (.token 4 9) ∧ s.destOf 0 46 0 = .sink (steerKey 0 2) ∧
    (s.tile 0).sinkClosed 6 = false := by
  refine ⟨.inl ⟨rfl, rfl⟩, .inr (.inr (.inr (.inl ⟨rfl, rfl⟩))), by decide, by decide⟩

/-- A firing switch whose control is fixed, structural words at its input, a counter at its end and one with an emission, a quiet tile that folds. -/
theorem wit_StreamUnits :
    (let f (w : StreamWord) (t : Tile) : Tile := { t with slots := [(0x180, 0x11)], stream := { sinkQ := [(steerKey 0 0, [w])] } }
     (run [] (f (.data 7))).PlaneStill 0 ∧ ((run [] (f (.data 7))).tile 0).steerValue 0 = some 0 ∧ steerAction 1 0 = (0, some 0, 1) ∧
       ((run [] (f (.data 7))).tile 0).sourceReady 8 = true ∧ ((run [] (f (.data 7))).tile 0).sourceGang 8 = 1 ∧
       ((run [] (f (.data 7))).tile 0).sinkQueue (steerKey 0 0) = [.data 7] ∧
       ∀ k ∈ steerInputs (((run [] (f (.token 3 0))).tile 0).steer 0), ((run [] (f (.token 3 0))).tile 0).sinkQueue (steerKey 0 k) = [.token 3 0]) ∧
    (let f (t : Tile) : Tile := { t with counters := [(15, { reached := true, pending := 1, opcode := 0xC0 })] }
     (((run [] f).tile 0).counter 15).reached = true ∧ (((run [] f).tile 0).counter 15).pending ≠ 0 ∧ ((run [] f).tile 0).sourceReady 31 = true ∧
       ((run [] f).tile 0).sourceGang 31 = 1) ∧
    (let f (t : Tile) : Tile := { t with stream := { folds := [{ slot := 7, atQuiet := true, task := none }] } }
     ((run [] f).tile 0).folding = true ∧ ((run [] f).tile 0).quiet = true ∧ ((run [] f).tile 0).allStopped = true) := by
  refine ⟨⟨⟨by decide, ?_, by decide, run_relays rfl, ?_, by decide⟩, by decide, by decide, by decide, by decide, by decide, by decide⟩, by decide, by decide⟩
  · decide
  · intro b x h; cases b <;> cases h

theorem wit_StepRunsFront : ({ run [] with pending := [.tapReset, .idcode] } : State).pending = .tapReset :: [.idcode] := by decide

/-- Idling with and without a slew under way. -/
theorem wit_IdleStepPassesTime :
    (State.reset.pending = [] ∧ State.reset.now + 2 < 2 ^ 64 ∧ State.reset.slewPhase < 5000) ∧
    ({ State.reset with slew := -1, slewPhase := 4999 } : State).slewPhase = 4999 := by decide

theorem wit_WellFormedCommandsComplete : (Instr.tapReset).wf = true ∧ (Instr.ack frame0).wf = true := by decide

/-- The fuses fit after reset, and a step leaves that state. -/
theorem wit_FusesOnlyBurn : State.reset.FusesFit ∧ ∃ t, step State.reset = .next t := ⟨⟨by decide, by decide, fun _ => Nat.le_refl _⟩, _, rfl⟩

/-! The commands of the module, its supplies and its steward. -/

/-- A module under power whose steward and routers run and whose PCIe link is up. -/
def up : State :=
  { State.reset with
    pins := { auxGood := true, mainGood := true, perstN := true, mainPg := true, loadsOn := true }
    boot := { steward := .running, routersUp := true }
    host := { linkUp := true } }

/-- A module with the values of some objects. -/
def showing (ks : List (Nat × Nat)) (s : State := up) : State := ks.foldl (fun s k => s.putOb k.1 k.2) s

/-- The mailbox may write an object of a running module. -/
theorem mailboxWrites {s : State} {key : Nat} (h : s.boot.steward = .running ∧ s.host.linkUp = true) (hk : (objInfo key).any (mayWrite .mailbox) = true) :
    s.Writes .mailbox key := by
  refine ⟨h.1, fun _ => h.2, fun n hn => (by cases hn), ?_⟩
  cases ho : objInfo key with
  | none => rw [ho] at hk; cases hk
  | some o => exact ⟨o, rfl, by simpa [ho] using hk⟩

/-- The slots as shipped verify. -/
theorem shippedGood {s : State} {n : Nat} (h : (s.fw.slot n).comps = [] ∧ (s.fw.slot n).bad = false ∧ s.fused.security ≤ (s.fw.slot n).security) :
    s.slotGood n = true := by
  unfold State.slotGood
  have hc (c : Nat) : (s.fw.slot n).comp c =
      { bytes := Config.shipped c, toHash := Config.sha384 (Config.shipped c), version := Config.shippedVersion c % 2 ^ 32 } := by
    unfold FwSlot.comp; rw [h.1]; rfl
  simp [h.2.1, h.2.2, hc]

/-- Supplies off and on, a slot that verifies, one whose boot has failed, stage 1 waiting, the resets high and low. -/
theorem wit_SupplyEvents :
    (State.reset.pins.auxGood = false ∧ State.reset.pins.perstN = false ∧ State.reset.pins.mainGood = false) ∧
    (let s := { up with boot := { steward := .booting }, now := 1500000000 }
     s.slotGood s.fw.record.active = true ∧ s.fw.record.seq + 1 < 2 ^ 32 ∧ s.boot.bootAt + 1500000000 ≤ s.now ∧ s.fw.record.trial = false ∧ s.fw.record.failed = 0) ∧
    (1 ≤ ({ up with fw := { recA := { failed := 1 } } } : State).fw.record.failed) ∧
    (let s := { up with pins := { up.pins with loadsOn := false } }
     s.serving = true ∧ s.ob Ob.module_state ≠ 4 ∧ RefClk.refclk100 ∉ s.pins.lostClks) := by
  refine ⟨by decide, ⟨?_, by decide⟩, by decide, by decide +kernel⟩
  exact shippedGood (by decide)

theorem wit_TestPort : let p : Pins := { up.pins with modResetN := false }
    (p.modResetN = false ∧ p.auxGood = true ∧ p.mainGood = true) ∧ State.reset.pins.auxGood = false := by decide

/-- What a command shows changes neither the steward nor the link. -/
theorem showing_up (ks : List (Nat × Nat)) : (showing ks).boot.steward = .running ∧ (showing ks).host.linkUp = true :=
  List.foldlRecOn (motive := fun s : State => s.boot.steward = .running ∧ s.host.linkUp = true) ks _ ⟨rfl, rfl⟩ fun _ h _ _ => h

/-- The mailbox may give every command of the module. -/
theorem wit_commands (ks : List (Nat × Nat)) : ∀ key ∈ [Ob.upd_command, Ob.bringup_command, Ob.map_adopt, Ob.fuse_burn, Ob.commission, Ob.reset_request, Ob.dump_command,
    Ob.dump_unprotect, Ob.job_command, Ob.meadow_power_cmd, Ob.module_state_request, Ob.fence_role, Ob.port_fence, Ob.settings_erase, Ob.alert_cause, Ob.fm_root_hash,
    Ob.txn_command], (showing ks).Writes .mailbox key := by
  intro key hk
  refine mailboxWrites (showing_up ks) ?_
  revert key; decide +kernel

/-- Each state of an update; a package of zeros is refused, and an apply of no component finds nothing wrong. -/
theorem wit_Updates :
    (∀ k < 7, (showing [(Ob.upd_state, k)]).ob Ob.upd_state = k) ∧ ((showing [(Ob.bringup_status, 7 + 16)]).updBusy = false ∧ up.fw.fetching = false ∧ up.fw.record.seq + 1 < 2 ^ 32 ∧ up.slotGood (1 - up.fw.record.active) = true) ∧
    (∃ x, up.pkgCheck up.staged (up.fw.slot 0) = some x) ∧ ([] : Bytes).length = ({ up with fw := { fetching := true } } : State).fw.recvLen ∧
    pkgImages up.staged (up.fw.slot 0) = .inl [] ∧ pkgWrong up.staged [] = none := by
  refine ⟨by decide +kernel, ⟨by decide +kernel, by decide, by decide, shippedGood (by decide)⟩, ?_, by decide, ?_⟩
  · exact ⟨_, rfl⟩
  · decide +kernel

/-- Stages 3 to 7 may start, with a clock lost and without. -/
theorem wit_BringUpCommands :
    (∀ n < 8, 3 ≤ n → let s := showing [(Ob.bringup_stage, n - 1), (Ob.bringup_status, n - 1 + 16)]
      s.boot.held = false ∧ s.ob Ob.bringup_stage = n - 1 ∧ s.stageNow = (n - 1, 1)) ∧
    (let s := showing [(Ob.bringup_stage, 4), (Ob.bringup_status, 4 + 32 + 256)]
     s.stageNow = (4, 2) ∧ s.stageReason = 1) ∧
    (up.pins.lostClks = [] ∧ up.defectsReadable = true ∧ up.boot.strict = false ∧ up.txn.current = none ∧ up.txn.own = [] ∧ up.txn.holder = [] ∧ up.subUp 255 = false) ∧
    ({ up with defects := { listBad := true, norBad := true } } : State).defectsReadable = false := by
  decide +kernel

/-- A boot that ends, with 12 V and without; the work of stages 3, 4 and 7; a limit passed in each stage. -/
theorem wit_BringUpEnds :
    (let s := { up with boot := { steward := .booting }, pins := { up.pins with loadsOn := false } }
     s.stageNow.1 = 0 ∧ s.pins.mainGood = true ∧ s.pins.modResetN = true ∧ s.ob Ob.module_state ≠ 4) ∧
    (∀ n ∈ [3, 4, 7], let s := showing [(Ob.bringup_status, n)] { up with boot := { up.boot with stageWork := true, testOutcome := (1, 0) } }
     s.boot.stageWork = true ∧ s.stageNow.1 = n ∧ s.boot.testOutcome.1 < 16 ∧ s.obe Ob.port_state 255 ≠ 1) ∧
    (∀ n ∈ [1, 2, 3, 4, 6, 7], let s := { showing [(Ob.bringup_status, n)] with now := 40000000001 }
     s.boot.steward = .running ∧ s.stageNow = (n, 0) ∧ 40000 * 1000000 < s.now - bits (s.ob Ob.bringup_status) 127 64) := by
  decide +kernel

/-- An open transaction of the PCIe function with a proposal to adopt; stage 4 passed and no member; a slot. -/
theorem wit_MapFusesCommission :
    (let s := showing [(Ob.map_state, 2)] { up with txn := { txns := [(0, { opened := true })] } }
     srcTxn .mailbox = some 0 ∧ (s.txnOf 0).opened = true ∧ (s.txnOf 0).committing = false ∧ s.ob Ob.map_state = 2 ∧ s.txn.holder = []) ∧
    (let s := showing [(Ob.bringup_stage, 4), (Ob.bringup_status, 20)]
     s.stage4Passed = true ∧ s.members 255 = [] ∧ s.pins.mainGood = true ∧ s.boot.slotId < 64) := by
  decide +kernel

/-- An idle module, a sample over the limit and under it, grants to repeat. -/
theorem wit_GovernorIntervals :
    (let s := { up with now := 1000000 }
     s.anyRunning = false ∧ s.ob Ob.module_state = 0 ∧ 1000000 ≤ s.now - s.power.idleSince ∧ 1000000 ≤ s.now - s.power.lastRepeat ∧ s.pins.loadsOn = true ∧
       s.ob Ob.power_limit < 2 ^ 32 - 1 ∧ ({ s with power := { overLimit := true } } : State).power.overLimit = true) ∧
    (let s := showing [(Ob.tile_meadow, 0)] { up with boot := { up.boot with meadowsUp := true }, power := { lastGrant := [(0, 5)] }, tiles := [(0, tileOf [])] }
     s.power.lastGrant = [(0, 5)] ∧ 0 ∈ s.memberTiles 0 ∧ (s.tile 0).power.state ≠ .t3) := by
  decide +kernel

/-- Readings of 95 °C and 93 °C, of 115 °C, a failed sensor, a lockout at its end. -/
theorem wit_ThermalLimits :
    (∀ v ∈ [95 * 16, 93 * 16, 115 * 16 - 1, 115 * 16], let r : SensorReading := { die := 0, sensor := 3, value := some v }
      r.wf = true ∧ SensorReading.failed r = false ∧ up.power.badSensors.contains (r.die.val, r.sensor.val) = false) ∧
    (let r : SensorReading := { die := 5, sensor := 0, value := none }
     r.wf = true ∧ SensorReading.failed r = true ∧ (r.die.val, r.sensor.val) ∉ up.power.badSensors) ∧
    (let s := { up with pins := { up.pins with shutdownAt := some 0 }, now := 60000000000 }
     60000000000 ≤ s.now - 0) := by
  decide +kernel

/-- A tile without a running task, a router that nothing uses, a source that may ask for D5 and D6. -/
theorem wit_ResetRequests :
    up.holdsRunning 4607 = false ∧ up.migrationsOf 4607 = [] ∧ (up.putObe Ob.link_fence 4 15).routerInUse 4 = false ∧ Tbl.wf none up.net = true ∧ srcPcie .mailbox = true ∧ up.pins.shutdownAt = none ∧
    up.boot.held = false := by
  decide +kernel

/-- A packet that stands in a channel of router 0. -/
def inChan (k : Packet) (s : State := up) : State := { s with net := [(0, some k)], nextPkt := 1 }

/-- Room for a dump of the module, a dump that waits for a unit, a packet that has stalled. -/
theorem wit_DumpsAndStalls :
    (up.dumpPlace = some 0 ∧ bits (1 : Nat) 1 0 ≠ 3 ∧ bits (1 : Nat) 63 25 = 0) ∧
    (let s := { up with dumps := [(7, some { left := [4609], done := true, sections := [{ phys := 1, unitClass := 4 }] })] }
     (s.dumpOf 4609).isSome = true ∧ (s.dump 7).isSome = true ∧ s.dump 6 = none) ∧
    (let k : Packet := { loc := .chan 0 4 false }
     let s := { inChan k with now := 1000000000 }
     s.pkt 0 = some k ∧ (s.routerHeads 0).any (fun y => y.1 == 0) = true ∧ k.reported = false ∧ s.ob Ob.stall_limit * 1000 ≤ s.now - k.since) := by
  decide +kernel

/-- A module whose tile 0 is the one member of meadow 0, in role 1. -/
def oneTile (f : Tile → Tile := id) : State :=
  showing [(Ob.tile_meadow, 0), (Ob.role, 1)] { up with boot := { up.boot with meadowsUp := true }, tiles := [(0, f (tileOf []))] }

/-- An empty image that the loader takes; a fault to isolate; a recovery with nothing to fill; a fill. -/
theorem wit_JobCommands :
    (let img : GraphImage := { a40 := false, tensorWork := true, declaredD := 6, imageId := 0, formats := [0x0C], tiles := [], regions := [] }
     oneTile.obe Ob.job_state 0 = 0 ∧ oneTile.host.linkUp = true ∧ (oneTile.job 0).resetUntil ≤ oneTile.now ∧ oneTile.imageOk 0 img = true) ∧
    (let s := showing [(Ob.job_state, 3)] { up with jobs := [(0, { faults := [{ phys := 0, time := 0, kind := 0 }] }), (1, { fills := [{ region := 0, fromTile := 0, fromBase := 0, toTile := 1, toBase := 0, length := 64 }] })] }
     s.obe Ob.job_state 0 = 3 ∧ (s.job 0).faults ≠ [] ∧ (s.job 0).isolating = false ∧ (s.job 1).fills.length = 1 ∧ (s.job 1).recovering = false) := by
  decide +kernel

/-- A meadow of one tile that no command holds; each module state that a request may leave. -/
theorem wit_PowerCommands :
    (oneTile.members 0 = [0] ∧ (oneTile.powerCmd 0).busy = false ∧ oneTile.obe Ob.job_state 0 ≠ 2 ∧ oneTile.anyPrecious 0 = false ∧ oneTile.migs = [] ∧ oneTile.memberTiles 0 = [0]) ∧
    (∀ k < 5, let s := showing [(Ob.module_state, k), (Ob.bringup_stage, 7), (Ob.bringup_status, 7 + 16)]
      s.stateBusy = false ∧ s.ob Ob.module_state = k ∧ s.stage6Done = true ∧ s.obe Ob.job_state 255 = 0 ∧ s.meadows = [] ∧ s.pins.shutdownAt = none) := by
  decide +kernel

/-- A fenced peer and one that is not; a changed port fence; an open session with a transaction. -/
theorem wit_FencesAndSettings :
    (let s := showing [(Ob.fence_role, 7 + 65536), (Ob.peer_endpoint, 7)]
     s.bound 0 = true ∧ s.peerFenced 0 = true) ∧ (showing [(Ob.peer_endpoint, 7)]).peerFenced 0 = false ∧ up.bound 4095 = false ∧
    bit (2 ^ 31) 31 ≠ bit (up.ob Ob.port_fence) 31 ∧ (List.replicate 48 (0 : Byte)).length = 48 ∧
    (let s := { up with txn := { txns := [(4, { opened := true })] }, dict := { sessions := [(3, { opened := true })] } }
     (s.sess 3).opened = true ∧ s.commitSent 4 = false ∧ (s.txnOf 4).opened = true) := by
  decide +kernel

/-- No transaction, an open one, one whose time is over, another's commit under way. -/
theorem wit_TransactionCommands :
    (srcTxn .mailbox = some 0 ∧ (up.txnOf 0).opened = false) ∧
    (let s := { up with txn := { txns := [(0, { opened := true, conflict := [5] })] }, now := 2 ^ 50 }
     (s.txnOf 0).opened = true ∧ (s.txnOf 0).committing = false ∧ s.txn.current = none ∧ s.txn.queue = [] ∧ s.txn.own = [] ∧ s.commitSent 0 = false ∧
       bits (s.obe Ob.txn_status 0) 2 0 ≠ 2 ∧ s.ob Ob.txn_idle * 1000000 ≤ s.now - (s.txnOf 0).lastStage) ∧
    (let s := { up with txn := { current := some { why := .fence, values := [] } } }
     s.txn.current.isSome = true ∧ s.txn.own = []) := by
  decide +kernel

/-- A commit that is prepared, waits, is sent and due; retirement overdue; a unit that has missed the notice. -/
theorem wit_CommitEvents :
    (let c : Commit := { why := .source 0, values := [(elemKey Ob.spread_seed 0, some 1)], step := .preparing }
     let s := { up with txn := { current := some c }, now := 10000000 }
     s.txn.current = some c ∧ c.flip = false ∧ c.takenUp + 10000000 ≤ s.now ∧ s.txn.queue = [] ∧ s.txn.own = []) ∧
    (let c : Commit := { why := .fence, values := [], step := .prepared, flip := true }
     let s := { up with txn := { current := some c, oldLive := true }, now := 2 ^ 50 }
     s.txn.oldLive = true ∧ c.takenUp + s.ob Ob.epoch_retire_limit * 1000 ≤ s.now ∧ s.txn.overdueSent = false ∧ s.ob Ob.epoch_retire_limit * 1000 ≤ s.now - s.txn.retireSince ∧
       10000 ≤ s.now - s.txn.collectAt ∧ s.txn.missed = [] ∧ s.oldPackets = 0) ∧
    (let k : Packet := { loc := .sink, target := 3, h := { cls := 5, op := 0x20 } }
     let s := { inChan k with txn := { current := some { why := .fence, values := [], step := .sent }, missed := [3] } }
     s.atSink 0 = some k ∧ k.target ∈ s.txn.missed ∧ 4 ∉ s.txn.missed) := by
  decide +kernel

/-- A migration from tile 0 to tile 4 at each of its steps, and a packet for the old tile. -/
theorem wit_Migrations :
    (∀ k < 9, let x : Migration := { step := k, oldPhys := 0, spare := 4 }
      let c : Commit := { why := .migration 7, values := [], step := .prepared }
      let s := { up with migs := [(7, x)], txn := { current := some c }, now := 2 ^ 50, tiles := [(0, { frozen := true })] }
      (s.mig 7).step = k ∧ (s.mig 7).oldPhys ≠ (s.mig 7).spare ∧ s.txn.oldLive = false ∧ s.settledToFreeze 0 = true ∧ (s.tile 0).frozen = true ∧ (s.mig 7).sentEpoch = false ∧
        (s.mig 7).instant + 1000 ≤ s.now ∧ 2000000 ≤ s.now - (s.mig 7).frozenAt ∧ s.ob Ob.migrate_freeze_limit * 1000 ≤ s.now - (s.mig 7).frozenAt) ∧
    (let k : Packet := { loc := .sink, target := 4, h := { dst := 0, epoch := true } }
     let s := { inChan k with tiles := [(4, { oldLogical := some 0 })] }
     s.toForward k = true ∧ s.physOf k.h.dst < 4608) := by
  decide +kernel

/-- A step that is ready, one that hangs, reports on their way, one folded. -/
theorem wit_StepsAndErrors :
    (let s := { oneTile with jobs := [(0, { stepPending := true, drained := true, released := true })] }
     s.stepReady 0 = true ∧ (s.job 0).released = true ∧ s.memberTiles 0 = [0]) ∧
    (let s := showing [(Ob.step_timeout, 1), (Ob.job_state, 2)] { up with now := 1000000 }
     s.obe Ob.step_timeout 0 ≠ 0 ∧ s.obe Ob.job_state 0 = 2 ∧ s.obe Ob.step_timeout 0 * 1000000 ≤ s.now - (s.job 0).stepAt) ∧
    (foldedKind 0x0110 = true ∧ foldedKind 0x0200 = false ∧ silentKind 0x0101 = true ∧ silentKind 0x0200 = false) ∧
    (let s := { up with errs := { queue := [{ kind := 0x0200 }], folding := [{ kind := 0x0103 }] }, now := 2 ^ 50 }
     s.errs.folding[0]?.isSome = true ∧ s.ob Ob.errlog_coalesce * 1000 ≤ s.now - 0) := by
  decide +kernel

/-- A lockstep mismatch in each mode, a restart, settings and defects due, a session that is idle. -/
theorem wit_StewardEvents :
    (up.slotGood 0 = true ∧ ∀ y ∈ up.jobs, y.2.isolating = false) ∧
    (let s := { up with dict := { journalDue := true, restartRefusal := some 0x100, sessions := [(3, { opened := true })] }, defects := { norDue := some 0 }, now := 2 ^ 50 }
     s.dict.journalDue = true ∧ s.defects.norDue = some 0 ∧ (s.sess 3).opened = true ∧ s.ob Ob.fm_session_idle * 1000000 ≤ s.now - (s.sess 3).lastMsg ∧ s.txn.queue = [] ∧ s.txn.own = []) := by
  refine ⟨⟨shippedGood (by decide), by decide⟩, by decide +kernel⟩

/-- An RW, an RWT and a volatile object that may be written; messages that ask; a BAR0 slot; the mailbox; sessions; a DICT packet in sequence and one ahead. -/
theorem wit_DictAccess :
    (∀ key ∈ [Ob.power_limit, Ob.errlog_push, Ob.spread_seed], ∃ o, objInfo key = some o ∧ (o.acc = 1 ∨ o.acc = 4) ∧ key ∉ actedKeys ∧ o.lo < 2 ^ (8 * o.size) ∧ o.lo ≤ o.hi ∧ 0 < o.elems) ∧
    (∀ op ∈ [1, 3], let r : DictReq := { req op with index := Ob.power_limit / 256, sub := Ob.power_limit % 256 }
      reqFits r = true ∧ r.op = op ∧ r.length = 0 ∧ r.data = [] ∧ (objInfo (r.index * 256 + r.sub)).isSome = true) ∧
    (bar0Bytes - 8) % 8 = 0 ∧ slotKey (Ob.power_limit / 256 * 2048 + Ob.power_limit % 256 * 8) = Ob.power_limit ∧ up.dict.mbBusy = false ∧ bit (1 : Nat) 0 = true ∧
    (showing [(Ob.fm_root_hash, 1)]).ob Ob.fm_root_hash ≠ 0 ∧ (up.sess 3).opened = false := by
  refine ⟨?_, by decide +kernel⟩
  intro key h
  have : (objInfo key).any (fun o => (o.acc == 1 || o.acc == 4) && !(actedKeys.contains key) && decide (o.lo < 2 ^ (8 * o.size)) && decide (o.lo ≤ o.hi) && decide (0 < o.elems)) = true := by
    revert key; decide +kernel
  cases ho : objInfo key with
  | none => rw [ho] at this; cases this
  | some o => rw [ho] at this; refine ⟨o, rfl, ?_⟩; simpa [and_assoc] using this

/-- A slot to begin, a tile under test, a shadow that waits for its copy, one to compare, a third run, a margin, a day's projections. -/
theorem wit_RotationShadow :
    (let s := showing [(Ob.rotation_enable, 1)] { up with now := 2 ^ 60 }
     s.ob Ob.rotation_enable = 1 ∧ s.test.slots = [] ∧ s.ob Ob.rotation_slot * 1000000 ≤ s.now - s.test.slotStart ∧ 1000000000 ≤ s.now - s.test.shadowAt) ∧
    (let s := { up with test := { slots := [(7, { step := 2, phys := 4607, logical := some 5 })], margins := [(0, [(0, 5)])] }, now := 31 * day }
     (s.slot 7).step = 2 ∧ (s.slot 7).phys < 4608 ∧ s.test.lastEol < s.now / day ∧ (∀ y ∈ s.test.margins, y.1 < 65536) ∧ darkRow s.variant 4607 = false) ∧
    (let x : Shadow := { assigned := some 4, outstanding := some .tensor, sig := some 1, noticed := true }
     x.assigned = some 4 ∧ x.outstanding.isSome = true ∧ x.sig = some 1 ∧ x.noticed = true ∧ x.abandoned = false ∧ x.sig2 = none) := by
  decide +kernel

/-- Buckets behind the time; a packet to admit, one to issue; headers that are malformed, wait, move and are delivered; a link that fails. -/
theorem wit_SluicesRouters :
    (let s := { oneTile (fun t => { t with sluice := { tile := 1, meadow := 1 } }) with now := 64, net := [(0, some {})] }
     s.sluiceAt / 64 < s.now / 64 ∧ s.pkt 0 = some {} ∧ (s.tile 0).sluice.tile = 1 ∧ 0 < (s.tile 0).sluice.meadow) ∧
    (let k : Packet := { admitted := true }
     (inChan k).issuable 0 0 k = true) ∧
    (∀ k ∈ [({ loc := .chan 0 4 false, h := { cls := 6 } } : Packet), { loc := .chan 0 4 false, h := { length := 65 } }], (inChan k).pkt 0 = some k ∧ (6 ≤ k.h.cls ∨ 64 < k.h.length)) ∧
    (let k : Packet := { loc := .chan 0 4 false, h := { phase := true, routeCol := 1 } }
     (inChan k).pkt 0 = some k ∧ (inChan k).hop 0 k = .out 1 false ∧ meshNeighbour 0 1 = some 1) ∧
    (let k : Packet := { loc := .chan 0 3 false, h := { phase := true } }
     (inChan k).hop 0 k = .deliver ∧ (inChan k).routerHeads 0 = [(0, k)]) ∧
    (let k : Packet := { loc := .chan 0 4 false, h := { cls := 5, op := 0x22 }, fan := some [1, 4] }
     (inChan k).hop 0 k = .copy 1 ∧ k.fan = some [1, 4]) ∧
    linkOut 0 1 = true ∧ up.boot.routersUp = true ∧ (up.tile 4).meadow = none := by
  decide +kernel

/-- A WRITE and a READ for a tile, a REDUCE for a port die, a SEND, a copied write, a notice, a reply; a source at its end, a quiet tile, a drain that lasts. -/
theorem wit_RequestsReplies :
    (∀ op ∈ [1, 2], let k : Packet := { loc := .sink, h := { op, arg0 := 8 }, data := List.replicate 8 1 }
      let s := { oneTile with net := [(0, some k)], nextPkt := 1 }
      s.atSink 0 = some k ∧ s.consumeCheck 0 k.h = 0 ∧ k.h.bytes = 8) ∧
    (let k : Packet := { loc := .sink, target := 4608, h := { cls := 3, op := 4, dstKind := 1 } }
     (inChan k).atSink 0 = some k ∧ (inChan k).findRed 0 0 = none ∧ (inChan k).freeRed 0 = some 0) ∧
    (let k : Packet := { loc := .sink, h := { cls := 4, op := 3, length := 1 }, data := List.replicate 64 0 }
     let s := { oneTile with net := [(0, some k)], nextPkt := 1 }
     s.atSink 0 = some k ∧ (s.tile 0).ni.c4head = none ∧ s.consumeCheck 0 k.h = 0 ∧ k.descs.length ≤ 4 ∧ wellOperandOk k.h.arg0 = true) ∧
    (∀ cls_op ∈ [(3, 5), (5, 0x21), (5, 0x22), (5, 0x23)], let k : Packet := { loc := .sink, fan := some [], h := { cls := cls_op.1, op := cls_op.2 } }
      let s := { oneTile with net := [(0, some k)], nextPkt := 1 }
      s.atSink 0 = some k ∧ s.takesCopy 0 k.h = true) ∧
    (let s := oneTile fun t => { t with stream := { drainTok := some (5, 0) } }
     (s.tile 0).stream.drainTok.isSome = true ∧ (s.tile 0).quiet = true ∧ (s.tile 0).stream.quietSent = false ∧ (s.tile 0).ni.dups = [] ∧ s.memberTiles 0 = [0]) := by
  decide +kernel

/-- A port that trains, a sub-port that is up with an address of its own, PTP on it. -/
theorem wit_PortFrames :
    (let s := showing [(Ob.port_state, 1), (Ob.port_mode, 1)]
     ∃ x ∈ modeSubs (s.obe Ob.port_mode 0), s.obe Ob.port_state (0 * 8 + x.1) = 1 ∧ x.2.1 ≤ 0 ∧ 0 < x.2.1 + x.2.2) ∧
    (let s := showing [(Ob.port_state, 2), (Ob.port_ipv4, 1), (Ob.ptp_port, 0)]
     s.subUp 0 = true ∧ s.obe Ob.port_ipv4 0 = 1 ∧ s.obe Ob.ptp_port 0 = 0 ∧ Tbl.get 0 (s.die 0).lldpAt 0 = 0) ∧
    (({ target := 1, senderMac := 0, senderIp := 0, isRequest := true } : ArpNd).wf = true ∧ ({ dst := 1, src := 0, v6 := false, data := [] } : Echo).wf = true ∧
      Ptp.wf (.sync 0 5) = true ∧ Ptp.wf (.delayResp 0 0 7) = true ∧ Ptp.wf (.announceLost 0) = true) := by
  decide +kernel

/-- A module with one peer, bound to meadow 0 over port 0, and an open inbound window and an outbound one. -/
def peered (ks : List (Nat × Nat) := []) : State :=
  showing ([(Ob.port_state, 2), (Ob.peer_endpoint, 7), (Ob.role_id, 5), (Ob.win_kind, 1), (Ob.win_state, 1), (Ob.win_peers, 1), (Ob.win_perm, 7), (Ob.win_length, 65536),
    (Ob.peer_perm, 3), (Ob.commission_slot, 0), (Ob.peer_state, 1)] ++ ks)

/-- A frame of that peer for that meadow. -/
def frameOf (kind op seq : Nat) (payload : Bytes := []) : Frame :=
  { frame0 with kind := kind, op := op, seq := seq, srcRole := 7, dstRole := 5, payloadLen := payload.length, payload }

/-- A message of a peer is taken, with something of the module and the peer's number. -/
def takes (s : State) (f : Frame) (kind : Nat) (P : State → Nat → Bool) : Bool :=
  f.wf && match s.inbound f kind with
    | .taken s1 i => P s1 i
    | _ => false

theorem takes_arrives {s : State} {f : Frame} {kind : Nat} {P : State → Nat → Bool} (h : takes s f kind P = true) : ∃ s1 i, s.arrives f kind s1 i ∧ P s1 i = true := by
  unfold takes at h
  rw [Bool.and_eq_true] at h
  cases hi : s.inbound f kind <;> rw [hi] at h
  · cases h.2
  · cases h.2
  · exact ⟨_, _, ⟨h.1, hi⟩, h.2⟩

/-- A hello, its reply and an ACK arrive; a silent peer; a packet whose timeout has passed. -/
theorem wit_PeersAcks :
    (∀ kind ∈ [1, 2, 3], takes peered (frameOf kind 0 0) kind (fun s1 i => i == 0 && s1.upSubs 0 != []) = true) ∧
    (peered.firstEndpoint = some 0 ∧ (peered.die 0).helloAt = none ∧ peered.bound 0 = true ∧ peered.obe Ob.peer_state 0 = 1 ∧
      3 * peered.ob Ob.hello_period * 1000 ≤ ({ peered with now := 2 ^ 50 } : State).now - (peered.peer 0 0).lastHeard) ∧
    (let s := { peered with dies := [(0, { peers := [(0, { spaces := [(0, { unacked := [{ seq := 9, frame := frameOf 0 1 9, timeout := 5 }], rxSinceAck := 1 })] })] })], now := 2000 }
     let y := (s.peer 0 0).space 0
     0 < y.rxSinceAck ∧ 2000 ≤ s.now - y.rxFirstAt ∧ (y.unacked.find? (fun v => v.seq == 9)).isSome = true ∧ s.peerFenced 0 = false) := by
  decide +kernel

/-- Requests of each kind pass their checks, and meet each refusal; a reply to nothing. -/
theorem wit_InboundRequests :
    (∀ op ∈ [1, 2, 3, 4, 5, 6], takes peered (frameOf 0 op 1) 0 (fun s1 _ => s1.dstMeadow (frameOf 0 op 1) == some 0 && (peered.job 0).resetUntil ≤ peered.now) = true) ∧ peered.commissioned = true ∧
    (let f := frameOf 0 1 1 (List.replicate 8 0)
     takes peered f 0 (fun s1 i => s1.windowCheck 0 i 0 f 8 == 0 && s1.bufferFree 0 8 && s1.meshParts 0 (s1.obe Ob.win_base 0) 8 == 1) = true ∧
     takes (peered [(Ob.win_state, 0)]) f 0 (fun s1 i => s1.windowCheck 0 i 0 f 8 == 1) = true) ∧
    takes peered (frameOf 0 0x81 1) 0 (fun s1 _ => (s1.die 0).outReqs == []) = true ∧
    (let s := { peered with dies := [(0, { inGroups := [(63, some { peer := 0, id := 1, window := 0, first := 0 })] })], now := 2 ^ 50 }
     (s.inGroup 0 63).isSome = true ∧ s.ob Ob.group_timeout * 1000 ≤ s.now - 0) := by
  decide +kernel

/-- An access of an outbound window, a control record, a remote SEND and an arming at port die W. -/
theorem wit_OutboundGroups :
    (let s0 := peered [(Ob.win_kind, 2)]
     ∀ op ∈ [1, 2, 3], let k : Packet := { loc := .sink, target := 4608, h := { op, dstKind := 1, addr := 2 * 2 ^ 60, arg0 := 8 }, data := List.replicate 8 0 }
     let s := inChan k s0
     s.atSink 0 = some k ∧ k.windowForm = true ∧ s.outReason 0 0 0 0 = 0 ∧ s.lacksRoom 0 k = false ∧ s.outGroup 0 0 1 = none ∧ s.newOutGroup 0 = some 0) ∧
    (∀ kind ∈ [1, 5, 7], let k : Packet := { loc := .sink, target := 4608, h := { op := 2, dstKind := 1, addr := 4 * 2 ^ 60 + kind * 2 ^ 44, arg0 := 64 }, data := toLE 64 (2 ^ 32) }
      let s := inChan k
      s.atSink 0 = some k ∧ k.objectWrite kind = true ∧ s.peerReason 0 0 0 = 7 ∧ s.findRed 0 0 = none ∧ s.freeRed 0 = some 0) ∧
    groupControlOk (2 ^ 32) = true ∧ armOk (4 + fld 8 3 + fld 1 17) = true := by
  decide +kernel

/-- A page store of one tile: its requests, a frame of each state, an ATTEND that ends, a page command. -/
theorem wit_Pages :
    (let f := frameOf 0 8 1
     let s := showing [(Ob.tile_meadow, 0), (Ob.role, 3)] { peered with boot := { up.boot with meadowsUp := true } }
     takes s f 0 (fun s1 _ => (framePage f).isAlloc && s1.obe Ob.role 0 == 3 && s1.pageFieldsOk 0 (framePage f) && (s1.pickFree 0 0).isSome && s1.bufferFree 0 0) = true) ∧
    (let s := oneTile
     (s.tile 0).logical = some 0 ∧ (s.tile 0).meadow = some 0 ∧ (s.tile 0).power.state ≠ .t3 ∧ pageDie 0 = 0) ∧
    (let k : Packet := { loc := .sink, target := 4608, h := { op := 2, dstKind := 1, addr := 4 * 2 ^ 60 + 6 * 2 ^ 44, arg0 := 64 }, data := toLE 64 4 }
     let s := inChan k peered
     s.atSink 0 = some k ∧ k.objectWrite 6 = true ∧ pcOp (leNat (k.data.take 64)) = 4 ∧ pageCmdOk 4 = true ∧ s.peerReason 0 0 0 = 0 ∧ s.lacksRoom 0 k = false) ∧
    (let s := { up with dies := [(0, { pages := [(0, { state := .allocated })] })], now := 2 ^ 50 }
     (s.frame 0 0).state = .allocated ∧ s.ob Ob.page_seal_timeout * 1000 < s.now - (s.frame 0 0).allocAt) := by
  decide +kernel

/-- A post that is next, a queue's numbers, a doorbell, BAR2 accesses, a refused entry that is tried again, recovery mode. -/
theorem wit_HostQueuesWakes :
    (let k : Packet := { loc := .sink, target := 4608, h := { op := 2, dstKind := 1, addr := 3 * 2 ^ 60 + 0xFF * 2 ^ 40, arg0 := 64, length := 1 }, data := List.replicate 64 0 }
     let s := inChan k (showing [(Ob.rq_mode, 1), (Ob.rq_entries, 2)])
     s.atSink 0 = some k ∧ k.postAperture = true ∧ k.h.bytes = 64 ∧ postClean k.data = true ∧ s.postOk 0 0 (postOf 0 k.data) = true ∧ (s.rq 0).busy = none) ∧
    (let s := showing [(Ob.doorbell_target, 2 ^ 23)] { up with host := { linkUp := true, doorbells := [(0, { vals := [(1, [])] })] } }
     bit (s.obe Ob.doorbell_target 0) 23 = true ∧ (s.doorbell 0).vals.length < 64 ∧ (s.doorbell 0).outstanding = false ∧ (s.doorbell 0).vals = [(1, [])]) ∧
    up.bar2Allowed 0 1 0 = none ∧
    (let s := oneTile fun t => { t with power := { state := .t1, refused := true, depth := 1, lastRefuser := 9 }, seq := { run := true, tasks := [(0, { state := .waiting })] } }
     (s.tile 0).power.refused = true ∧ (s.tile 0).allWaiting = true ∧ s.refuser 0 1 ≠ (s.tile 0).power.lastRefuser) ∧
    (let s := oneTile fun t => { t with power := { state := .t2, partWoken := true } }
     (s.tile 0).power.entering = none ∧ 10000 ≤ ({ s with now := 10000 } : State).now - (s.tile 0).ni.lastServed) ∧
    (let s := { up with boot := { steward := .recovery } }
     s.reaches .i3c = true ∧ (pkgDelta s.recImage = true ∨ pkgField s.recImage 3 1 ≠ 0x17)) := by
  decide +kernel

end Sys2Proof.Tests
end

/-! The idle step: on an empty queue a nanosecond of fabric time passes (R10, R237, R365; log entry 3). -/

namespace Sys2Proof.Machine

/-! What the time does, a case of `State.timePasses` at a time; below 2^64 it does not wrap. -/

theorem State.timePasses_of_slew_eq_zero {s : State} (hnow : s.now + 2 < 2 ^ 64) (hslew : s.slew = 0) :
    s.timePasses = { s with now := s.now + 1 } := by
  rw [State.timePasses, if_pos hslew, Nat.mod_eq_of_lt (by omega)]

theorem State.timePasses_of_slewPhase_lt {s : State} (hnow : s.now + 2 < 2 ^ 64) (hslew : s.slew ≠ 0)
    (hphase : s.slewPhase < 4999) :
    s.timePasses = { s with now := s.now + 1, slewPhase := s.slewPhase + 1 } := by
  rw [State.timePasses, if_neg hslew, if_pos hphase, Nat.mod_eq_of_lt (by omega)]

/-- A correction forward: the time moves by one more, which the correction has less to go (R237). -/
theorem State.timePasses_of_slew_pos {s : State} (hnow : s.now + 2 < 2 ^ 64) (hslew : 0 < s.slew)
    (hphase : ¬ s.slewPhase < 4999) :
    s.timePasses = { s with now := s.now + 2, slewPhase := 0, slew := s.slew - 1 } := by
  rw [State.timePasses, if_neg (Int.ne_of_gt hslew), if_neg hphase, if_pos hslew, Nat.mod_eq_of_lt hnow]

/-- A correction back: the time stands for the nanosecond, it does not go back (R237). -/
theorem State.timePasses_of_slew_neg {s : State} (hslew : s.slew < 0) (hphase : ¬ s.slewPhase < 4999) :
    s.timePasses = { s with slewPhase := 0, slew := s.slew + 1 } := by
  rw [State.timePasses, if_neg (Int.ne_of_lt hslew), if_neg hphase, if_neg (Int.lt_asymm hslew)]

/-- The passing of a nanosecond touches the time and the correction alone. -/
theorem State.timePasses_frame (s : State) :
    { s.timePasses with now := 0, slew := 0, slewPhase := 0 } = { s with now := 0, slew := 0, slewPhase := 0 } := by
  unfold State.timePasses
  repeat' split
  all_goals rfl

@[simp] theorem State.timePasses_tiles (s : State) : s.timePasses.tiles = s.tiles :=
  (congrArg State.tiles s.timePasses_frame :)

/-- Only an entry into a power state that is under way can end with the nanosecond (R365). -/
theorem State.entriesEnd_of_entering_eq_none {s : State} (h : ∀ x ∈ s.tiles, x.2.power.entering = none) :
    s.entriesEnd = s := by
  unfold State.entriesEnd
  refine List.foldlRecOn (motive := (· = s)) s.tiles _ rfl fun t ht x hx => ?_
  rw [h x hx]
  exact ht

theorem tick_of_entering_eq_none {s : State} (h : ∀ x ∈ s.tiles, x.2.power.entering = none) : tick s = s.timePasses :=
  State.entriesEnd_of_entering_eq_none (by rwa [State.timePasses_tiles])

theorem step_of_pending_eq_nil {s : State} (h : s.pending = []) : step s = .next (tick s) := by
  rw [step, h]

/-! The clauses on the time and its correction. -/

theorem State.now_le_timePasses {s : State} (hnow : s.now + 2 < 2 ^ 64) : s.now ≤ s.timePasses.now := by
  by_cases hzero : s.slew = 0
  · rw [State.timePasses_of_slew_eq_zero hnow hzero]
    exact Nat.le_add_right _ _
  by_cases hphase : s.slewPhase < 4999
  · rw [State.timePasses_of_slewPhase_lt hnow hzero hphase]
    exact Nat.le_add_right _ _
  obtain hneg | hpos := Int.lt_or_gt_of_ne hzero
  · exact Nat.le_of_eq (congrArg State.now (State.timePasses_of_slew_neg hneg hphase)).symm
  · rw [State.timePasses_of_slew_pos hnow hpos hphase]
    exact Nat.le_add_right _ _

/-- Before the 5,000th nanosecond of a slew the time runs at its own rate. -/
theorem State.timePasses_before_slew {s : State} (hnow : s.now + 2 < 2 ^ 64) (hphase : s.slewPhase < 4999) :
    s.timePasses.now = s.now + 1 ∧ s.timePasses.slew = s.slew := by
  by_cases hzero : s.slew = 0
  · rw [State.timePasses_of_slew_eq_zero hnow hzero]
    exact ⟨rfl, rfl⟩
  · rw [State.timePasses_of_slewPhase_lt hnow hzero hphase]
    exact ⟨rfl, rfl⟩

/-- In the 5,000th nanosecond of a slew, what the time gains over one nanosecond the correction loses: one towards 0. -/
theorem State.timePasses_at_slew {s : State} (hnow : s.now + 2 < 2 ^ 64) (hslew : s.slew ≠ 0) (hphase : s.slewPhase = 4999) :
    s.timePasses.slewPhase = 0 ∧ (s.timePasses.now : Int) - s.now + s.timePasses.slew = 1 + s.slew ∧
      s.timePasses.slew.natAbs + 1 = s.slew.natAbs := by
  have hlast : ¬ s.slewPhase < 4999 := Nat.not_lt.mpr (Nat.le_of_eq hphase.symm)
  obtain hneg | hpos := Int.lt_or_gt_of_ne hslew
  · rw [State.timePasses_of_slew_neg hneg hlast]
    dsimp only
    exact ⟨rfl, by omega, by omega⟩
  · rw [State.timePasses_of_slew_pos hnow hpos hlast]
    dsimp only
    exact ⟨rfl, by omega, by omega⟩

end Sys2Proof.Machine

namespace Sys2Proof

open Machine

/-- Settles O26: where no entry ends the idle step is `State.timePasses`, whose four cases give the clauses. -/
theorem idleStepPassesTime : Obligations.IdleStepPassesTime := by
  intro s hqueue hnow _ hentering
  refine ⟨s.timePasses, ?_, s.timePasses_frame, State.now_le_timePasses hnow, ?_,
    State.timePasses_before_slew hnow, State.timePasses_at_slew hnow⟩
  · rw [step_of_pending_eq_nil hqueue, tick_of_entering_eq_none hentering]
  · intro hslew
    rw [State.timePasses_of_slew_eq_zero hnow hslew]
    exact ⟨rfl, hslew⟩

end Sys2Proof

/-! Two counts of the dictionary in states that hold a number beyond its object's elements. The table of values gives an object
65,536 elements (`elemKey`), so such a number names an element of another object. -/

namespace Sys2Proof.Machine

/-- What a command that answers a next state leaves of a value; none where it faults or is refused. -/
def valueAfter (c : Instr) (s : State) (f : State → Nat) : Option Nat :=
  match exec c s with
  | .next t => some (f t)
  | .fault _ => none
  | .refused _ => none

theorem valueAfter_of_exec_eq_next {c : Instr} {s t : State} (f : State → Nat) (h : exec c s = .next t) :
    valueAfter c s f = some (f t) := by
  rw [valueAfter, h]

/-! A stall with the automatic action (R337, R338), over a tile whose logical id is none of the map's. -/

/-- A logical id whose element of `power_aborts` is element 0 of `stall_reports`. -/
def farLogical : Nat := 65536 * (Ob.stall_reports - Ob.power_aborts)

/-- A tile of that id which enters T2 while task 0 is ready, and whose counter 0 has a wake terminal still to take (R145, R365). -/
def enteringTile : Tile where
  logical := some farLogical
  seq := { tasks := [(0, { state := .ready })] }
  counters := [(0, { reached := true, wake := true })]
  power := { entering := some (1, 1000000000) }

/-- A packet of class 0 and meadow 0 that has stood in router 0 since the start. -/
def stalledPacket : Packet where
  loc := .chan 0 4 false

/-- Meadow 0 runs on that tile alone, and a stall there is to have the automatic action (R338). -/
def stalledState : State :=
  { State.reset with
    now := 1000000000
    boot := { meadowsUp := true }
    dict := { vals := [(elemKey Ob.tile_meadow 0, some 0), (elemKey Ob.job_state 0, some 2), (elemKey Ob.hang_action 0, some 4)] }
    tiles := [(0, enteringTile)]
    net := [(0, some stalledPacket)] }

theorem stalledState_isStalled : stalledState.pkt 0 = some stalledPacket ∧ (∃ y ∈ stalledState.routerHeads 0, y.1 = 0) ∧
    stalledState.ob Ob.stall_limit * 1000 ≤ stalledState.now - stalledPacket.since ∧
    stalledState.obe Ob.stall_reports 0 = 0 := by
  decide +kernel

/-- The report of the stall counts one; the flush of the reset that follows takes the terminal (R145), which aborts the entry (R365),
and that is counted in the same place. -/
theorem obe_stall_reports_after_stallDetect :
    valueAfter (.stallDetect 0) stalledState (fun t => t.obe Ob.stall_reports 0) = some 2 := by
  decide +kernel

/-! The instant of a commit (R276). -/

/-- No role or membership changes where the map and the meadows are as they were. -/
theorem State.applyRoles_self (s : State) (why : CommitWhy) : State.applyRoles s s why = s := by
  have hmoved : ((List.range (logicalTiles s.variant)).filter fun l =>
      !(s.physOf l == s.physOf l && s.meadowAt l == s.meadowAt l)) = [] := by
    refine List.filter_eq_nil_iff.mpr fun l _ => ?_
    rw [beq_self_eq_true, beq_self_eq_true]
    decide
  unfold State.applyRoles
  dsimp only
  rw [hmoved]
  cases why <;> rfl

/-- No bucket changes where the members and the settings are as they were. -/
theorem State.applyBuckets_self (s : State) : State.applyBuckets s s = s := by
  unfold State.applyBuckets
  refine List.foldlRecOn (motive := (· = s)) _ _ rfl fun t ht g _ => ?_
  subst ht
  simp only [ne_eq, and_not_self_iff, Nat.lt_irrefl, Int.lt_irrefl, or_self, if_false]

/-- A commit that stages nothing and flips nothing raises the count of commits, and changes no more. -/
theorem State.applyCommit_of_values_eq_nil {s : State} {c : Commit} (hvalues : c.values = []) (hflip : c.flip = false) :
    s.applyCommit c = s.putOb Ob.txn_count c.number := by
  have hstaged (key : Nat) : stagedOf [] key = [] := rfl
  have hwith : s.withValues [] = s := rfl
  unfold State.applyCommit
  simp only [hvalues, hflip, hstaged, hwith, List.any_nil, List.append_nil, List.eraseDups_nil, List.foldl_nil,
    State.applyRoles_self, State.applyBuckets_self, Bool.false_eq_true, Bool.not_false, ne_eq, not_true_eq_false,
    false_and, and_self, if_true, if_false]

/-- A commit is in force, its notice taken everywhere; what ends with it is still to come. -/
def State.commitInForce (s : State) (c : Commit) : State :=
  let t := ((s.noticesTaken c.instant).applyCommit c).markConflicts c
  { t with txn := { t.txn with
    current := none, noticed := [], missed := [], missedFlip := c.flip, lastApplied := c.number } }

theorem exec_epochInstant_of_sent {s : State} {c : Commit} (hcurrent : s.txn.current = some c) (hstep : c.step = .sent)
    (hdue : c.instant ≤ s.now) (hnoticed : s.txn.noticed = []) (hown : c.own = false) :
    exec .epochInstant s = .next ((s.commitInForce c).afterCommit c).nextCommit := by
  have hready : ¬ (c.step ≠ .sent ∨ s.now < c.instant) := fun h => h.elim (· hstep) (Nat.not_lt.mpr hdue)
  rw [exec_epochInstant, execEpochInstant, hcurrent]
  dsimp only
  rw [if_neg hready, hnoticed, hown]
  rfl

/-- A commit of number 0 that stages nothing, of a source beyond the five (R271): its element of `txn_status` is `txn_count`. -/
def farCommit : Commit where
  why := .source (65536 * (Ob.txn_count - Ob.txn_status))
  values := []
  step := .sent

/-- The instant of that commit has come. -/
def dueState : State := { State.reset with txn := { current := some farCommit } }

/-- The status that tells the source, state 3 (R277), stands where the count of commits was. -/
theorem ob_txn_count_of_farCommit :
    ((dueState.commitInForce farCommit).afterCommit farCommit).nextCommit.ob Ob.txn_count = 3 := by
  rw [State.commitInForce, State.applyCommit_of_values_eq_nil rfl rfl]
  decide +kernel

end Sys2Proof.Machine

namespace Sys2Proof

open Machine

/-- Refutes O42: the statement takes in states in which a tile's logical id is no element of `power_aborts`. The hang action
resets the tile of `enteringTile`, an aborted entry is counted at the element of that id, which is that of `stall_reports`,
and the count of stall reports goes up by two. -/
theorem not_dumpsAndStalls : ¬ Obligations.DumpsAndStalls := by
  intro h
  obtain ⟨-, -, -, hstall⟩ := h stalledState
  obtain ⟨hpkt, hhead, hlimit, hnone⟩ := stalledState_isStalled
  obtain ⟨t, hexec, hcount, -⟩ := hstall 0 stalledPacket 0 4 false hpkt rfl hhead rfl hlimit (by decide)
  have hone : t.obe Ob.stall_reports 0 = 1 := hcount.trans (congrArg (fun v => (v + 1) % 2 ^ 64) hnone)
  have htwo : some (t.obe Ob.stall_reports 0) = some 2 :=
    (valueAfter_of_exec_eq_next _ hexec).symm.trans obe_stall_reports_after_stallDetect
  rw [hone] at htwo
  exact absurd htwo (by decide)

/-- Refutes O47: the clause on the count of commits takes in commits of any source number, not the five of R271 alone. That of
`farCommit` has its status where the count stands, so that telling the source, after the instant, overwrites the count. -/
theorem not_commitEvents : ¬ Obligations.CommitEvents := by
  intro h
  obtain ⟨-, -, hinstant, -, -⟩ := h dueState farCommit rfl
  obtain ⟨t, hexec, -, -, -, -, hcount, -⟩ := hinstant rfl (Nat.le_refl 0) ⟨rfl, rfl⟩
  rw [exec_epochInstant_of_sent (s := dueState) (c := farCommit) rfl rfl (Nat.le_refl 0) rfl rfl] at hexec
  obtain rfl := Host.Outcome.next.inj hexec
  rw [ob_txn_count_of_farCommit] at hcount
  exact absurd hcount (by decide)

end Sys2Proof
